-- ==== Sys2Proof/Word.lean ====
section
/-! DEFINITION. The plainest types of the E6 model: bytes, decks, GPI outputs, crystal time, received characters. -/

namespace Sys2Proof

/-- One byte of a serial line. -/
abbrev Byte := BitVec 8

/-- Deck number n, from 1 to 6, is held as n - 1 (Table 0-1: port n, reader n, channel n and tally n are one deck's). -/
abbrev Deck := Fin 6

/-- GPI output n, from 1 to 8, is held as n - 1 (Table 10-1). -/
abbrev GpiNo := Fin 8

/-- An instant of the crystal time base in whole nanoseconds since power-on. DESIGN CHOICE (log 3), safe. -/
abbrev Time := Nat

/-- A byte taken from a deck line, with its parity or framing error (R51). -/
structure LineChar where
  byte : Byte
  bad  : Bool
  deriving DecidableEq, Repr

end Sys2Proof
end

