-- ==== Sys2Proof/Syntax.lean ====
section
/-! DEFINITION. The commands of the E6: one constructor per row of spec/opcode_table.json, in the table's order.
Operands are the model's (the table gives none; log 3, 6, 8, 9): a timed event carries its crystal instant, a row of one of
six like blocks its deck, received bytes their list; a request row takes the head of the input queue and carries none. -/

namespace Sys2Proof

/-- A command to the part: a row of the table, one indivisible step (95). -/
inductive Instr where
  /-- POWER_ON (R185). Supply is first applied. -/
  | powerOn
  /-- RESET_LINE_ASSERT (R185). The reset pin is asserted. -/
  | resetLineAssert
  /-- RESET_LINE_RELEASE (R185). The reset pin is released at crystal time t. -/
  | resetLineRelease (t : Time)
  /-- SOFT_RESET_EFFECT (R184). A pending soft reset takes effect at t. -/
  | softResetEffect (t : Time)
  /-- FRAME_PULSE (R21). A pulse on the frame pulse signal at t; field2 is the field identification sampled with it (R18). -/
  | framePulse (field2 : Bool) (t : Time)
  /-- LINE_PULSE (R21). A pulse on the line pulse signal at t. -/
  | linePulse (t : Time)
  /-- NO_PULSE_TIMEOUT (R20). Three nominal frame periods without a taken frame pulse have passed at t. -/
  | noPulseTimeout (t : Time)
  /-- LATE_PULSE_TIMEOUT (R21). The frame has run long at t. -/
  | latePulseTimeout (t : Time)
  /-- TIMER_LINE_STEP (R22). The internal frame timer steps the house line at t. -/
  | timerLineStep (t : Time)
  /-- HOUSE_CLOCK_FRAME_START (R26). -/
  | houseClockFrameStart
  /-- TC_TRANSITION (R30). A transition at timecode input d at t. -/
  | tcTransition (d : Deck) (t : Time)
  /-- BIT_SYNC_TIMEOUT (R31). No transition at input d for more than 1.5 cell estimates, at t. -/
  | bitSyncTimeout (d : Deck) (t : Time)
  /-- READER_FRAME_TESTS (R40). -/
  | readerFrameTests (d : Deck)
  /-- STILL_COUNT_REACHED (R40). -/
  | stillCountReached (d : Deck)
  /-- COMMAND_SENT (R50). -/
  | commandSent (d : Deck) (t : Time)
  /-- REPLY_TIMEOUT (R50). -/
  | replyTimeout (d : Deck) (t : Time)
  /-- DECK_REPLY_RECEIVED (R50). Bytes are taken from deck line d at t. -/
  | deckReplyReceived (d : Deck) (chars : List LineChar) (t : Time)
  /-- DECK_GAP_TIMEOUT (R51). -/
  | deckGapTimeout (d : Deck) (t : Time)
  /-- RECOVERY_QUIET (R52). -/
  | recoveryQuiet (d : Deck) (t : Time)
  /-- LATE_REPLY_RECEIVED (R52). Bytes of a late reply are taken from deck line d at t. -/
  | lateReplyReceived (d : Deck) (chars : List LineChar) (t : Time)
  /-- STRAY_FRAME_RECEIVED (R52). Bytes of a stray frame are taken from deck line d at t. -/
  | strayFrameReceived (d : Deck) (chars : List LineChar) (t : Time)
  /-- ATTACH_TIMER (R57). -/
  | attachTimer (d : Deck) (t : Time)
  /-- DECK_PORT_FRAME_START (R65). -/
  | deckPortFrameStart (d : Deck)
  /-- CHASE_SAMPLE (R74). -/
  | chaseSample (d : Deck)
  /-- ROLL_COUNT_EXPIRED (R81). -/
  | rollCountExpired (d : Deck)
  /-- SEQUENCER_FRAME_START (R118). -/
  | sequencerFrameStart
  /-- CUE_TIMEOUT (R116). -/
  | cueTimeout
  /-- ROLL_TIMEOUT (R118). -/
  | rollTimeout
  /-- OUT_TIMEOUT (R122). -/
  | outTimeout
  /-- POSTROLL_TIMEOUT (R123). -/
  | postrollTimeout
  /-- TRANSITION_FIELD_START (R153). -/
  | transitionFieldStart
  /-- MIXER_FIELD_START (R161). -/
  | mixerFieldStart
  /-- MIXER_SEND_LINE (R161). -/
  | mixerSendLine
  /-- GPI_FRAME_START (R165). -/
  | gpiFrameStart
  /-- GPI_LINE_FIRE (R166). -/
  | gpiLineFire
  /-- GPI_PULSE_END (R168). -/
  | gpiPulseEnd (o : GpiNo)
  /-- FRAME_RECEIVED (R173). Bytes are taken from the control link at t. -/
  | frameReceived (bytes : List Byte) (t : Time)
  /-- LINK_GAP_TIMEOUT (R173). -/
  | linkGapTimeout (t : Time)
  /-- UNKNOWN_REQUEST (R175). -/
  | unknownRequest
  /-- OUTBOUND_SEND (R176). -/
  | outboundSend
  /-- SILENCE_TIMEOUT (R180). -/
  | silenceTimeout (t : Time)
  /-- GET_REFERENCE (R28). -/
  | getReference
  /-- SET_HOUSE_TIME (R27). -/
  | setHouseTime
  /-- SET_READER_PARAMS (R45). -/
  | setReaderParams
  /-- GET_READER (R46). -/
  | getReader
  /-- DECK_COMMAND (R69). -/
  | deckCommand
  /-- GET_DECK (R71). -/
  | getDeck
  /-- SET_PORT_ENABLE (R60). -/
  | setPortEnable
  /-- SET_SERVO_PARAMS (R73). -/
  | setServoParams
  /-- SET_CHASE (R91). -/
  | setChase
  /-- CLEAR_CHASE (R92). -/
  | clearChase
  /-- GET_CHASE (R90). -/
  | getChase
  /-- SET_LOAD_WINDOW (R101). -/
  | setLoadWindow
  /-- LOAD_EVENTS (R102). -/
  | loadEvents
  /-- LOAD_CONTINUE (R102). -/
  | loadContinue
  /-- READ_EVENT (R105). -/
  | readEvent
  /-- DELETE_EVENTS (R106). -/
  | deleteEvents
  /-- CLEAR_LIST (R107). -/
  | clearList
  /-- RESET_STATUS (R108). -/
  | resetStatus
  /-- SET_EDIT_TIMES (R111). -/
  | setEditTimes
  /-- EXECUTE (R112). -/
  | executeEvent
  /-- ABORT (R131). -/
  | abortEdit
  /-- ALL_STOP (R132). -/
  | allStop
  /-- GET_EDIT (R135). -/
  | getEdit
  /-- START_RUN (R140). -/
  | startRun
  /-- CONTINUE (R143). -/
  | continueRun
  /-- SKIP (R144). -/
  | skipEvent
  /-- PAUSE_RUN (R145). -/
  | pauseRun
  /-- STOP_RUN (R146). -/
  | stopRun
  /-- GET_RUN (R147). -/
  | getRun
  /-- SET_ROUTING (R148). -/
  | setRouting
  /-- PREPARE_TRANSITION (R149). -/
  | prepareTransition
  /-- AUTO_TAKE (R155). -/
  | autoTake
  /-- CUT_NOW (R158). -/
  | cutNow
  /-- RESET_TRANSITION (R159). -/
  | resetTransition
  /-- LEVER (R156). -/
  | lever
  /-- GET_TRANSITION (R160). -/
  | getTransition
  /-- SET_MIXER_SEND_LINE (R162). -/
  | setMixerSendLine
  /-- GPI_SET (R169). -/
  | gpiSet
  /-- GET_GPI (R170). -/
  | getGpi
  /-- SET_FORMAT (R182). -/
  | setFormat
  /-- SET_RECORDER (R183). -/
  | setRecorder
  /-- SET_NOTICE_MASK (R179). -/
  | setNoticeMask
  /-- SET_SILENCE_LIMIT (R181). -/
  | setSilenceLimit
  /-- SOFT_RESET (R184). -/
  | softReset
  /-- GET_LINK_STATUS (R186). -/
  | getLinkStatus
  deriving DecidableEq, Repr

end Sys2Proof
end

