-- ==== Sys2Proof/Config.lean ====
section
/-! DEFINITION. What one part fixes for good. The spec leaves no value undefined, so there is no free value here. -/

namespace Sys2Proof.Config

/-- The revision code of the part this manual covers (00 section 1.1, R185, R186). -/
def revision : Nat := 3

/-- How many units of the frame timer make a nanosecond. In units of 1/63 ns every line period of R3 is whole,
so the timer carries no fraction. DESIGN CHOICE (log 4), safe: exact. -/
def unitsPerNs : Nat := 63

end Sys2Proof.Config
end

