-- ==== Sys2Proof/Machine/Types.lean ====
section
/-! DEFINITION. The named values and the records of the E6's blocks. Constructors stand in the order in which the spec
lists the values. A field marked MODEL is the model's own; its log entry says why. -/

namespace Sys2Proof.Machine

/-! ## Common -/

/-- The suite format (R1). -/
inductive SuiteFormat where
  | f25 | f30 | f30d
  deriving DecidableEq, Repr

/-- A timecode label (R4): four plain numbers. -/
structure Label where
  hh : Nat
  mm : Nat
  ss : Nat
  ff : Nat
  deriving DecidableEq, Repr

/-- FORWARD or REVERSE (Table 3-1, Table 8-1). -/
inductive Direction where
  | forward | reverse
  deriving DecidableEq, Repr

/-- A value of a reply or notice before it is laid out in bytes (R187). -/
inductive Val where
  /-- An unsigned number, code, set or flag in w bytes. -/
  | u (w n : Nat)
  /-- A signed number in w bytes. -/
  | i (w : Nat) (z : Int)
  /-- A frame number that travels as a label. -/
  | lab (frame : Nat)
  /-- A house instant: reference frame and line. -/
  | inst (frame line : Nat)
  /-- Bytes as they are. -/
  | raw (bytes : List Byte)
  deriving DecidableEq, Repr

/-- A field start issued by the reference unit: reference frame, and whether it is field 2 (R2, R25). -/
structure FieldStart where
  frame  : Nat
  field2 : Bool
  deriving DecidableEq, Repr

/-- Frame and field starts issued and not yet taken, per block (R25). MODEL (log 5). -/
structure Due where
  clock  : Nat
  reader : Vector Nat 6
  port   : Vector Nat 6
  chase  : Vector Nat 6
  seq    : Nat
  gpi    : Nat
  engine : List FieldStart
  mixer  : List FieldStart
  deriving DecidableEq, Repr

/-! ## House reference and house clock (chapter 2) -/

/-- Reference states (section 2.2). -/
inductive RefState where
  | absent | acquiring | locked
  deriving DecidableEq, Repr

/-- Causes of ABSENT (R24). -/
inductive AbsentCause where
  | noPulse | lineCount | latePulse
  deriving DecidableEq, Repr

/-- Causes of ACQUIRING (R24). -/
inductive AcquireCause where
  | pulse | restart
  deriving DecidableEq, Repr

/-- The reference unit (section 2.2). -/
structure RefUnit where
  st        : RefState
  lineCount : Nat
  good      : Nat
  /-- The last taken frame pulse, or the restart from which three periods count (R20). -/
  pulseAt   : Time
  /-- The house line, 1 to Lpf. -/
  line      : Nat
  /-- The reference frame. -/
  frame     : Nat
  /-- Frame timer: the latest house line step, in 1/63 ns (R22, log 4). -/
  stepAt    : Nat
  /-- Frame timer: its latest restart, in 1/63 ns (R21, R23). -/
  timerFrom : Nat
  deriving DecidableEq, Repr

/-- The house clock (section 2.7). -/
structure HouseClock where
  frame  : Nat
  offset : Nat
  preset : Option Nat
  deriving DecidableEq, Repr

/-! ## Timecode readers (chapter 3) -/

/-- Decoder states (Table 3-1). -/
inductive DecState where
  | searching | reading
  deriving DecidableEq, Repr

/-- Sources of a position record (Table 3-1). -/
inductive Source where
  | ltc | flywheel | line | none
  deriving DecidableEq, Repr

/-- Speed classes (Table 3-1). -/
inductive SpeedClass where
  | still | slow | play | fast
  deriving DecidableEq, Repr

/-- Causes of a READER_STATE notice (R44). -/
inductive ReaderCause where
  | word | flywheel | limit | notPlay | still | timeReply | deckAbsent | restart
  deriving DecidableEq, Repr

/-- An interval awaiting classification (R30): length in ns, instant of its closing transition, and the house instant
of that transition. -/
structure Interval where
  len      : Nat
  closedAt : Time
  house    : Nat
  deriving DecidableEq, Repr

/-- The chain (R37): the last accepted word, and whether the flywheel synthesised it (R40). -/
structure Chain where
  frame : Nat
  dir   : Direction
  synth : Bool
  deriving DecidableEq, Repr

/-- A good word, also a candidate (R35, R37): frame number, direction, stamp and user bits. -/
structure Word where
  frame : Nat
  dir   : Direction
  stamp : Nat
  user  : BitVec 32
  deriving DecidableEq, Repr

/-- Last frame number and its stamp: the stamp is absent exactly when the frame number is (Table 3-1). -/
structure Mark where
  frame : Nat
  stamp : Nat
  deriving DecidableEq, Repr

/-- One timecode reader (Table 3-1). -/
structure Reader where
  dec      : DecState
  /-- The transition that opens the interval in progress (R30). -/
  openFrom : Option Time
  pend     : Option Interval
  est      : Nat
  half     : Option Nat
  run      : Nat
  halfRun  : Nat
  halfMax  : Nat
  /-- The bit window, latest bit first. -/
  window   : List Bool
  since    : Nat
  /-- Data bits still to come of a reverse word in progress. -/
  rev      : Option Nat
  chain    : Option Chain
  cand     : Option Word
  bad      : Nat
  noWord   : Nat
  src      : Source
  mark     : Option Mark
  dir      : Direction
  cls      : SpeedClass
  speed    : Int
  user     : BitVec 32
  good     : Nat
  fly      : Nat
  deriving DecidableEq, Repr

/-! ## Deck ports (chapter 4) -/

/-- ASSEMBLE or INSERT (Table 6-1). -/
inductive EditKind where
  | assemble | insert
  deriving DecidableEq, Repr

/-- Deck commands (Table 4-1) with their data; LOCATE holds a frame number until it is handed (R49). -/
inductive DeckCmd where
  | identify | statusSense | timeSense
  | stop | play
  | shuttle (speed : Int)
  | locate (frame : Nat)
  | varispeed (speed : Nat)
  | recordOn (tracks : BitVec 5) (kind : EditKind)
  | recordOff
  deriving DecidableEq, Repr

/-- NAK reasons (Table 4-2). -/
inductive NakReason where
  | localControl | noTape | unknownCommand | badData | notNow | recordInhibited
  deriving DecidableEq, Repr

/-- Line states (Table 4-3). -/
inductive LineState where
  | idle | sending | awaiting | receiving | recovering
  deriving DecidableEq, Repr

/-- Presence (Table 4-5). -/
inductive Presence where
  | disabled | absent | present
  deriving DecidableEq, Repr

/-- Causes of a DECK_PRESENCE notice (R56, R57, R60). -/
inductive PresenceCause where
  | failures | disabled | attached | identity | enabled
  deriving DecidableEq, Repr

/-- Claims (Table 4-5). -/
inductive Claim where
  | free | link | sequencer
  deriving DecidableEq, Repr

/-- The capability set (Table 4-7). -/
structure Caps where
  varispeed : Bool
  record    : Bool
  insert    : Bool
  ltcOut    : Bool
  timeSense : Bool
  deriving DecidableEq, Repr

/-- The identity record as stored (Table 4-7). -/
structure Identity where
  typeCode   : Nat
  model      : List Byte
  caps       : Caps
  /-- Smin and Smax, with VARISPEED. -/
  range      : Option (Nat × Nat)
  minPreroll : Nat
  /-- Record-on and record-off delay, with RECORD. -/
  delays     : Option (Nat × Nat)
  playStart  : Nat
  deriving DecidableEq, Repr

/-- Who posted a command and is told its hand and outcome (Table 4-4). -/
inductive Origin where
  /-- The RECORD_OFF of an EMERGENCY item. -/
  | emergencyOff
  /-- The STOP of an EMERGENCY item, and whether the sequencer and the safe stop await it (R62). -/
  | emergencyStop (toSeq toSafe : Bool)
  | sequencer
  /-- The chase channel, with the serial numbers of its start and of its latest LOCATE (log 16). -/
  | servo (gen loc : Nat)
  /-- The control link, with the request's kind and tag (R70). -/
  | pass (kind tag : Byte)
  | poll
  deriving DecidableEq, Repr

/-- A command in flight, its data as sent (R53). -/
structure Flight where
  cmd    : DeckCmd
  origin : Origin
  deriving DecidableEq, Repr

/-- What is left of an EMERGENCY item: RECORD_OFF if still to be handed, then STOP (R62). -/
structure EmergItem where
  recordOff : Bool
  toSeq     : Bool
  toSafe    : Bool
  deriving DecidableEq, Repr

/-- The SEQUENCER slot (R63): the item's commands not yet handed. -/
structure SeqItem where
  first  : Option DeckCmd
  second : Option DeckCmd
  deriving DecidableEq, Repr

/-- The SERVO slot's command (R64) with the serial numbers of log 16. -/
structure ServoCmd where
  cmd : DeckCmd
  gen : Nat
  loc : Nat
  deriving DecidableEq, Repr

/-- The PASS slot's command with the request it answers (R69, R70). -/
structure PassCmd where
  cmd  : DeckCmd
  kind : Byte
  tag  : Byte
  deriving DecidableEq, Repr

/-- A deck frame being taken: its bytes in order, and whether one had an error (R51). -/
structure RxFrame where
  bytes : List Byte
  bad   : Bool
  deriving DecidableEq, Repr

/-- The late reply of a TIMEOUT (R52). -/
inductive LateState where
  /-- RECOVERING did not begin with TIMEOUT, or the late reply is counted: bytes are discarded. -/
  | nothing
  /-- The late reply, none of it or some of it taken. -/
  | reply (f : RxFrame)
  deriving DecidableEq, Repr

/-- One deck port: deck record (Table 4-5), line and arbiter (Table 4-8). -/
structure Port where
  enabled   : Bool
  presence  : Presence
  ident     : Option Identity
  flags     : Option (BitVec 10)
  age       : Nat
  fresh     : Bool
  fails     : Nat
  claim     : Claim
  standing  : Bool
  nak       : Option NakReason
  line      : LineState
  flight    : Option Flight
  emerg     : Option EmergItem
  seqSlot   : SeqItem
  servo     : Option ServoCmd
  pass      : Option PassCmd
  poll      : Option DeckCmd
  /-- Poll parity is odd (R65). -/
  odd       : Bool
  quiet     : Bool
  /-- The window has closed and no frame start has come since (R61, R66). -/
  hold      : Bool
  attachAt  : Option Time
  /-- The reply timer's start; in RECOVERING, the instant of entry (R50, R52). -/
  replyFrom : Time
  byteAt    : Time
  rx        : Option RxFrame
  stray     : Option RxFrame
  late      : LateState
  /-- The bytes of the command last handed: MODEL view of the transmit pin (log 11). -/
  tx        : List Byte
  deriving DecidableEq, Repr

/-- The outcome of a command (section 4.1.2). -/
inductive CmdOutcome (α : Type) where
  | acked
  | naked (r : NakReason)
  | data (x : α)
  | lineError
  | timeout
  deriving DecidableEq, Repr

/-- An undamaged data reply (Table 12-6): its meaning beside its data bytes. -/
inductive DataReply where
  | status (flags : BitVec 10)
  | time (l : Label)
  | ident (r : Identity)
  deriving DecidableEq, Repr

/-! ## Chase synchronizer (chapter 5) -/

/-- Chase states (Table 5-1). -/
inductive ChaseState where
  | idle | seek | parked | rolling | varispeed | locked | fault
  deriving DecidableEq, Repr

/-- LINK or SEQUENCER: owner of a channel or plan (Table 5-1, Table 9-2). -/
inductive Owner where
  | link | sequencer
  deriving DecidableEq, Repr

/-- The master of a channel (Table 5-1). -/
inductive Master where
  | house
  | deck (d : Deck)
  deriving DecidableEq, Repr

/-- FOLLOW or LEAD (Table 5-1). -/
inductive LocateKind where
  | follow | lead
  deriving DecidableEq, Repr

/-- The master's condition (R75). -/
inductive MasterCond where
  | atPlay | stopped | noPosition
  deriving DecidableEq, Repr

/-- Fault reasons of a channel (Table 5-1). -/
inductive ChaseFault where
  | cannotCatch | noMotion | slaveLost | masterLost | deckNak
  deriving DecidableEq, Repr

/-- Causes of a CHASE_STATE notice (R89). -/
inductive ChaseCause where
  | set | sequencer | seek | reseek | masterStopped | cueDone | roll | atSpeed | positionLost | lock
  | unlockSource | unlockError | noMaster | fault | cleared | cancelled | released
  deriving DecidableEq, Repr

/-- One chase channel (Table 5-1). -/
structure Channel where
  st       : ChaseState
  owner    : Option Owner
  master   : Option Master
  offset   : Int
  kind     : Option LocateKind
  target   : Option Nat
  acked    : Bool
  err      : Option Int
  speed    : Option Nat
  cond     : Option MasterCond
  inWin    : Nat
  outWin   : Nat
  seeks    : Nat
  lead     : Nat
  roll     : Nat
  fault    : Option ChaseFault
  /-- Serial number of the channel's start or clear: MODEL (log 16). -/
  gen      : Nat
  /-- Serial number of its latest LOCATE: MODEL (log 16). -/
  loc      : Nat
  /-- LOCATE, or PLAY, is re-posted at the next sample (R87). -/
  relocate : Bool
  replay   : Bool
  deriving DecidableEq, Repr

/-! ## The event list (chapter 6) -/

/-- CUT, MIX or WIPE (Table 6-1). -/
inductive TransType where
  | cut | mix | wipe
  deriving DecidableEq, Repr

/-- LINEAR or S (Table 6-1). -/
inductive Curve where
  | linear | s
  deriving DecidableEq, Repr

/-- A pattern number and reverse flag. -/
structure Pattern where
  num : Nat
  rev : Bool
  deriving DecidableEq, Repr

/-- A GPI action, a PULSE with its length (Table 6-2). -/
inductive GpiAction where
  | pulse (len : Nat) | on | off
  deriving DecidableEq, Repr

/-- A trigger of an event (Table 6-2). -/
structure Trigger where
  output : GpiNo
  offset : Int
  line   : Nat
  action : GpiAction
  deriving DecidableEq, Repr

/-- Source B with its in point (Table 6-1). -/
structure BSource where
  deck : Deck
  inAt : Nat
  deriving DecidableEq, Repr

/-- The loaded fields of an event record (Table 6-1). -/
structure EventFields where
  type     : TransType
  recIn    : Nat
  recOut   : Nat
  a        : Deck
  aIn      : Nat
  b        : Option BSource
  t        : Nat
  d        : Nat
  curve    : Curve
  pattern  : Option Pattern
  tracks   : BitVec 5
  kind     : EditKind
  triggers : List Trigger
  deriving DecidableEq, Repr

/-- Event status (Table 6-3). -/
inductive EventStatus where
  | pending | done | failed | incomplete | skipped
  deriving DecidableEq, Repr

/-- Reasons with which an edit can end other than DONE (Table 7-5). -/
inductive Reason where
  | sourceIsRecorder | deckAbsent | notChaseable | notCapable | cueTimeout | rollTimeout | noLock | noTimecode
  | missedPoint | outTimeout | recordUnconfirmed | deckNak | deckLost | aborted | allStop | silence
  deriving DecidableEq, Repr

/-- The warning set (Table 6-3). -/
structure Warnings where
  sync       : Bool
  ref        : Bool
  manual     : Bool
  transLate  : Bool
  lateOut    : Bool
  gpiLate    : Bool
  gpiMissed  : Bool
  deriving DecidableEq, Repr

/-- An event record: loaded fields and kept fields (R96, R97). -/
structure Event where
  fields   : EventFields
  status   : EventStatus
  failure  : Option Reason
  warns    : Warnings
  attempts : Nat
  deriving DecidableEq, Repr

/-- Why a load record is invalid (Table 6-4, R103). -/
inductive Invalid where
  | timecodeInvalid | fieldRange | triggerRange | spanRange | sameSource | sourceIsRecorder | noBSource
  | transitionRange | noTracks | activeEvent | listFull
  deriving DecidableEq, Repr

/-- The event list (R100, R101, R109). -/
structure EventList where
  events : List (Nat × Event)
  low    : Nat
  high   : Nat
  ptr    : Nat
  active : Option Nat
  deriving DecidableEq, Repr

/-! ## Executing an edit (chapter 7) and list runs (chapter 8) -/

/-- PERFORM, PREVIEW or REVIEW (Table 7-1). -/
inductive EditMode where
  | perform | preview | review
  deriving DecidableEq, Repr

/-- Phases of an edit (Table 7-2). -/
inductive Phase where
  | idle | claim | cueing | rolling | editing | postroll | release
  deriving DecidableEq, Repr

/-- Record stages (Table 7-1). -/
inductive RecordStage where
  | notSent | onHanded | offHanded
  deriving DecidableEq, Repr

/-- The edit context (Table 7-1). -/
structure Edit where
  active     : Option (Nat × EventFields)
  mode       : Option EditMode
  phase      : Phase
  /-- The involved decks, the recorder first. -/
  involved   : List Deck
  /-- The sources involved. -/
  srcA       : Option Deck
  srcB       : Option Deck
  preroll    : Nat
  margin     : Nat
  postroll   : Nat
  onDelay    : Nat
  offDelay   : Nat
  playStart  : Nat
  cueR       : Option Nat
  cueA       : Option Nat
  cueB       : Option Nat
  acked      : Vector Bool 6
  cued       : Vector Bool 6
  offA       : Option Int
  offB       : Option Int
  syncPassed : Bool
  stage      : RecordStage
  deadline   : Nat
  stops      : List Deck
  warns      : Warnings
  abort      : Option Reason
  failure    : Option Reason
  onFrame    : Option Nat
  offFrame   : Option Nat
  /-- The record stage as it stood when the abort was taken (R130). -/
  abortStage : RecordStage
  /-- Decks whose LOCATE is posted again at the next frame start (R115). -/
  relocate   : Vector Bool 6
  /-- PLAY is posted again at the next frame start (R115). -/
  replay     : Bool
  /-- RECORD_OFF has been posted (R122). -/
  offPosted  : Bool
  deriving DecidableEq, Repr

/-- States of the run cursor (R137). -/
inductive RunState where
  | idle | executing | held | pausing | ended
  deriving DecidableEq, Repr

/-- SKIP_DONE or ALL (Table 8-1). -/
inductive RunPolicy where
  | skipDone | all
  deriving DecidableEq, Repr

/-- Hold reasons (Table 8-1). -/
inductive HoldReason where
  | eventFailed | eventIncomplete | noReference
  deriving DecidableEq, Repr

/-- Reasons of a RUN_STATE notice (R147). -/
inductive RunReason where
  | started | next | wrap | continued | eventFailed | eventIncomplete | noReference | pauseRequested | paused
  | stopped | allStop | listEnd
  deriving DecidableEq, Repr

/-- The run cursor (Table 8-1). -/
structure Run where
  st      : RunState
  first   : Option Nat
  last    : Option Nat
  dir     : Direction
  mode    : Option EditMode
  loop    : Bool
  policy  : RunPolicy
  current : Option Nat
  hold    : Option HoldReason
  started : Nat
  wraps   : Nat
  deriving DecidableEq, Repr

/-! ## Transition engine, mixer line, GPI (chapters 9 and 10) -/

/-- The ten sources (Table 9-1). -/
inductive VideoSource where
  | black
  | deck (d : Deck)
  | bars | aux1 | aux2
  deriving DecidableEq, Repr

/-- Engine states (Table 9-2). -/
inductive EngineState where
  | idle | armed | running | held | manual
  deriving DecidableEq, Repr

/-- Plan types (Table 9-2). -/
inductive PlanType where
  | none | cut | mix | wipe
  deriving DecidableEq, Repr

/-- The plan (Table 9-2). -/
structure Plan where
  type    : PlanType
  curve   : Curve
  dur     : Nat
  pattern : Pattern
  a       : VideoSource
  b       : VideoSource
  /-- The start frame, of a SEQUENCER plan. -/
  start   : Option Nat
  owner   : Owner
  preview : Bool
  deriving DecidableEq, Repr

/-- The prepared plan (Table 9-2). -/
structure Prepared where
  type    : TransType
  curve   : Curve
  pattern : Pattern
  a       : VideoSource
  b       : VideoSource
  deriving DecidableEq, Repr

/-- The run form (Table 9-2); a TAKE holds its starting level and its duration. -/
inductive RunForm where
  | curve
  | take (m0 dur : Nat)
  deriving DecidableEq, Repr

/-- The effect (Table 9-2). -/
inductive Effect where
  | mix
  | wipe (p : Pattern)
  deriving DecidableEq, Repr

/-- Kinds of completion swap (R152). -/
inductive SwapKind where
  | cut | curve | manual
  deriving DecidableEq, Repr

/-- Causes of a TRANSITION_STATE notice (R160). -/
inductive TransCause where
  | armed | start | lateStart | swap (k : SwapKind) | take | held | withdrawn | reset
  deriving DecidableEq, Repr

/-- The transition engine (Table 9-2) and its routing table (R148). -/
structure Engine where
  st       : EngineState
  plan     : Option Plan
  prepared : Option Prepared
  form     : RunForm
  k        : Nat
  level    : Nat
  xa       : VideoSource
  xb       : VideoSource
  effect   : Effect
  cutMark  : Bool
  pendCut  : Bool
  lever    : Nat
  mapped   : Nat
  inverted : Bool
  pickup   : Bool
  preview  : Bool
  /-- The edit that handed over the sequencer's plan has not ended: its reports are taken (R126, R154). MODEL (log 51). -/
  live     : Bool
  routing  : Vector Nat 10
  deriving DecidableEq, Repr

/-- The mixer line (R161, R162): send line offset, the field whose record is open, and the bytes of the latest record. -/
structure Mixer where
  offset  : Nat
  pendOff : Option Nat
  opened  : Option Nat
  tx      : List Byte
  deriving DecidableEq, Repr

/-- A running pulse (Table 10-1); skip counts frame starts issued before it began: MODEL (log 22). -/
structure Pulse where
  left    : Nat
  endLine : Nat
  skip    : Nat
  deriving DecidableEq, Repr

/-- A GPI output (Table 10-1). -/
structure GpiOut where
  on    : Bool
  pulse : Option Pulse
  deriving DecidableEq, Repr

/-- A schedule entry (Table 10-1). -/
structure GpiEntry where
  output  : GpiNo
  due     : Nat
  offset  : Int
  line    : Nat
  action  : GpiAction
  event   : Nat
  place   : Nat
  inFrame : Bool
  late    : Bool
  deriving DecidableEq, Repr

/-- Outcomes of a GPI_TRIGGER notice (R170). -/
inductive GpiResult where
  | fired | late | missed
  deriving DecidableEq, Repr

/-- The GPI unit (Table 10-1). -/
structure Gpi where
  outs  : Vector GpiOut 8
  sched : List GpiEntry
  deriving DecidableEq, Repr

/-! ## Control link (chapter 11) -/

/-- Result codes (Table 11-3). -/
inductive Result where
  | ok | busy | frameError | unknownRequest | badLength | timecodeInvalid | wrongState | noDeck | deckOwned
  | notChaseable | chaseLoop | listFull | noEvent | activeEvent | eventInvalid | noReference | recordProtected
  | lineBusy | aborted | naked | lineError | timeout
  deriving DecidableEq, Repr

/-- Notice kinds (Table 11-1). -/
inductive NoticeKind where
  | deckPresence | deckStatus | readerState | chaseState | gpiTrigger | hello | referenceState | editPhase | editEnd
  | runState | transitionState | leverPickup | silenceStop
  deriving DecidableEq, Repr

/-- Causes of a HELLO notice (R185). -/
inductive HelloCause where
  | powerOn | resetLine | soft | format
  deriving DecidableEq, Repr

/-- An entry of the notice table (R177); source 0 for a single kind. -/
structure Notice where
  kind    : NoticeKind
  source  : Nat
  content : List Val
  stamp   : Nat
  count   : Nat
  deriving DecidableEq, Repr

/-- A request in the input queue (R174). -/
structure Request where
  kind   : Byte
  tag    : Byte
  params : List Byte
  deriving DecidableEq, Repr

/-- A reply waiting to be sent; its values begin with the result code (R187, R188). -/
structure Reply where
  kind : Byte
  tag  : Byte
  vals : List Val
  deriving DecidableEq, Repr

/-- The receive side (R173): hunting, or in a frame with the bytes taken after the lead byte. -/
inductive LinkRx where
  | hunting
  | frame (bytes : List Byte)
  deriving DecidableEq, Repr

/-- The control link (Table 11-2). -/
structure Link where
  rx           : LinkRx
  byteAt       : Time
  input        : List Request
  replies      : List Reply
  dropped      : Nat
  notices      : List Notice
  mask         : BitVec 13
  limit        : Nat
  restartAt    : Time
  expired      : Bool
  stopTaken    : Bool
  recorder     : Deck
  resetPending : Bool
  /-- Replies still to be sent until the OK of SOFT_RESET is out (R184). -/
  okAhead      : Nat
  /-- The safe stop in progress: decks whose STOP is awaited (R184). -/
  safe         : Option (List Deck)
  /-- What the latest sending step put on the line: MODEL view of the transmit pin (log 11). -/
  tx           : List (List Byte)
  deriving DecidableEq, Repr

/-! ## Suite settings of the readers, the servo and the sequencer -/

/-- Settings with stated defaults and ranges (R45, R73, R111). -/
structure Settings where
  glitch     : Nat
  flyLimit   : Nat
  coarse     : Nat
  fine       : Nat
  trim       : Nat
  lead       : Nat
  lockWin    : Nat
  lockCount  : Nat
  unlockWin  : Nat
  seekWin    : Nat
  preroll    : Nat
  syncMargin : Nat
  postroll   : Nat
  cueTimeout : Nat
  deriving DecidableEq, Repr

end Sys2Proof.Machine
end

