-- ==== Sys2Proof/Machine/Arith.lean ====
section
/-! DEFINITION. Chapter 1: format constants, labels, the day circle, positions and rounding (R1 to R16). -/

namespace Sys2Proof.Machine

/-! ## Format constants (Table 1-1, Table 1-2) -/

/-- Label frame rate. -/
def SuiteFormat.rate : SuiteFormat → Nat
  | .f25 => 25 | .f30 => 30 | .f30d => 30

/-- Lines per frame, Lpf. -/
def SuiteFormat.lpf : SuiteFormat → Nat
  | .f25 => 625 | .f30 => 525 | .f30d => 525

/-- The last line of field 1. -/
def SuiteFormat.field1Last : SuiteFormat → Nat
  | .f25 => 313 | .f30 => 263 | .f30d => 263

/-- Day length L in frames. -/
def SuiteFormat.dayLen : SuiteFormat → Nat
  | .f25 => 2160000 | .f30 => 2592000 | .f30d => 2589408

/-- Half day L/2 in frames. -/
def SuiteFormat.halfDay (f : SuiteFormat) : Nat := f.dayLen / 2

/-- Day length in lines. -/
def SuiteFormat.dayLines (f : SuiteFormat) : Nat := f.dayLen * f.lpf

/-- The line period in 1/63 ns, exact: 64,000 ns, 1/15,750 s and 1001/15,750,000 s (R3, log 4). -/
def SuiteFormat.linePeriod : SuiteFormat → Nat
  | .f25 => 4032000 | .f30 => 4000000 | .f30d => 4004000

/-- The frame period in 1/63 ns, exact (R3). -/
def SuiteFormat.framePeriod (f : SuiteFormat) : Nat := f.lpf * f.linePeriod

/-- The nominal cell in ns, as held (R3). -/
def SuiteFormat.nominalCell : SuiteFormat → Nat
  | .f25 => 500000 | .f30 => 416667 | .f30d => 417083

/-- Whether a line lies in field 2 (R2). -/
def SuiteFormat.inField2 (f : SuiteFormat) (line : Nat) : Bool := f.field1Last < line

/-- The first line of a field (R2). -/
def SuiteFormat.firstLine (f : SuiteFormat) (field2 : Bool) : Nat := if field2 then f.field1Last + 1 else 1

/-! ## Labels (R4, R6 to R9) -/

/-- The labels dropped in F30D: ss = 0 with ff 0 or 1 in a minute that is no multiple of ten (Table 1-3). -/
def Label.dropped (l : Label) : Bool := l.ss == 0 && l.ff < 2 && l.mm % 10 != 0

/-- Legal labels (R4, Table 1-3). -/
def Label.legal (f : SuiteFormat) (l : Label) : Bool :=
  l.hh ≤ 23 && l.mm ≤ 59 && l.ss ≤ 59 && l.ff < f.rate && !(f == .f30d && l.dropped)

/-- Frame number of a legal label (R6, R7). -/
def Label.toFrame (f : SuiteFormat) (l : Label) : Nat :=
  let m := l.hh * 60 + l.mm
  let n := (m * 60 + l.ss) * f.rate + l.ff
  match f with
  | .f30d => n - 2 * (m - m / 10)
  | _ => n

/-- The split of a count of labels into fields (R8). -/
def Label.split (r n : Nat) : Label :=
  let s := n / r
  { hh := s / 3600, mm := s / 60 % 60, ss := s % 60, ff := n % r }

/-- The count with the dropped labels of F30D restored (R9); natural subtraction gives 0 for R below 2. -/
def restoreDropped (n : Nat) : Nat := n + 18 * (n / 17982) + 2 * ((n % 17982 - 2) / 1798)

/-- The label of a frame number (R8, R9). -/
def Label.ofFrame (f : SuiteFormat) (n : Nat) : Label :=
  match f with
  | .f30d => Label.split f.rate (restoreDropped n)
  | _ => Label.split f.rate n

/-! ## The day circle (R10 to R14) -/

/-- A frame number plus a signed number of frames, reduced (R10). -/
def SuiteFormat.addFrames (f : SuiteFormat) (n : Nat) (z : Int) : Nat := ((n + z) % (f.dayLen : Int)).toNat

/-- A position plus a signed number of lines, reduced (R10). -/
def SuiteFormat.addLines (f : SuiteFormat) (p : Nat) (z : Int) : Nat := ((p + z) % (f.dayLines : Int)).toNat

/-- The signed wrapped difference on a circle of m points (R11). -/
def wrapDiff (m a b : Nat) : Int :=
  let r := ((a : Int) - b) % (m : Int)
  if r < (m / 2 : Nat) then r else r - m

/-- d(a, b) of two frame numbers (R11). -/
def SuiteFormat.d (f : SuiteFormat) (a b : Nat) : Int := wrapDiff f.dayLen a b

/-- d(a, b) of two positions in lines (R11). -/
def SuiteFormat.dLines (f : SuiteFormat) (a b : Nat) : Int := wrapDiff f.dayLines a b

/-- f has reached x (R12). -/
def SuiteFormat.reached (f : SuiteFormat) (n x : Nat) : Bool := 0 ≤ f.d n x

/-- The span (out - in) mod L (R13). -/
def SuiteFormat.span (f : SuiteFormat) (recIn recOut : Nat) : Nat := f.addFrames recOut (-(recIn : Int))

/-- The position of a line of a frame (R14). -/
def SuiteFormat.position (f : SuiteFormat) (frame line : Nat) : Nat := frame * f.lpf + (line - 1)

/-! ## Rounding and clamping (R15, section 4.5) -/

/-- n / d rounded halves up, for n not negative (R15). -/
def roundHalfUp (n d : Nat) : Nat := (2 * n + d) / (2 * d)

/-- n / d rounded halves away from zero (R15). -/
def roundHalfAway (n : Int) (d : Nat) : Int :=
  if 0 ≤ n then (roundHalfUp n.toNat d : Nat) else -(roundHalfUp (-n).toNat d : Nat)

/-- A value clamped to the nearer end of its range (section 4.5). -/
def clamp (lo hi n : Nat) : Nat := max lo (min hi n)

/-- A signed value clamped to the nearer end of its range (section 4.5). -/
def clampInt (lo hi z : Int) : Int := max lo (min hi z)

/-- A count of two bytes that saturates (Table 3-1). -/
def sat16 (n : Nat) : Nat := min 65535 n

/-- A count of one byte that saturates (Table 4-5, Table 6-3). -/
def sat8 (n : Nat) : Nat := min 255 n

/-- Milliseconds in ns. -/
def ms (n : Nat) : Nat := n * 1000000

end Sys2Proof.Machine
end

