-- ==== Sys2Proof/Machine/Codec.lean ====
section
/-! DEFINITION. Chapter 12: codes of enumerated values and sets, the layout of values in bytes, control link frames,
deck frames and field records (R187, R188, R48, R191). -/

namespace Sys2Proof.Machine

/-! ## Codes of enumerated values: numbered in the order in which the rule or table lists them (R187) -/

/-- SET_FORMAT (Table 12-3). -/
def SuiteFormat.code : SuiteFormat → Nat
  | .f25 => 0
  | .f30 => 1
  | .f30d => 2

/-- Table 12-3, Table 3-1. -/
def Direction.code : Direction → Nat
  | .forward => 0
  | .reverse => 1

/-- Section 2.2. -/
def RefState.code : RefState → Nat
  | .absent => 0
  | .acquiring => 1
  | .locked => 2

/-- R24. -/
def AbsentCause.code : AbsentCause → Nat
  | .noPulse => 0
  | .lineCount => 1
  | .latePulse => 2

/-- R24. -/
def AcquireCause.code : AcquireCause → Nat
  | .pulse => 0
  | .restart => 1

/-- Table 3-1. -/
def DecState.code : DecState → Nat
  | .searching => 0
  | .reading => 1

/-- Table 3-1. -/
def Source.code : Source → Nat
  | .ltc => 0
  | .flywheel => 1
  | .line => 2
  | .none => 3

/-- Table 3-1. -/
def SpeedClass.code : SpeedClass → Nat
  | .still => 0
  | .slow => 1
  | .play => 2
  | .fast => 3

/-- R44. -/
def ReaderCause.code : ReaderCause → Nat
  | .word => 0
  | .flywheel => 1
  | .limit => 2
  | .notPlay => 3
  | .still => 4
  | .timeReply => 5
  | .deckAbsent => 6
  | .restart => 7

/-- Table 12-4. -/
def EditKind.code : EditKind → Nat
  | .assemble => 0
  | .insert => 1

/-- Table 4-2. -/
def NakReason.code : NakReason → Nat
  | .localControl => 0
  | .noTape => 1
  | .unknownCommand => 2
  | .badData => 3
  | .notNow => 4
  | .recordInhibited => 5

/-- Table 4-3. -/
def LineState.code : LineState → Nat
  | .idle => 0
  | .sending => 1
  | .awaiting => 2
  | .receiving => 3
  | .recovering => 4

/-- Table 4-5. -/
def Presence.code : Presence → Nat
  | .disabled => 0
  | .absent => 1
  | .present => 2

/-- R56, R57, R60, in the order of the rules (log 30). -/
def PresenceCause.code : PresenceCause → Nat
  | .failures => 0
  | .disabled => 1
  | .attached => 2
  | .identity => 3
  | .enabled => 4

/-- Table 4-5. -/
def Claim.code : Claim → Nat
  | .free => 0
  | .link => 1
  | .sequencer => 2

/-- Table 5-1. -/
def ChaseState.code : ChaseState → Nat
  | .idle => 0
  | .seek => 1
  | .parked => 2
  | .rolling => 3
  | .varispeed => 4
  | .locked => 5
  | .fault => 6

/-- Table 5-1. Table 9-2 lists SEQUENCER first: see `Owner.planCode`. -/
def Owner.code : Owner → Nat
  | .link => 0
  | .sequencer => 1

/-- Table 5-1. -/
def LocateKind.code : LocateKind → Nat
  | .follow => 0
  | .lead => 1

/-- R75. -/
def MasterCond.code : MasterCond → Nat
  | .atPlay => 0
  | .stopped => 1
  | .noPosition => 2

/-- Table 5-1. -/
def ChaseFault.code : ChaseFault → Nat
  | .cannotCatch => 0
  | .noMotion => 1
  | .slaveLost => 2
  | .masterLost => 3
  | .deckNak => 4

/-- R89. -/
def ChaseCause.code : ChaseCause → Nat
  | .set => 0
  | .sequencer => 1
  | .seek => 2
  | .reseek => 3
  | .masterStopped => 4
  | .cueDone => 5
  | .roll => 6
  | .atSpeed => 7
  | .positionLost => 8
  | .lock => 9
  | .unlockSource => 10
  | .unlockError => 11
  | .noMaster => 12
  | .fault => 13
  | .cleared => 14
  | .cancelled => 15
  | .released => 16

/-- Table 12-4. -/
def TransType.code : TransType → Nat
  | .cut => 0
  | .mix => 1
  | .wipe => 2

/-- Table 12-4. -/
def Curve.code : Curve → Nat
  | .linear => 0
  | .s => 1

/-- Table 6-3. -/
def EventStatus.code : EventStatus → Nat
  | .pending => 0
  | .done => 1
  | .failed => 2
  | .incomplete => 3
  | .skipped => 4

/-- Table 6-4, then ACTIVE_EVENT and LIST_FULL of R103 (log 30). -/
def Invalid.code : Invalid → Nat
  | .timecodeInvalid => 0
  | .fieldRange => 1
  | .triggerRange => 2
  | .spanRange => 3
  | .sameSource => 4
  | .sourceIsRecorder => 5
  | .noBSource => 6
  | .transitionRange => 7
  | .noTracks => 8
  | .activeEvent => 9
  | .listFull => 10

/-- R187. -/
def EditMode.code : EditMode → Nat
  | .perform => 0
  | .preview => 1
  | .review => 2

/-- Table 7-1. -/
def Phase.code : Phase → Nat
  | .idle => 0
  | .claim => 1
  | .cueing => 2
  | .rolling => 3
  | .editing => 4
  | .postroll => 5
  | .release => 6

/-- Table 7-1. -/
def RecordStage.code : RecordStage → Nat
  | .notSent => 0
  | .onHanded => 1
  | .offHanded => 2

/-- R137. -/
def RunState.code : RunState → Nat
  | .idle => 0
  | .executing => 1
  | .held => 2
  | .pausing => 3
  | .ended => 4

/-- Table 12-3. -/
def RunPolicy.code : RunPolicy → Nat
  | .skipDone => 0
  | .all => 1

/-- Table 8-1. -/
def HoldReason.code : HoldReason → Nat
  | .eventFailed => 0
  | .eventIncomplete => 1
  | .noReference => 2

/-- R147. -/
def RunReason.code : RunReason → Nat
  | .started => 0
  | .next => 1
  | .wrap => 2
  | .continued => 3
  | .eventFailed => 4
  | .eventIncomplete => 5
  | .noReference => 6
  | .pauseRequested => 7
  | .paused => 8
  | .stopped => 9
  | .allStop => 10
  | .listEnd => 11

/-- Table 9-2. -/
def EngineState.code : EngineState → Nat
  | .idle => 0
  | .armed => 1
  | .running => 2
  | .held => 3
  | .manual => 4

/-- Table 9-2. -/
def PlanType.code : PlanType → Nat
  | .none => 0
  | .cut => 1
  | .mix => 2
  | .wipe => 3

/-- R152. -/
def SwapKind.code : SwapKind → Nat
  | .cut => 0
  | .curve => 1
  | .manual => 2

/-- R170. -/
def GpiResult.code : GpiResult → Nat
  | .fired => 0
  | .late => 1
  | .missed => 2

/-- Table 11-3, from OK = 00h to TIMEOUT = 15h. -/
def Result.code : Result → Nat
  | .ok => 0
  | .busy => 1
  | .frameError => 2
  | .unknownRequest => 3
  | .badLength => 4
  | .timecodeInvalid => 5
  | .wrongState => 6
  | .noDeck => 7
  | .deckOwned => 8
  | .notChaseable => 9
  | .chaseLoop => 10
  | .listFull => 11
  | .noEvent => 12
  | .activeEvent => 13
  | .eventInvalid => 14
  | .noReference => 15
  | .recordProtected => 16
  | .lineBusy => 17
  | .aborted => 18
  | .naked => 19
  | .lineError => 20
  | .timeout => 21

/-- Table 11-1: a notice is sent with kind C0h plus this (R188). -/
def NoticeKind.code : NoticeKind → Nat
  | .deckPresence => 0
  | .deckStatus => 1
  | .readerState => 2
  | .chaseState => 3
  | .gpiTrigger => 4
  | .hello => 5
  | .referenceState => 6
  | .editPhase => 7
  | .editEnd => 8
  | .runState => 9
  | .transitionState => 10
  | .leverPickup => 11
  | .silenceStop => 12

/-- R185. -/
def HelloCause.code : HelloCause → Nat
  | .powerOn => 0
  | .resetLine => 1
  | .soft => 2
  | .format => 3

/-- Table 7-5, numbered from 01h; 00h is none (section 12.2). -/
def Reason.code : Reason → Nat
  | .sourceIsRecorder => 1
  | .deckAbsent => 2
  | .notChaseable => 3
  | .notCapable => 4
  | .cueTimeout => 5
  | .rollTimeout => 6
  | .noLock => 7
  | .noTimecode => 8
  | .missedPoint => 9
  | .outTimeout => 10
  | .recordUnconfirmed => 11
  | .deckNak => 12
  | .deckLost => 13
  | .aborted => 14
  | .allStop => 15
  | .silence => 16

/-- Table 9-2 lists a plan's owner as SEQUENCER or LINK. -/
def Owner.planCode : Owner → Nat
  | .sequencer => 0
  | .link => 1

/-- The causes of R160; SWAP carries its kind beside. -/
def TransCause.code : TransCause → Nat
  | .armed => 0
  | .start => 1
  | .lateStart => 2
  | .swap _ => 3
  | .take => 4
  | .held => 5
  | .withdrawn => 6
  | .reset => 7

/-- A deck number, 1 to 6, as it travels. -/
def Deck.num (d : Deck) : Nat := d.val + 1

/-- A master as it travels: 00h HOUSE, 01h to 06h a deck (Table 12-3). -/
def Master.code : Master → Nat
  | .house => 0
  | .deck d => Deck.num d

/-- The sources in the order of Table 9-1. -/
def VideoSource.code : VideoSource → Nat
  | .black => 0
  | .deck d => Deck.num d
  | .bars => 7
  | .aux1 => 8
  | .aux2 => 9

/-- A flag, or the bit of a set: 1 when set. -/
def bit (b : Bool) : Nat := if b then 1 else 0

/-- A set whose members, in listed order, are the flags (R187). -/
def setOf : List Bool → Nat
  | [] => 0
  | b :: bs => bit b + 2 * setOf bs

def Caps.code (c : Caps) : Nat := setOf [c.varispeed, c.record, c.insert, c.ltcOut, c.timeSense]

def Warnings.code (w : Warnings) : Nat :=
  setOf [w.sync, w.ref, w.manual, w.transLate, w.lateOut, w.gpiLate, w.gpiMissed]

/-- The action codes of Table 12-4. -/
def GpiAction.code : GpiAction → Nat
  | .pulse _ => 0
  | .on => 1
  | .off => 2

/-- A PULSE's length, 0 for ON and OFF. -/
def GpiAction.len : GpiAction → Option Nat
  | .pulse n => some n
  | .on => none
  | .off => none

/-- The pattern and direction byte: bits 0 to 4 the pattern, bit 7 reverse (Table 12-4, Table 12-9). -/
def Pattern.code (p : Pattern) : Nat := p.num % 32 + 128 * bit p.rev

/-! ## Values and their layout (R187) -/

/-- n in w bytes, most significant first. -/
def beBytes : Nat → Nat → List Byte
  | 0, _ => []
  | w + 1, n => beBytes w (n / 256) ++ [BitVec.ofNat 8 n]

/-- The number that bytes spell, most significant first. -/
def beNat (bs : List Byte) : Nat := bs.foldl (fun n b => n * 256 + b.toNat) 0

/-- The two's complement number that bytes spell. -/
def beInt (bs : List Byte) : Int :=
  let n := beNat bs
  let m := 256 ^ bs.length
  if 2 * n < m then n else (n : Int) - m

/-- Four bytes hh, mm, ss, ff. -/
def Label.bytes (l : Label) : List Byte :=
  [BitVec.ofNat 8 l.hh, BitVec.ofNat 8 l.mm, BitVec.ofNat 8 l.ss, BitVec.ofNat 8 l.ff]

/-- The bytes of a value in a format, with a clock offset for house instants. -/
def Val.bytes (f : SuiteFormat) (offset : Nat) : Val → List Byte
  | .u w n => beBytes w n
  | .i w z => beBytes w (z % (256 ^ w : Nat)).toNat
  | .lab n => (Label.ofFrame f n).bytes
  | .inst n l => (Label.ofFrame f ((n + offset) % f.dayLen)).bytes ++ beBytes 2 l
  | .raw bs => bs

/-- The label of a value fixed in a format: replies fix their labels when they are made. -/
def Val.fix (f : SuiteFormat) : Val → Val
  | .lab n => .raw (Label.ofFrame f n).bytes
  | v => v

/-- A held frame number, or house instant, of a value brought into a new day and frame (R17, log 43). -/
def Val.reduce (f : SuiteFormat) : Val → Val
  | .lab n => .lab (n % f.dayLen)
  | .inst n l => .inst (n % f.dayLen) (min l f.lpf)
  | v => v

/-- Values one after another. -/
def vCat (parts : List (List Val)) : List Val := parts.flatten

/-- A flag: one byte, 01h for set. -/
def vFlag (b : Bool) : Val := .u 1 (bit b)

/-- An optional value: a presence byte, then the value, or zeros at its full width. -/
def vOpt {α : Type} (o : Option α) (val : α → List Val) (width : Nat) : List Val :=
  match o with
  | some a => .u 1 1 :: val a
  | none => [.u 1 0, .raw (List.replicate width 0)]

/-- An optional unsigned number in w bytes. -/
def vOptU (w : Nat) (o : Option Nat) : List Val := vOpt o (fun n => [.u w n]) w

/-- An optional signed number in w bytes. -/
def vOptI (w : Nat) (o : Option Int) : List Val := vOpt o (fun z => [.i w z]) w

/-- An optional frame number, sent as a label. -/
def vOptLab (o : Option Nat) : List Val := vOpt o (fun n => [.lab n]) 4

/-- A failure reason: one byte, numbered from 01h, 00h for none (section 12.2). -/
def vReason (o : Option Reason) : Val := .u 1 ((o.map Reason.code).getD 0)

/-- An abort cause: an optional value, numbered from 0 in the order of Table 7-5 (R187; section 12.2 counts the failure
reason alone from 01h; log 30). -/
def vCause (o : Option Reason) : List Val := vOptU 1 (o.map fun r => r.code - 1)

/-- Text: a count byte, then its characters. -/
def vText (t : List Byte) : List Val := [.u 1 t.length, .raw t]

/-! ## The control link frame (R188, Table 12-1) -/

/-- The byte that makes the bytes and itself sum to 0 modulo 256. -/
def sumCheck (bs : List Byte) : Byte := -(bs.foldl (· + ·) 0)

/-- A frame: A5h, length, kind, tag, parameters, check. -/
def linkFrame (kind tag : Byte) (params : List Byte) : List Byte :=
  let body := BitVec.ofNat 8 (params.length + 3) :: kind :: tag :: params
  0xA5 :: (body ++ [sumCheck body])

/-- The kind of a reply: the received kind with bit 7 set. -/
def replyKind (k : Byte) : Byte := k ||| 0x80

/-- The frame of a reply. -/
def Reply.frame (f : SuiteFormat) (offset : Nat) (r : Reply) : List Byte :=
  linkFrame r.kind r.tag (r.vals.flatMap (Val.bytes f offset))

/-- The frame of a notice: source, occurrence count, stamp label, content, with tag 0 (R187, R188). -/
def Notice.frame (f : SuiteFormat) (offset : Nat) (n : Notice) : List Byte :=
  linkFrame (BitVec.ofNat 8 (0xC0 + n.kind.code)) 0
    ((Val.u 1 n.source :: Val.u 1 n.count :: Val.lab n.stamp :: n.content).flatMap (Val.bytes f offset))

/-! ## The deck line frame (R48, Table 12-5) -/

/-- The exclusive-or of bytes. -/
def xorAll (bs : List Byte) : Byte := bs.foldl (· ^^^ ·) 0

/-- The code byte of a deck command. -/
def DeckCmd.code : DeckCmd → Byte
  | .identify => 0x10
  | .statusSense => 0x11
  | .timeSense => 0x12
  | .stop => 0x20
  | .play => 0x21
  | .shuttle _ => 0x22
  | .locate _ => 0x23
  | .varispeed _ => 0x24
  | .recordOn _ _ => 0x30
  | .recordOff => 0x31

/-- The data bytes of a deck command; a LOCATE's label is made when it is handed (R49). -/
def DeckCmd.data (f : SuiteFormat) : DeckCmd → List Byte
  | .identify => []
  | .statusSense => []
  | .timeSense => []
  | .stop => []
  | .play => []
  | .shuttle v => (Val.i 2 v).bytes f 0
  | .locate n => (Label.ofFrame f n).bytes
  | .varispeed v => beBytes 2 v
  | .recordOn tracks kind => [tracks.setWidth 8, BitVec.ofNat 8 kind.code]
  | .recordOff => []

/-- The frame of a deck command: length, code, data, check. -/
def DeckCmd.frame (f : SuiteFormat) (c : DeckCmd) : List Byte :=
  let data := c.data f
  let body := BitVec.ofNat 8 (data.length + 2) :: c.code :: data
  body ++ [xorAll body]

/-- Class SENSE (Table 4-1). -/
def DeckCmd.isSense : DeckCmd → Bool
  | .identify => true
  | .statusSense => true
  | .timeSense => true
  | _ => false

/-- Class RECORD (Table 4-1). -/
def DeckCmd.isRecord : DeckCmd → Bool
  | .recordOn _ _ => true
  | .recordOff => true
  | _ => false

/-- Class TRANSPORT (Table 4-1). -/
def DeckCmd.isTransport (c : DeckCmd) : Bool := !c.isSense && !c.isRecord

/-! ## The mixer field record (R191, Table 12-9) -/

/-- The ten bytes of a field record. -/
def fieldRecord (field a b level type pattern : Nat) (preview : Bool) : List Byte :=
  let body := [0x5A, BitVec.ofNat 8 field, BitVec.ofNat 8 a, BitVec.ofNat 8 b] ++ beBytes 2 level ++
    [BitVec.ofNat 8 type, BitVec.ofNat 8 pattern, BitVec.ofNat 8 (bit preview)]
  body ++ [xorAll body]

/-! ## Contents that need no state -/

/-- The content of a HELLO notice (R185). -/
def helloContent (cause : HelloCause) (f : SuiteFormat) (recorder : Deck) (events : Nat) : List Val :=
  [.u 1 cause.code, .u 1 Config.revision, .u 1 f.code, .u 1 (Deck.num recorder), .u 1 events]

/-- The content of a REFERENCE_STATE notice (R24): the new state, then the cause of ABSENT, the jump of LOCKED and the
cause of ACQUIRING, each an optional value (log 30). -/
def refContent (st : RefState) (absent : Option AbsentCause) (jump : Option Int) (acquire : Option AcquireCause) : List Val :=
  vCat [[.u 1 st.code], vOptU 1 (absent.map AbsentCause.code), vOptI 2 jump, vOptU 1 (acquire.map AcquireCause.code)]

end Sys2Proof.Machine
end

