-- ==== Sys2Proof/Machine/Initial.lean ====
section
/-! DEFINITION. The values each block takes at power-on: Tables 2-3, 3-2, 4-9, 5-5, 6-6, 7-6, 8-1, 9-4, 10-2, 11-2, and the
default settings. The other resets are read off these values (Machine/Resets.lean). -/

namespace Sys2Proof.Machine

/-- A timer instant in the exact unit of the frame timer (log 4). -/
def exact (t : Time) : Nat := t * Config.unitsPerNs

/-- The reference unit restarted at t: ACQUIRING, line 1 of frame 0 (Table 2-3). -/
def RefUnit.restart (t : Time) : RefUnit :=
  { st := .acquiring, lineCount := 0, good := 0, pulseAt := t, line := 1, frame := 0, stepAt := exact t, timerFrom := exact t }

/-- The house clock restarted (Table 2-3). -/
def HouseClock.initial : HouseClock := { frame := 0, offset := 0, preset := none }

/-- The frame start and field 1 start of frame 0 at a restart; the house clock takes its own as setting frame 0 (R29, log 5). -/
def Due.initial : Due :=
  { clock := 0, reader := Vector.replicate 6 1, port := Vector.replicate 6 1, chase := Vector.replicate 6 1, seq := 1, gpi := 1
    engine := [{ frame := 0, field2 := false }], mixer := [{ frame := 0, field2 := false }] }

/-- A reader after any reset in format f (Table 3-2); `openFrom` and `halfMax` are of log 13. -/
def Reader.initial (f : SuiteFormat) : Reader :=
  { dec := .searching, openFrom := none, pend := none, est := f.nominalCell, half := none, run := 0, halfRun := 0, halfMax := 0
    window := [], since := 0, rev := none, chain := none, cand := none, bad := 0, noWord := 3, src := .none, mark := none
    dir := .forward, cls := .still, speed := 0, user := 0, good := 0, fly := 0 }

/-- A deck port at power-on (Table 4-9); `replyFrom` and `byteAt` are of log 14. -/
def Port.initial : Port :=
  { enabled := true, presence := .absent, ident := none, flags := none, age := 0, fresh := false, fails := 0, claim := .free
    standing := false, nak := none, line := .idle, flight := none, emerg := none, seqSlot := ⟨none, none⟩, servo := none
    pass := none, poll := none, odd := false, quiet := false, hold := false, attachAt := none, replyFrom := 0, byteAt := 0
    rx := none, stray := none, late := .nothing, tx := [] }

/-- A chase channel in IDLE (Table 5-5), with its serial numbers (log 16). -/
def Channel.idle (lead gen loc : Nat) : Channel :=
  { st := .idle, owner := none, master := none, offset := 0, kind := none, target := none, acked := false, err := none
    speed := none, cond := none, inWin := 0, outWin := 0, seeks := 0, lead := lead, roll := 0, fault := none, gen := gen
    loc := loc, relocate := false, replay := false }

/-- The event list at power-on (Table 6-6). -/
def EventList.initial : EventList := { events := [], low := 1, high := 999, ptr := 1, active := none }

/-- The empty warning set. -/
def Warnings.empty : Warnings :=
  { sync := false, ref := false, manual := false, transLate := false, lateOut := false, gpiLate := false, gpiMissed := false }

/-- The edit context in IDLE (Table 7-6). -/
def Edit.idle : Edit :=
  { active := none, mode := none, phase := .idle, involved := [], srcA := none, srcB := none, preroll := 0, margin := 0
    postroll := 0, onDelay := 0, offDelay := 0, playStart := 0, cueR := none, cueA := none, cueB := none
    acked := Vector.replicate 6 false, cued := Vector.replicate 6 false, offA := none, offB := none, syncPassed := false
    stage := .notSent, deadline := 0, stops := [], warns := Warnings.empty, abort := none, failure := none, onFrame := none
    offFrame := none, abortStage := .notSent, relocate := Vector.replicate 6 false, replay := false, offPosted := false }

/-- The run cursor after any reset (Table 8-1). -/
def Run.initial : Run :=
  { st := .idle, first := none, last := none, dir := .forward, mode := none, loop := false, policy := .skipDone
    current := none, hold := none, started := 0, wraps := 0 }

/-- The default routing table (Table 9-1). -/
def defaultRouting : Vector Nat 10 := #v[0, 1, 2, 3, 4, 5, 6, 7, 8, 9]

/-- The transition engine after any reset, with the routing table given (Table 9-4). -/
def Engine.initial (routing : Vector Nat 10) : Engine :=
  { st := .idle, plan := none, prepared := none, form := .curve, k := 0, level := 0, xa := .black, xb := .black
    effect := .mix, cutMark := false, pendCut := false, lever := 0, mapped := 0, inverted := false, pickup := false
    preview := false, live := false, routing := routing }

/-- The mixer line at power-on (Table 9-4). -/
def Mixer.initial : Mixer := { offset := 8, pendOff := none, opened := none, tx := [] }

/-- The GPI unit after any reset (Table 10-2). -/
def Gpi.initial : Gpi := { outs := Vector.replicate 8 { on := false, pulse := none }, sched := [] }

/-- The default settings (R45, Table 5-3, R111). -/
def Settings.initial : Settings :=
  { glitch := 20, flyLimit := 8, coarse := 16, fine := 32, trim := 100, lead := 75, lockWin := 12, lockCount := 5
    unlockWin := 48, seekWin := 250, preroll := 125, syncMargin := 25, postroll := 50, cueTimeout := 1500 }

/-- The notice table after power-on or the reset line: HELLO, then REFERENCE_STATE with cause RESTART, stamped 0 (R185). -/
def startNotices (cause : HelloCause) (events : Nat) : List Notice :=
  [{ kind := .hello, source := 0, content := helloContent cause .f25 0 events, stamp := 0, count := 1 },
   { kind := .referenceState, source := 0, content := refContent .acquiring none none (some .restart), stamp := 0, count := 1 }]

/-- The control link after power-on or the reset line at t (Table 11-2); `byteAt` is of log 14. -/
def Link.initial (cause : HelloCause) (events : Nat) (t : Time) : Link :=
  { rx := .hunting, byteAt := 0, input := [], replies := [], dropped := 0, notices := startNotices cause events, mask := 0
    limit := 2000, restartAt := t, expired := false, stopTaken := false, recorder := 0, resetPending := false, okAhead := 0
    safe := none, tx := [] }

end Sys2Proof.Machine
end

