-- ==== Sys2Proof/Machine/State.lean ====
section
/-! DEFINITION. The state of the E6 and the queue of waiting commands, the reasons a step could stop, and the state after
power-on (R185). -/

namespace Sys2Proof.Machine

/-- The state of the part. -/
structure State where
  /-- The suite format (R1). -/
  fmt      : SuiteFormat
  /-- The crystal instant of the latest timed event: MODEL (log 3). -/
  now      : Time
  /-- The reset line is asserted (R185). -/
  asserted : Bool
  ref      : RefUnit
  clock    : HouseClock
  due      : Due
  readers  : Vector Reader 6
  ports    : Vector Port 6
  chase    : Vector Channel 6
  list     : EventList
  edit     : Edit
  run      : Run
  engine   : Engine
  mixer    : Mixer
  gpi      : Gpi
  link     : Link
  set      : Settings
  /-- The commands that are waiting, first in, first out: MODEL (log 1). -/
  pending  : List Instr
  deriving DecidableEq, Repr

/-- Reasons to stop with a fault: none, for no rule of the spec stops the part. Safe. -/
inductive Fault where
  deriving DecidableEq, Repr

/-- Reasons to refuse a command. -/
inductive Refusal where
  /-- Raised by an arm of exec whose command has no meaning yet. Safe: the machine stops. No arm raises it. -/
  | notModelled (mnemonic : String)
  deriving DecidableEq, Repr

/-- Every block at its power-on values, with the commands given waiting (R185). -/
def State.powerOn (waiting : List Instr) : State :=
  { fmt := .f25, now := 0, asserted := false, ref := RefUnit.restart 0, clock := HouseClock.initial, due := Due.initial
    readers := Vector.replicate 6 (Reader.initial .f25), ports := Vector.replicate 6 Port.initial
    chase := Vector.replicate 6 (Channel.idle Settings.initial.lead 0 0), list := EventList.initial, edit := Edit.idle
    run := Run.initial, engine := Engine.initial defaultRouting, mixer := Mixer.initial, gpi := Gpi.initial
    link := Link.initial .powerOn 0 0, set := Settings.initial, pending := waiting }

/-- The machine right after power-on, with no command waiting. -/
def State.reset : State := State.powerOn []

end Sys2Proof.Machine
end

