-- ==== Sys2Proof/Machine/Flags.lean ====
section
/-! DEFINITION. Flags: the status flags of Table 4-6, the warning set of Table 6-3, the notice mask of R179, the tallies of
R171. -/

namespace Sys2Proof.Machine

/-! ## Status flags: bit n is the nth flag of Table 4-6 (Table 12-6) -/

/-- Status flag i of a port; clear when no flags are held. -/
def Port.flag (p : Port) (i : Nat) : Bool :=
  match p.flags with
  | some f => f.getLsbD i
  | none => false

/-- The flags show PLAYING or RECORDING (R39, R75). -/
def Port.moving (p : Port) : Bool := p.flag 3 || p.flag 4

/-- The fresh mark is set and the flags show CUE_DONE (R79, R116). -/
def Port.parked (p : Port) : Bool := p.fresh && p.flag 6

/-! ## Capabilities -/

/-- The deck has VARISPEED. -/
def Port.hasVarispeed (p : Port) : Bool :=
  match p.ident with
  | some i => i.caps.varispeed
  | none => false

/-- The deck is PRESENT with TIME_SENSE (R41, R42). -/
def Port.hasLineTime (p : Port) : Bool :=
  p.presence == .present && match p.ident with
    | some i => i.caps.timeSense
    | none => false

/-- The stored speed range, or 500 to 1500 (section 4.2.3). -/
def Port.range (p : Port) : Nat × Nat := (p.ident.bind Identity.range).getD (500, 1500)

/-- The play start; 0 without an identity (log 17). -/
def Port.playStart (p : Port) : Nat :=
  match p.ident with
  | some i => i.playStart
  | none => 0

/-- The minimum preroll; 0 without an identity. -/
def Port.minPreroll (p : Port) : Nat :=
  match p.ident with
  | some i => i.minPreroll
  | none => 0

/-- The record-on and record-off delays; 0 without RECORD (R114). -/
def Port.delays (p : Port) : Nat × Nat := (p.ident.bind Identity.delays).getD (0, 0)

/-! ## The notice mask -/

/-- Whether a kind is masked: bit n of the set is the nth kind of Table 11-1. -/
def Link.masked (l : Link) (k : NoticeKind) : Bool := l.mask.getLsbD k.code

/-- The set given with HELLO removed (R179). -/
def maskOf (n : Nat) : BitVec 13 := BitVec.ofNat 13 n &&& ~~~(BitVec.ofNat 13 (2 ^ NoticeKind.hello.code))

/-! ## Tallies -/

/-- Deck d is on line: preview clear, and it is A below level 512 or B from 512 on (R171). -/
def Engine.onLine (e : Engine) (d : Deck) : Bool :=
  !e.preview && if e.level < 512 then e.xa == .deck d else e.xb == .deck d

/-- Tally output d (R171); off while the reset line is asserted (R185). -/
def State.tally (s : State) (d : Deck) : Bool :=
  !s.asserted && (s.ports[d.val].standing || s.engine.onLine d)

/-- The decks in order. -/
def decks : List Deck := [0, 1, 2, 3, 4, 5]

/-- The set of lit tallies as a reply gives it, deck 1 in bit 0: the model's choice (R170, log 30). -/
def State.tallies (s : State) : Nat := setOf (decks.map s.tally)

end Sys2Proof.Machine
end

