-- ==== Sys2Proof/Machine/Operands.lean ====
section
/-! DEFINITION. Operand forms: the parameters of a request, the reply of a deck, the event record (R187, R189, R190,
Tables 12-3 to 12-7, R98). -/

namespace Sys2Proof.Machine

/-! ## Parameters of a request -/

/-- Byte i of a list, 0 beyond its end (parameter counts are judged before any use, R175). -/
def byteN (bs : List Byte) (i : Nat) : Nat := (bs.getD i 0).toNat

/-- The unsigned number in w bytes from byte i. -/
def natAt (bs : List Byte) (i w : Nat) : Nat := beNat ((bs.drop i).take w)

/-- The signed number in w bytes from byte i. -/
def intAt (bs : List Byte) (i w : Nat) : Int := beInt ((bs.drop i).take w)

/-- The label in four bytes from byte i. -/
def labelAt (bs : List Byte) (i : Nat) : Label :=
  { hh := byteN bs i, mm := byteN bs (i + 1), ss := byteN bs (i + 2), ff := byteN bs (i + 3) }

/-- A deck number from 1 to 6. -/
def deckOf (n : Nat) : Option Deck := if h : 1 ≤ n ∧ n ≤ 6 then some ⟨n - 1, by omega⟩ else none

/-- A GPI output number from 1 to 8. -/
def gpiOf (n : Nat) : Option GpiNo := if h : 1 ≤ n ∧ n ≤ 8 then some ⟨n - 1, by omega⟩ else none

/-- A flag byte: 0 is clear and any other value set (R187). -/
def flagAt (bs : List Byte) (i : Nat) : Bool := byteN bs i != 0

/-- A format code (Table 12-3). -/
def SuiteFormat.ofCode : Nat → Option SuiteFormat
  | 0 => some .f25
  | 1 => some .f30
  | 2 => some .f30d
  | _ => none

/-- A mode code (R187). -/
def EditMode.ofCode : Nat → Option EditMode
  | 0 => some .perform
  | 1 => some .preview
  | 2 => some .review
  | _ => none

/-- A direction code (Table 12-3). -/
def Direction.ofCode : Nat → Option Direction
  | 0 => some .forward
  | 1 => some .reverse
  | _ => none

/-- A policy code (Table 12-3). -/
def RunPolicy.ofCode : Nat → Option RunPolicy
  | 0 => some .skipDone
  | 1 => some .all
  | _ => none

/-- A transition type code (Table 12-4). -/
def TransType.ofCode : Nat → Option TransType
  | 0 => some .cut
  | 1 => some .mix
  | 2 => some .wipe
  | _ => none

/-- A curve code (Table 12-4). -/
def Curve.ofCode : Nat → Option Curve
  | 0 => some .linear
  | 1 => some .s
  | _ => none

/-- An edit kind code (Table 12-4). -/
def EditKind.ofCode : Nat → Option EditKind
  | 0 => some .assemble
  | 1 => some .insert
  | _ => none

/-- A source code, in the order of Table 9-1. -/
def VideoSource.ofCode : Nat → Option VideoSource
  | 0 => some .black
  | 7 => some .bars
  | 8 => some .aux1
  | 9 => some .aux2
  | n => (deckOf n).map .deck

/-- An action code with its pulse length (Table 12-4). -/
def GpiAction.ofCode (len : Nat) : Nat → Option GpiAction
  | 0 => some (.pulse len)
  | 1 => some .on
  | 2 => some .off
  | _ => none

/-- An event number within 1 to 999. -/
def eventOk (n : Nat) : Bool := 1 ≤ n && n ≤ 999

/-- The required parameter count of each request kind (Table 12-2, Table 12-3, R187); `some none` where the owner judges it,
`none` where the kind names no request. DECK_COMMAND needs at least its deck and code (log 30). -/
def paramCount (kind : Nat) : Option (Option Nat) :=
  match kind with
  | 0x01 => some (some 0)
  | 0x02 => some (some 4)
  | 0x08 => some (some 2)
  | 0x09 => some (some 2)
  | 0x10 => some none
  | 0x11 => some (some 1)
  | 0x12 => some (some 2)
  | 0x18 => some (some 12)
  | 0x19 => some (some 5)
  | 0x1A => some (some 1)
  | 0x1B => some (some 1)
  | 0x20 => some (some 4)
  | 0x21 => some none
  | 0x22 => some none
  | 0x23 => some (some 3)
  | 0x24 => some (some 4)
  | 0x25 => some (some 0)
  | 0x26 => some (some 4)
  | 0x28 => some (some 7)
  | 0x29 => some (some 3)
  | 0x2A => some (some 0)
  | 0x2B => some (some 0)
  | 0x2C => some (some 0)
  | 0x30 => some (some 8)
  | 0x31 => some (some 0)
  | 0x32 => some (some 0)
  | 0x33 => some (some 0)
  | 0x34 => some (some 0)
  | 0x35 => some (some 0)
  | 0x38 => some (some 10)
  | 0x39 => some (some 6)
  | 0x3A => some (some 2)
  | 0x3B => some (some 0)
  | 0x3C => some (some 0)
  | 0x3D => some (some 2)
  | 0x3E => some (some 0)
  | 0x3F => some (some 1)
  | 0x40 => some (some 4)
  | 0x41 => some (some 0)
  | 0x48 => some (some 1)
  | 0x49 => some (some 1)
  | 0x4A => some (some 2)
  | 0x4B => some (some 2)
  | 0x4C => some (some 0)
  | 0x4D => some (some 0)
  | _ => none

/-- Whether a parameter count fits a kind's layout (R175). -/
def countOk (kind count : Nat) : Bool :=
  match paramCount kind with
  | some (some n) => count == n
  | some none => kind != 0x10 || 2 ≤ count
  | none => false

/-! ## Deck commands of a pass-through (R69, Table 12-5) -/

/-- The number of data bytes of a deck command code, none for a code that names no command. -/
def deckCmdLen (code : Nat) : Option Nat :=
  match code with
  | 0x10 => some 0
  | 0x11 => some 0
  | 0x12 => some 0
  | 0x20 => some 0
  | 0x21 => some 0
  | 0x22 => some 2
  | 0x23 => some 4
  | 0x24 => some 2
  | 0x30 => some 2
  | 0x31 => some 0
  | _ => none

/-- The deck command that a code and data name in a format; the label of a LOCATE is judged apart (R69 check 8). The edit kind
byte of a RECORD_ON is not judged: any value but 0 is read as INSERT, and the request is answered RECORD_PROTECTED by check 4
of R69, not UNKNOWN_REQUEST by R189: the model's choice (log 23). -/
def deckCmdOf (f : SuiteFormat) (code : Nat) (data : List Byte) : Option DeckCmd :=
  match code with
  | 0x10 => some .identify
  | 0x11 => some .statusSense
  | 0x12 => some .timeSense
  | 0x20 => some .stop
  | 0x21 => some .play
  | 0x22 => some (.shuttle (clampInt (-30000) 30000 (intAt data 0 2)))
  | 0x23 => some (.locate ((labelAt data 0).toFrame f))
  | 0x24 => some (.varispeed (natAt data 0 2))
  | 0x30 => some (.recordOn ((data.getD 0 0).setWidth 5) (if byteN data 1 = 0 then .assemble else .insert))
  | 0x31 => some .recordOff
  | _ => none

/-! ## Deck replies (R51, R58, R190) -/

/-- A NAK reason; a byte above 05h is taken as NOT_NOW (R190). -/
def NakReason.ofByte (n : Nat) : NakReason :=
  match n with
  | 0 => .localControl
  | 1 => .noTape
  | 2 => .unknownCommand
  | 3 => .badData
  | 5 => .recordInhibited
  | _ => .notNow

/-- The capability set of byte 1 of an IDENT_REPLY; INSERT is dropped when RECORD is absent (Table 4-7, Table 12-7). -/
def Caps.ofByte (b : Byte) : Caps :=
  { varispeed := b.getLsbD 0, record := b.getLsbD 1, insert := b.getLsbD 2 && b.getLsbD 1, ltcOut := b.getLsbD 3
    timeSense := b.getLsbD 4 }

/-- The fixed part of an IDENT_REPLY (section 12.4). -/
def Caps.fixedLen (c : Caps) : Nat := 5 + (if c.varispeed then 4 else 0) + (if c.record then 2 else 0)

/-- The identity record stored from an IDENT_REPLY's data (R58, Table 4-7, Table 12-7). -/
def identityOf (data : List Byte) : Identity :=
  let caps := Caps.ofByte (data.getD 1 0)
  let afterRange := if caps.varispeed then 9 else 5
  { typeCode := byteN data 0
    model := data.drop caps.fixedLen
    caps := caps
    range := if caps.varispeed
      then some (min 1000 (clamp 500 1500 (natAt data 5 2)), max 1000 (clamp 500 1500 (natAt data 7 2)))
      else none
    minPreroll := clamp 0 750 (natAt data 2 2)
    delays := if caps.record
      then some (clamp 0 15 (byteN data afterRange), clamp 0 15 (byteN data (afterRange + 1)))
      else none
    playStart := clamp 0 60 (byteN data 4) }

/-- The ten flags of a STATUS_REPLY's data; bits 10 to 15 are ignored (R190). -/
def statusOf (data : List Byte) : BitVec 10 := BitVec.ofNat 10 (natAt data 0 2)

/-- The outcome of a complete reply frame (length, code, data, check) to a command (R49, R50, R51, R190). -/
def judgeReply (cmd : DeckCmd) (bad : Bool) (frame : List Byte) : CmdOutcome DataReply :=
  let data := (frame.drop 2).dropLast
  if bad || xorAll frame != 0 then .lineError else
  match byteN frame 1 with
  | 0x80 => if data.length = 0 ∧ cmd.isSense = false then .acked else .lineError
  | 0x81 => if data.length = 1 then .naked (NakReason.ofByte (byteN data 0)) else .lineError
  | 0x82 => if data.length = 2 ∧ cmd = .statusSense then .data (.status (statusOf data)) else .lineError
  | 0x83 => if data.length = 4 ∧ cmd = .timeSense then .data (.time (labelAt data 0)) else .lineError
  | 0x84 =>
    if (Caps.ofByte (data.getD 1 0)).fixedLen ≤ data.length ∧ data.length ≤ 16 ∧ 2 ≤ data.length ∧ cmd = .identify
    then .data (.ident (identityOf data)) else .lineError
  | _ => .lineError

/-! ## The event record (Table 12-4, R96, R98, R102) -/

/-- The bytes of trigger i of a record. -/
def triggerBytes (r : List Byte) (i : Nat) : List Byte := (r.drop (29 + 8 * i)).take 8

/-- The trigger that eight bytes name; a code outside its values falls back, for validation refuses it first. -/
def triggerOf (t : List Byte) : Trigger :=
  { output := (gpiOf (byteN t 0)).getD 0, offset := intAt t 1 3, line := natAt t 4 2
    action := (GpiAction.ofCode (byteN t 7) (byteN t 6)).getD .off }

/-- A trigger's output, line, action and, with PULSE, length lie within their values (Table 6-2). -/
def triggerOk (f : SuiteFormat) (t : List Byte) : Bool :=
  (gpiOf (byteN t 0)).isSome && 1 ≤ natAt t 4 2 && natAt t 4 2 ≤ f.lpf && byteN t 6 ≤ 2 &&
    (byteN t 6 != 0 || (1 ≤ byteN t 7 && byteN t 7 ≤ 25))

/-- The triggers of a record. -/
def triggersOf (r : List Byte) : List (List Byte) := (List.range (byteN r 28)).map (triggerBytes r)

/-- The loaded fields of a record that is valid in format f, absent fields dropped (R96). -/
def fieldsOf (f : SuiteFormat) (r : List Byte) : EventFields :=
  let type := (TransType.ofCode (byteN r 0)).getD .cut
  { type := type
    recIn := (labelAt r 1).toFrame f
    recOut := (labelAt r 5).toFrame f
    a := (deckOf (byteN r 9)).getD 0
    aIn := (labelAt r 10).toFrame f
    b := (deckOf (byteN r 14)).map fun d => { deck := d, inAt := (labelAt r 15).toFrame f }
    t := natAt r 19 3
    d := natAt r 22 2
    curve := (Curve.ofCode (byteN r 24)).getD .linear
    pattern := if type = .wipe then some { num := byteN r 25 % 32, rev := (r.getD 25 0).getLsbD 7 } else none
    tracks := (r.getD 26 0).setWidth 5
    kind := (EditKind.ofCode (byteN r 27)).getD .assemble
    triggers := (triggersOf r).map triggerOf }

/-- The first check of Table 6-4 that a record fails, with the recorder in force. -/
def invalidReason (f : SuiteFormat) (recorder : Deck) (r : List Byte) : Option Invalid :=
  let e := fieldsOf f r
  let span := f.span e.recIn e.recOut
  if !((labelAt r 1).legal f && (labelAt r 5).legal f && (labelAt r 10).legal f
      && (byteN r 14 == 0 || (labelAt r 15).legal f)) then some .timecodeInvalid
  else if !(byteN r 0 ≤ 2 && (deckOf (byteN r 9)).isSome && byteN r 14 ≤ 6 && natAt r 19 3 ≤ f.halfDay
      && natAt r 22 2 ≤ 999 && byteN r 24 ≤ 1 && byteN r 27 ≤ 1) then some .fieldRange
  else if !(byteN r 28 ≤ 4 && (triggersOf r).all (triggerOk f)) then some .triggerRange
  else if !(1 ≤ span && span ≤ f.halfDay) then some .spanRange
  else if e.b.any (fun b => b.deck == e.a) then some .sameSource
  else if e.a == recorder || e.b.any (fun b => b.deck == recorder) then some .sourceIsRecorder
  else if e.type != .cut && e.b.isNone then some .noBSource
  else if e.b.isSome && !(if e.type = .cut then e.t ≤ span else e.t + e.d ≤ span) then some .transitionRange
  else if !(e.triggers.all fun t => -750 ≤ t.offset && t.offset ≤ (span : Int) + 750) then some .triggerRange
  else if e.kind == .insert && e.tracks == 0 then some .noTracks
  else none

/-- A load's parameters split into whole records (R102); fuel n is at least the number of records. -/
def splitRecords : Nat → List Byte → Option (List (List Byte))
  | 0, bs => if bs.isEmpty then some [] else none
  | n + 1, bs =>
    if bs.isEmpty then some []
    else if bs.length < 29 then none
    else
      let len := 29 + 8 * byteN bs 28
      if bs.length < len then none else (splitRecords n (bs.drop len)).map (bs.take len :: ·)

/-- The bytes of a record's loaded fields in the layout of Table 12-4, absent fields 0 (section 12.2). -/
def EventFields.bytes (f : SuiteFormat) (e : EventFields) : List Byte :=
  let lab := fun n => (Label.ofFrame f n).bytes
  [BitVec.ofNat 8 e.type.code] ++ lab e.recIn ++ lab e.recOut ++ [BitVec.ofNat 8 (Deck.num e.a)] ++ lab e.aIn ++
    (match e.b with
      | some b => BitVec.ofNat 8 (Deck.num b.deck) :: lab b.inAt
      | none => [0, 0, 0, 0, 0]) ++
    beBytes 3 e.t ++ beBytes 2 e.d ++ [BitVec.ofNat 8 e.curve.code,
      BitVec.ofNat 8 ((e.pattern.map Pattern.code).getD 0), e.tracks.setWidth 8, BitVec.ofNat 8 e.kind.code,
      BitVec.ofNat 8 e.triggers.length] ++
    e.triggers.flatMap fun t =>
      [BitVec.ofNat 8 (t.output.val + 1)] ++ (Val.i 3 t.offset).bytes f 0 ++ beBytes 2 t.line ++
        [BitVec.ofNat 8 t.action.code, BitVec.ofNat 8 (t.action.len.getD 0)]

end Sys2Proof.Machine
end

