-- ==== Sys2Proof/Machine/Ops.lean ====
section
/-! DEFINITION. Operations every block uses: one port, reader or channel of six; the frame of a command's step; house time and
positions; notices; replies and the taking of requests. -/

namespace Sys2Proof.Machine

/-! ## One of six -/

def State.port (s : State) (d : Deck) : Port := s.ports[d.val]

def State.setPort (s : State) (d : Deck) (p : Port) : State := { s with ports := s.ports.set d.val p }

def State.reader (s : State) (d : Deck) : Reader := s.readers[d.val]

def State.setReader (s : State) (d : Deck) (r : Reader) : State := { s with readers := s.readers.set d.val r }

def State.chan (s : State) (d : Deck) : Channel := s.chase[d.val]

def State.setChan (s : State) (d : Deck) (c : Channel) : State := { s with chase := s.chase.set d.val c }

/-- The recorder (R183). -/
def State.recorder (s : State) : Deck := s.link.recorder

/-! ## The frame of a step -/

/-- The outcome of a command: while the reset line is asserted, no effect (R185, log 10). -/
def running (s : State) (f : State → State) : Host.Outcome State Fault Refusal := .next (if s.asserted then s else f s)

/-- The crystal instant of a timed event has come (log 3). -/
def State.tick (s : State) (t : Time) : State := { s with now := max s.now t }

/-- A timed event: its instant has come, then its effect (log 3). -/
def timed (s : State) (t : Time) (f : State → State) : Host.Outcome State Fault Refusal := running s fun s => f (s.tick t)

/-- A safe stop is in progress: the sequencer and the channels test and post nothing (R184). -/
def State.safeStop (s : State) : Bool := s.link.safe.isSome

/-! ## House time (R14, R25) -/

/-- The house instant now, in lines. -/
def State.house (s : State) : Nat := s.fmt.position s.ref.frame s.ref.line

/-- The reference frame of the first of k frame starts owed to a block (log 5). -/
def State.startFrame (s : State) (k : Nat) : Nat := s.fmt.addFrames s.ref.frame (1 - (k : Int))

/-- The house instant of that frame start: its line 1. -/
def State.startInstant (s : State) (k : Nat) : Nat := s.startFrame k * s.fmt.lpf

/-- The house frame number of that frame start, as the clock has it or will have it (R26, R27, R28, log 5). -/
def State.clockAt (s : State) (k : Nat) : Nat :=
  match s.clock.preset with
  | some p => if 0 < s.due.clock ∧ k ≤ s.due.clock then s.fmt.addFrames p (s.due.clock - k : Nat)
    else s.fmt.addFrames (s.startFrame k) s.clock.offset
  | none => s.fmt.addFrames (s.startFrame k) s.clock.offset

/-! ## Positions (R39) -/

/-- The extrapolated position of deck d's record at house instant t. -/
def State.extrap (s : State) (d : Deck) (t : Nat) : Option Nat :=
  let r := s.reader d
  let f := s.fmt
  match r.src, r.mark with
  | .none, _ => none
  | _, none => none
  | .line, some m =>
    some (if (s.port d).moving then f.addLines (m.frame * f.lpf) (f.dLines t m.stamp) else m.frame * f.lpf)
  | _, some m =>
    some (match r.dir with
      | .forward => f.addLines ((m.frame + 1) * f.lpf) (f.dLines t m.stamp)
      | .reverse => f.addLines (m.frame * f.lpf) (-(f.dLines t m.stamp)))

/-- The extrapolated frame. -/
def State.extrapFrame (s : State) (d : Deck) (t : Nat) : Option Nat := (s.extrap d t).map (· / s.fmt.lpf)

/-- The recorder frame at house instant t (section 7.1). -/
def State.recFrame (s : State) (t : Nat) : Option Nat := s.extrapFrame s.recorder t

/-- The recorder frame now. -/
def State.recNow (s : State) : Option Nat := s.recFrame s.house

/-- A position sent as a label and a line (R14). -/
def vPosition (f : SuiteFormat) (p : Nat) : List Val := [.lab (p / f.lpf), .u 2 (p % f.lpf + 1)]

/-- A house instant in lines, sent as a house label and line (R187). -/
def vInstant (f : SuiteFormat) (p : Nat) : List Val := [.inst (p / f.lpf) (p % f.lpf + 1)]

/-! ## Notices (R177) -/

/-- The table after an entry of a pair with content and stamp. -/
def noticeEnter (kind : NoticeKind) (source : Nat) (content : List Val) (stamp : Nat) : List Notice → List Notice
  | [] => [{ kind, source, content, stamp, count := 1 }]
  | n :: ns =>
    if n.kind = kind ∧ n.source = source then { n with content, stamp, count := sat8 (n.count + 1) } :: ns
    else n :: noticeEnter kind source content stamp ns

/-- A block enters a notice; a masked kind is not entered (R177, R179). -/
def State.enter (s : State) (kind : NoticeKind) (source : Nat) (content : List Val) : State :=
  if s.link.masked kind then s
  else { s with link := { s.link with notices := noticeEnter kind source content s.clock.frame s.link.notices } }

/-! ## Replies (R175, R176) -/

/-- A reply joins the waiting replies; its labels are made here (R187). -/
def State.reply (s : State) (kind tag : Byte) (vals : List Val) : State :=
  { s with link := { s.link with
      replies := s.link.replies ++ [{ kind := replyKind kind, tag := tag, vals := vals.map (Val.fix s.fmt) }] } }

/-- The value of a result code. -/
def vResult (r : Result) : Val := .u 1 r.code

/-- A command passed through by the host. -/
def Origin.isPass : Origin → Bool
  | .pass _ _ => true
  | .emergencyOff => false
  | .emergencyStop _ _ => false
  | .sequencer => false
  | .servo _ _ => false
  | .poll => false

/-- The places reserved on one port: its PASS command waiting and in flight (R175). -/
def Port.reserved (p : Port) : Nat := bit p.pass.isSome + bit (p.flight.any fun f => f.origin.isPass)

/-- The places held in the reply queue (R176). -/
def State.places (s : State) : Nat := s.link.replies.length + (decks.map fun d => (s.port d).reserved).sum

/-- A BUSY or FRAME_ERROR reply: entered when a place is free, else counted as dropped (R176). -/
def State.linkReply (s : State) (kind tag : Byte) (r : Result) : State :=
  if s.places < 16 then s.reply kind tag [vResult r]
  else { s with link := { s.link with dropped := sat16 (s.link.dropped + 1) } }

/-- OK with values, answering a request. -/
def State.ok (s : State) (r : Request) (vals : List Val) : State := s.reply r.kind r.tag (vResult .ok :: vals)

/-- A refusal, answering a request. -/
def State.refuse (s : State) (r : Request) (x : Result) : State := s.reply r.kind r.tag [vResult x]

/-- The request at the head of the queue can be handed on: a place is free for its reply (R175). -/
def State.head (s : State) : Option Request := if s.places < 16 then s.link.input.head? else none

/-- The head request leaves the queue. -/
def State.dropHead (s : State) : State := { s with link := { s.link with input := s.link.input.tail } }

/-- The owner of a kind takes the request at the head of the queue; a parameter count that does not fit is answered
BAD_LENGTH. Where the head is of another kind, or cannot be handed on, nothing happens (R175, log 9). -/
def takeRequest (kind : Byte) (s : State) (f : Request → State → State) : Host.Outcome State Fault Refusal :=
  running s fun s =>
    match s.head with
    | some r =>
      if r.kind = kind then
        let s := s.dropHead
        if countOk kind.toNat r.params.length then f r s else s.refuse r .badLength
      else s
    | none => s

end Sys2Proof.Machine
end

