-- ==== Sys2Proof/Machine/Reference.lean ====
section
/-! DEFINITION. Chapter 2: the reference unit, the internal frame timer, frame and field starts, the house clock
(R18 to R28). -/

namespace Sys2Proof.Machine

/-! ## Frame and field starts (R25) -/

/-- A frame start and field 1 start of a reference frame are issued: every block owes one (log 5). -/
def Due.frameStart (d : Due) (frame : Nat) : Due :=
  { clock := d.clock + 1, reader := d.reader.map (· + 1), port := d.port.map (· + 1), chase := d.chase.map (· + 1)
    seq := d.seq + 1, gpi := d.gpi + 1, engine := d.engine ++ [{ frame, field2 := false }]
    mixer := d.mixer ++ [{ frame, field2 := false }] }

/-- A field 2 start of a reference frame is issued. -/
def Due.field2Start (d : Due) (frame : Nat) : Due :=
  { d with engine := d.engine ++ [{ frame, field2 := true }], mixer := d.mixer ++ [{ frame, field2 := true }] }

/-- A house frame start: line 1 of the next reference frame (R25). -/
def State.frameStart (s : State) : State :=
  let n := s.fmt.addFrames s.ref.frame 1
  { s with ref := { s.ref with line := 1, frame := n }, due := s.due.frameStart n }

/-- The house line becomes the next line of the frame, which may be the first of field 2 (R25). -/
def State.nextLine (s : State) : State :=
  let l := s.ref.line + 1
  let s := { s with ref := { s.ref with line := l } }
  if l = s.fmt.firstLine true then { s with due := s.due.field2Start s.ref.frame } else s

/-! ## Reference states -/

/-- The sequencer's edit is past CLAIM (R126). -/
def Edit.running (e : Edit) : Bool := e.phase != .idle && e.phase != .claim

/-- A warning reported while an edit lasts (R126); in a safe stop the sequencer ignores the report (R184). -/
def State.warn (s : State) (f : Warnings → Warnings) : State :=
  if s.edit.running ∧ ¬s.safeStop then { s with edit := { s.edit with warns := f s.edit.warns } } else s

/-- REF_WARNING when the reference leaves LOCKED during an edit (R126). -/
def State.refLost (s : State) : State := s.warn fun w => { w with ref := true }

/-- ACQUIRING or LOCKED is left for ABSENT; after LOCKED the timer's first step is due one line period after the latest
house line step, at once when that has passed (R20, R21, R22). -/
def State.goAbsent (s : State) (t : Time) (c : AbsentCause) : State :=
  let wasLocked := s.ref.st == .locked
  let s := { s with ref := { s.ref with
    st := .absent
    good := if wasLocked then s.ref.good else 0
    stepAt := if wasLocked then max s.ref.stepAt (exact t - s.fmt.linePeriod) else s.ref.stepAt } }
  let s := s.enter .referenceState 0 (refContent .absent (some c) none none)
  if wasLocked then s.refLost else s

/-- The pulse instant is recorded and the line count set to 1. -/
def State.openFrame (s : State) (t : Time) : State :=
  { s with ref := { s.ref with lineCount := 1, pulseAt := t } }

/-- The realignment jump in lines (Table 2-2). -/
def realignJump (f : SuiteFormat) (line : Nat) : Int :=
  if f.inField2 line then (f.lpf : Int) - line + 1 else 1 - (line : Int)

/-- LOCKED is entered with the realignment of R23: field 1 goes back to line 1 of the frame, field 2 on to the next frame. The
frame start of a forward realignment is issued at the pulse that enters the REFERENCE_STATE notice, and the spec gives no order
between the two; the notice carries the house frame number from before the house clock takes that frame start, the model's
choice (log 61). -/
def State.lock (s : State) (t : Time) : State :=
  let jump := realignJump s.fmt s.ref.line
  let s := { s with ref := { s.ref with st := .locked, stepAt := exact t, timerFrom := exact t } }
  let s := if s.fmt.inField2 s.ref.line then s.frameStart else { s with ref := { s.ref with line := 1 } }
  s.enter .referenceState 0 (refContent .locked none (some jump) none)

/-- A taken line pulse (R18 to R21). In ABSENT, and in ACQUIRING before the first taken frame pulse, it is not judged
(R19, R29); in ABSENT it is counted, without effect. The pulse that would raise the count past Lpf is not itself counted: the
count stays at Lpf when the unit goes to ABSENT, where R18 has each taken line pulse raise it and R20 and R21 say 'would raise':
the model's choice (log 26). -/
def State.takeLine (s : State) (t : Time) : State :=
  match s.ref.st with
  | .absent => { s with ref := { s.ref with lineCount := s.ref.lineCount + 1 } }
  | .acquiring =>
    if s.ref.lineCount = 0 then s
    else if s.fmt.lpf < s.ref.lineCount + 1 then s.goAbsent t .lineCount
    else { s with ref := { s.ref with lineCount := s.ref.lineCount + 1 } }
  | .locked =>
    if s.fmt.lpf < s.ref.lineCount + 1 then s.goAbsent t .lineCount
    else
      let s := s.nextLine
      { s with ref := { s.ref with lineCount := s.ref.lineCount + 1, stepAt := exact t } }

/-- A taken frame pulse (R19 to R21, R29). -/
def State.takeFrame (s : State) (t : Time) : State :=
  match s.ref.st with
  | .absent =>
    let s := s.openFrame t
    let s := { s with ref := { s.ref with st := .acquiring, good := 0 } }
    s.enter .referenceState 0 (refContent .acquiring none none (some .pulse))
  | .acquiring =>
    if s.ref.lineCount = 0 then s.openFrame t
    else if s.ref.lineCount = s.fmt.lpf then
      let s := s.openFrame t
      let s := { s with ref := { s.ref with good := s.ref.good + 1 } }
      if s.ref.good < 4 then s else s.lock t
    else (s.openFrame t).goAbsent t .lineCount
  | .locked =>
    if s.ref.lineCount = s.fmt.lpf then
      let s := s.openFrame t
      let s := s.frameStart
      { s with ref := { s.ref with stepAt := exact t, timerFrom := exact t } }
    else (s.openFrame t).goAbsent t .lineCount

/-- FRAME_PULSE: field identification showing field 2 makes the pulse a line pulse (R18). -/
def execFramePulse (field2 : Bool) (t : Time) (s : State) : Host.Outcome State Fault Refusal :=
  timed s t fun s => if field2 then s.takeLine t else s.takeFrame t

/-- LINE_PULSE (R18, R21). -/
def execLinePulse (t : Time) (s : State) : Host.Outcome State Fault Refusal := timed s t fun s => s.takeLine t

/-- NO_PULSE_TIMEOUT: in ACQUIRING, three nominal frame periods since the last taken frame pulse or the restart (R20). -/
def execNoPulseTimeout (t : Time) (s : State) : Host.Outcome State Fault Refusal :=
  timed s t fun s =>
    if s.ref.st = .acquiring ∧ exact s.ref.pulseAt + 3 * s.fmt.framePeriod ≤ exact t then s.goAbsent t .noPulse else s

/-- LATE_PULSE_TIMEOUT: in LOCKED, one frame and one line period since the last house frame start (R21, log 12). -/
def execLatePulseTimeout (t : Time) (s : State) : Host.Outcome State Fault Refusal :=
  timed s t fun s =>
    if s.ref.st = .locked ∧ s.ref.timerFrom + s.fmt.framePeriod + s.fmt.linePeriod ≤ exact t then s.goAbsent t .latePulse
    else s

/-- The internal frame timer steps the house line, keeping its exact instant (R22). -/
def State.timerStep (s : State) : State :=
  let at' := s.ref.stepAt + s.fmt.linePeriod
  if s.ref.line < s.fmt.lpf then
    let s := s.nextLine
    { s with ref := { s.ref with stepAt := at' } }
  else
    let s := s.frameStart
    { s with ref := { s.ref with stepAt := at', timerFrom := at' } }

/-- TIMER_LINE_STEP: in ABSENT or ACQUIRING, one nominal line period after the latest step (R22). -/
def execTimerLineStep (t : Time) (s : State) : Host.Outcome State Fault Refusal :=
  timed s t fun s =>
    if s.ref.st ≠ .locked ∧ s.ref.stepAt + s.fmt.linePeriod ≤ exact t then s.timerStep else s

/-! ## The house clock -/

/-- The house clock takes the first frame start it owes (R26, R27). R27 has a preset take effect at the next frame start, and does
not say which one that is for a preset stored after a frame start was issued and before the house clock has taken it. It is that
one, the first that the clock takes afterwards: the model's choice (DESIGN CHOICE, log 63). -/
def State.clockStep (s : State) : State :=
  let n := s.startFrame s.due.clock
  let clock := match s.clock.preset with
    | some p => { frame := p, offset := s.fmt.addFrames p (-(n : Int)), preset := none }
    | none => { s.clock with frame := s.fmt.addFrames s.clock.frame 1 }
  { s with clock := clock, due := { s.due with clock := s.due.clock - 1 } }

/-- HOUSE_CLOCK_FRAME_START (R26). -/
def execHouseClockFrameStart (s : State) : Host.Outcome State Fault Refusal :=
  running s fun s => if 0 < s.due.clock then s.clockStep else s

/-- GET_REFERENCE (R28): the line and the number of one frame. -/
def execGetReference (s : State) : Host.Outcome State Fault Refusal :=
  takeRequest 0x01 s fun r s =>
    s.ok r [.u 1 s.ref.st.code, .lab (s.clockAt 1), .u 1 (if s.fmt.inField2 s.ref.line then 2 else 1), .u 2 s.ref.line]

/-- SET_HOUSE_TIME (R27). -/
def execSetHouseTime (s : State) : Host.Outcome State Fault Refusal :=
  takeRequest 0x02 s fun r s =>
    let l := labelAt r.params 0
    if l.legal s.fmt then
      let n := l.toFrame s.fmt
      { s with clock := { s.clock with preset := some n } }.ok r [.lab n]
    else s.refuse r .timecodeInvalid

end Sys2Proof.Machine
end

