-- ==== Sys2Proof/Machine/Readers.lean ====
section
/-! DEFINITION. Chapter 3: the timecode readers (R30 to R46). The bit window is held latest bit first. -/

namespace Sys2Proof.Machine

/-! ## From intervals to bits (R31 to R33) -/

/-- Classes of an interval (R31). -/
inductive IntervalClass where
  | half | full | overLong
  deriving DecidableEq, Repr

/-- The class of an interval of m ns against the estimate (R31). -/
def classify (est m : Nat) : IntervalClass :=
  if 4 * m < 3 * est then .half else if 2 * m ≤ 3 * est then .full else .overLong

/-- A cell estimate within its range (R32). -/
def clampEst (n : Nat) : Nat := clamp 40000 5000000 n

/-- The estimate after a full interval or half pair of m ns (R32). -/
def newEst (est m : Nat) : Nat := clampEst ((3 * est + m) / 4)

/-- A word taken: its 80 cells in forward order, and its direction (R34). -/
structure TakenWord where
  cells : List Bool
  dir   : Direction
  deriving DecidableEq, Repr

/-- The forward sync pattern as the latest sixteen bits, latest first (section 3.3). -/
def syncForward : List Bool := [true, false] ++ List.replicate 12 true ++ [false, false]

/-- The reversed sync pattern as the latest sixteen bits, latest first (section 3.3). -/
def syncReverse : List Bool := [false, false] ++ List.replicate 12 true ++ [false, true]

/-- A bit decoded in READING (R34). -/
def Reader.readBit (r : Reader) (b : Bool) : Reader × Option TakenWord :=
  let w := (b :: r.window).take 80
  let n := min 80 (r.since + 1)
  let r := { r with window := w, since := n }
  match r.rev with
  | some k =>
    if k ≤ 1 then ({ r with rev := none, since := 0 }, some { cells := w, dir := .reverse })
    else ({ r with rev := some (k - 1) }, none)
  | none =>
    if w.take 16 = syncForward ∧ 80 ≤ n then ({ r with since := 0 }, some { cells := w.reverse, dir := .forward })
    else if w.take 16 = syncReverse then ({ r with rev := some 64 }, none)
    else (r, none)

/-- A bit decoded in SEARCHING; the sixteenth of a run gains bit sync (R33). -/
def Reader.searchBit (r : Reader) (b : Bool) : Reader :=
  let w := (b :: r.window).take 80
  let r := { r with window := w, run := r.run + 1 }
  if r.run < 16 then r
  else { r with dec := .reading, window := w.take 16, since := 16, rev := none, run := 0, halfRun := 0, halfMax := 0 }

/-- A bit decoded in either state. -/
def Reader.bitIn (r : Reader) (b : Bool) : Reader × Option TakenWord :=
  match r.dec with
  | .reading => r.readBit b
  | .searching => (r.searchBit b, none)

/-- SEARCHING with the window, the word in progress, the pending half and the counts dropped (R31). -/
def Reader.search (r : Reader) : Reader :=
  { r with dec := .searching, window := [], since := 0, rev := none, half := none, run := 0, halfRun := 0, halfMax := 0 }

/-- A half is counted in SEARCHING with the largest of the half-run (R33). -/
def Reader.countHalf (r : Reader) (m : Nat) : Reader :=
  match r.dec with
  | .reading => r
  | .searching => { r with halfRun := r.halfRun + 1, halfMax := max r.halfMax m }

/-- A released interval of m ns (R31, R33). -/
def Reader.interval (r : Reader) (m : Nat) : Reader × Option TakenWord :=
  match classify r.est m with
  | .overLong => ({ r.search with est := clampEst m }, none)
  | .full =>
    let est := newEst r.est m
    match r.half with
    | some _ => ({ r.search with est := est, run := 1, window := [false] }, none)
    | none => { r with est := est, halfRun := 0, halfMax := 0 }.bitIn false
  | .half =>
    let r := r.countHalf m
    if 40 ≤ r.halfRun then ({ r.search with est := clampEst r.halfMax }, none)
    else match r.half with
      | some h => { r with est := newEst r.est (h + m), half := none }.bitIn true
      | none => ({ r with half := some m }, none)

/-! ## Words (R35) -/

/-- The number in w cells from cell i, least significant first (Table 12-8). -/
def cellNat (cells : List Bool) (i w : Nat) : Nat := setOf ((cells.drop i).take w)

/-- The label that a word's digits spell (Table 12-8). -/
def wordLabel (c : List Bool) : Label :=
  { hh := cellNat c 28 2 * 10 + cellNat c 24 4, mm := cellNat c 20 3 * 10 + cellNat c 16 4
    ss := cellNat c 12 3 * 10 + cellNat c 8 4, ff := cellNat c 4 2 * 10 + cellNat c 0 4 }

/-- The four checks of R35. -/
def wordOk (f : SuiteFormat) (c : List Bool) : Bool :=
  cellNat c 24 4 ≤ 9 && cellNat c 16 4 ≤ 9 && cellNat c 8 4 ≤ 9 && cellNat c 0 4 ≤ 9 &&
    cellNat c 28 2 ≤ 2 && cellNat c 20 3 ≤ 5 && cellNat c 12 3 ≤ 5 && cellNat c 4 2 ≤ 2 &&
    (wordLabel c).legal f && c.getD 6 false == (f == .f30d)

/-- The good word that a taken word is, with its stamp. -/
def TakenWord.word (f : SuiteFormat) (stamp : Nat) (w : TakenWord) : Word :=
  { frame := (wordLabel w.cells).toFrame f, dir := w.dir, stamp := stamp, user := BitVec.ofNat 32 (cellNat w.cells 32 32) }

/-! ## Acceptance (R36 to R38) -/

/-- One frame on in a direction (R37, R40). -/
def SuiteFormat.along (f : SuiteFormat) (n : Nat) (d : Direction) : Nat :=
  match d with
  | .forward => f.addFrames n 1
  | .reverse => f.addFrames n (-1)

/-- The speed magnitude at an estimate (R36, R15). -/
def speedOf (f : SuiteFormat) (est : Nat) : Nat := roundHalfUp (1000 * f.nominalCell) est

/-- The class of a speed magnitude (R36). -/
def classOf (v : Nat) : SpeedClass := if v < 900 then .slow else if v ≤ 1100 then .play else .fast

/-- A good word sets speed, class and the count of frames without a word (R36). -/
def Reader.motion (f : SuiteFormat) (r : Reader) (d : Direction) : Reader :=
  let v := speedOf f r.est
  { r with speed := (match d with | .forward => (v : Int) | .reverse => -(v : Int)), cls := classOf v, noWord := 0 }

/-- The content of a READER_STATE notice (R44). -/
def Reader.noticeContent (r : Reader) (old : Source) (cause : ReaderCause) : List Val :=
  vCat [[.u 1 r.src.code, .u 1 old.code, .u 1 cause.code], vOptLab (r.mark.map Mark.frame),
    [.u 1 r.dir.code, .u 1 r.cls.code, .u 1 r.fly, .u 2 r.bad]]

/-- A reader's new record; a change of source enters a READER_STATE notice (R44). -/
def State.readerSource (s : State) (d : Deck) (r : Reader) (cause : ReaderCause) : State :=
  let old := (s.reader d).src
  let s := s.setReader d r
  if r.src = old then s else s.enter .readerState (Deck.num d) (r.noticeContent old cause)

/-- An accepted word updates the position record of a PRESENT deck (R38). -/
def State.acceptRecord (s : State) (d : Deck) (w : Word) : State :=
  if (s.port d).presence = .present then
    let r := { s.reader d with
      mark := some { frame := w.frame, stamp := w.stamp }, dir := w.dir, user := w.user, fly := 0, src := .ltc }
    s.readerSource d r .word
  else s

/-- A good word: motion, then acceptance as consecutive, as flywheel correction, by confirmation, or as candidate
(R36, R37). -/
def State.goodWord (s : State) (d : Deck) (w : Word) : State :=
  let f := s.fmt
  let r := (s.reader d).motion f w.dir
  let taken (good : Nat) : State :=
    (s.setReader d { r with
      chain := some { frame := w.frame, dir := w.dir, synth := false }, cand := none, good := good }).acceptRecord d w
  if r.chain.any (fun c => w.frame == f.along c.frame w.dir) then taken (sat16 (r.good + 1))
  else if r.chain.any (fun c => c.synth && w.frame == c.frame && w.dir == c.dir) then taken (sat16 (r.good + 1))
  else if r.cand.any (fun c => w.frame == f.along c.frame w.dir) then taken 2
  else s.setReader d { r with cand := some w, good := 0 }

/-- A word taken under R34 is checked and counted, or passed on (R35). -/
def State.takeWord (s : State) (d : Deck) (w : TakenWord) (stamp : Nat) : State :=
  if wordOk s.fmt w.cells then s.goodWord d (w.word s.fmt stamp)
  else
    let r := s.reader d
    s.setReader d { r with bad := sat16 (r.bad + 1), good := 0 }

/-! ## Transitions (R30) -/

/-- The pending interval is released for classification; the word it may complete ends at its closing transition. -/
def State.release (s : State) (d : Deck) (i : Interval) : State :=
  let x := (s.reader d).interval i.len
  let s := s.setReader d x.1
  match x.2 with
  | some w => s.takeWord d w i.house
  | none => s

/-- A transition at input d at t (R30). -/
def State.transition (s : State) (d : Deck) (t : Time) : State :=
  let r := s.reader d
  match r.openFrom with
  | none => s.setReader d { r with openFrom := some t }
  | some o =>
    if t - o < s.set.glitch * 1000 then
      match r.pend with
      | some p => s.setReader d { r with openFrom := some (p.closedAt - p.len), pend := none }
      | none => s.setReader d { r with openFrom := none }
    else
      let next : Interval := { len := t - o, closedAt := t, house := s.house }
      let s := match r.pend with
        | some p => s.release d p
        | none => s
      s.setReader d { s.reader d with openFrom := some t, pend := some next }

/-- TC_TRANSITION (R30 to R38). -/
def execTcTransition (d : Deck) (t : Time) (s : State) : Host.Outcome State Fault Refusal :=
  timed s t fun s => s.transition d t

/-- BIT_SYNC_TIMEOUT: READING, and more than 1.5 estimates since the closing transition of the pending interval (R31). With no
interval pending (a glitch has merged it) no closing transition times the loss, and none is declared until later transitions
come: the model's choice (log 13). "It is then judged at that moment" can be read of the loss or of the pending interval: the
model judges the loss, and drops the pending interval unclassified, so that it completes no word: the model's choice (log
13). -/
def execBitSyncTimeout (d : Deck) (t : Time) (s : State) : Host.Outcome State Fault Refusal :=
  timed s t fun s =>
    let r := s.reader d
    match r.dec, r.pend with
    | .reading, some p => if 3 * r.est < 2 * (t - p.closedAt) then s.setReader d { r.search with pend := none } else s
    | _, _ => s

/-! ## The frame-start tests (R40, R41) -/

/-- The source is LTC or FLYWHEEL. -/
def Source.isLtc : Source → Bool
  | .ltc => true
  | .flywheel => true
  | .line => false
  | .none => false

/-- LTC is lost at the frame start at t: line time where the deck gives it, else no position (R41). The count of consecutive good
words is kept: no rule zeroes it here, though Table 3-5 shows it 0 before the recovery. The model's choice (DESIGN CHOICE, log
66). -/
def State.loseLtc (s : State) (d : Deck) (t : Nat) (cause : ReaderCause) : State :=
  let r := s.reader d
  let f := s.fmt
  match s.extrap d t with
  | some p =>
    if (s.port d).hasLineTime then
      let m : Mark := { frame := p / f.lpf, stamp := f.addLines t (-((p % f.lpf : Nat) : Int)) }
      s.readerSource d { r with src := .line, mark := some m, dir := .forward } cause
    else s.readerSource d { r with src := .none } cause
  | none => s.readerSource d { r with src := .none } cause

/-- Whether the flywheel supplies a word at the frame start at t (R40 step 1). -/
def State.overdue (s : State) (d : Deck) (t : Nat) : Bool :=
  let r := s.reader d
  r.src.isLtc && r.cls == .play && r.mark.any (fun m => (s.fmt.lpf : Int) + 64 < s.fmt.dLines t m.stamp)

/-- The flywheel synthesises one word (R40). The count of consecutive good words is kept: no rule zeroes it here, though Table 3-5
shows it 0 after a carry and a loss. The model's choice (DESIGN CHOICE, log 66). -/
def State.flywheel (s : State) (d : Deck) (m : Mark) : State :=
  let r := s.reader d
  let f := s.fmt
  let n := f.along m.frame r.dir
  s.readerSource d { r with
    mark := some { frame := n, stamp := f.addLines m.stamp f.lpf }, chain := some { frame := n, dir := r.dir, synth := true }
    fly := r.fly + 1, noWord := 0, src := .flywheel } .flywheel

/-- The stillness test (R40 step 2). -/
def State.stillness (s : State) (d : Deck) (t : Nat) : State :=
  let r := s.reader d
  let n := min 3 (r.noWord + 1)
  if n < 3 then s.setReader d { r with noWord := n }
  else
    let s := s.setReader d { r with noWord := n, cls := .still }
    if r.src.isLtc then s.loseLtc d t .still else s

/-- The tests of reader d at the frame start at t (R40). -/
def State.readerTests (s : State) (d : Deck) (t : Nat) : State :=
  let r := s.reader d
  match r.mark with
  | some m =>
    if s.overdue d t then
      if r.fly < s.set.flyLimit then s.flywheel d m else (s.loseLtc d t .limit).stillness d t
    else if r.src = .flywheel ∧ r.cls ≠ .play then (s.loseLtc d t .notPlay).stillness d t
    else s.stillness d t
  | none => s.stillness d t

/-- Reader d takes the first frame start it owes. -/
def State.readerStep (s : State) (d : Deck) : State :=
  let k := s.due.reader[d.val]
  { s with due := { s.due with reader := s.due.reader.set d.val (k - 1) } }.readerTests d (s.startInstant k)

/-- READER_FRAME_TESTS (R40). -/
def execReaderFrameTests (d : Deck) (s : State) : Host.Outcome State Fault Refusal :=
  running s fun s => if 0 < s.due.reader[d.val] then s.readerStep d else s

/-- STILL_COUNT_REACHED: the frame-start tests at which the count of frames without a word reaches 3 (R40, log 7). -/
def execStillCountReached (d : Deck) (s : State) : Host.Outcome State Fault Refusal :=
  running s fun s =>
    if 0 < s.due.reader[d.val] ∧ (s.reader d).noWord = 2 ∧ ((s.readerStep d).reader d).noWord = 3 then s.readerStep d else s

/-! ## Line time and presence (R42, R43) -/

/-- A TIME_REPLY's frame number n, with the house instant a of its arrival (R42). -/
def State.readerTime (s : State) (d : Deck) (n a : Nat) : State :=
  let r := s.reader d
  match r.src with
  | .line => s.setReader d { r with mark := some { frame := n, stamp := a } }
  | .none =>
    if (s.port d).hasLineTime then
      s.readerSource d { r with mark := some { frame := n, stamp := a }, dir := .forward, src := .line } .timeReply
    else s
  | .ltc => s
  | .flywheel => s

/-- The deck leaves PRESENT (R43). -/
def State.readerDeckLost (s : State) (d : Deck) : State :=
  s.readerSource d { s.reader d with chain := none, cand := none, src := .none } .deckAbsent

/-! ## Requests (R45, R46) -/

/-- SET_READER_PARAMS (R45). The limit holds for the next tests taken, of a frame start issued before the request too (the model's
choice, log 63). -/
def execSetReaderParams (s : State) : Host.Outcome State Fault Refusal :=
  takeRequest 0x08 s fun r s =>
    let g := clamp 5 100 (byteN r.params 0)
    let l := clamp 0 50 (byteN r.params 1)
    { s with set := { s.set with glitch := g, flyLimit := l } }.ok r [.u 1 g, .u 1 l]

/-- The values of GET_READER (R46). The record's frame and its stamp share one presence byte, and so do label and line of the
extrapolated position: the model's choice (log 30). -/
def State.readerReport (s : State) (d : Deck) : List Val :=
  let r := s.reader d
  vCat [[.u 1 r.dec.code, .u 3 r.est, .i 2 r.speed, .u 1 r.cls.code, .u 1 r.src.code],
    vOpt r.mark (fun m => .lab m.frame :: vInstant s.fmt m.stamp) 10, [.u 1 r.dir.code],
    vOpt (s.extrap d s.house) (vPosition s.fmt) 6, vOptLab (r.cand.map Word.frame),
    [.u 4 r.user.toNat, .u 2 r.good, .u 1 r.fly, .u 2 r.bad]]

/-- GET_READER (R46). -/
def execGetReader (s : State) : Host.Outcome State Fault Refusal :=
  takeRequest 0x09 s fun r s =>
    match deckOf (byteN r.params 0) with
    | none => s.refuse r .noDeck
    | some d =>
      let vals := s.readerReport d
      let s := if flagAt r.params 1 then s.setReader d { s.reader d with bad := 0 } else s
      s.ok r vals

end Sys2Proof.Machine
end

