-- ==== Sys2Proof/Machine/Arbiter.lean ====
section
/-! DEFINITION. The line arbiter: which command goes next, its hand to the line and who is told; the postings to its slots
(R53, R54, R61 to R66, R68, R81, R83, R120, R122, R129). -/

namespace Sys2Proof.Machine

/-! ## The phase of the edit (R134) -/

/-- The content of an EDIT_PHASE notice (R134). The preroll and the recorder cue point, absent together before CUEING, have a
presence byte each: the model's choice (log 30). -/
def Edit.phaseContent (e : Edit) (old : Phase) (frame : Option Nat) : List Val :=
  vCat [[.u 2 ((e.active.map Prod.fst).getD 0), .u 1 ((e.mode.map EditMode.code).getD 0), .u 1 e.phase.code, .u 1 old.code],
    vOptLab frame, vOptU 2 (e.cueR.map fun _ => e.preroll), vOptLab e.cueR, [.u 1 e.stage.code], vCause e.abort]

/-- A change of phase, with its notice (R134). -/
def State.setPhase (s : State) (p : Phase) : State :=
  let old := s.edit.phase
  if old = p then s
  else
    let s := { s with edit := { s.edit with phase := p } }
    s.enter .editPhase 0 (s.edit.phaseContent old s.recNow)

/-- The loaded fields of the active event. -/
def Edit.fields (e : Edit) : Option EventFields := e.active.map Prod.snd

/-- The record-off point: out less the record-off delay (R122). -/
def Edit.offPoint (e : Edit) (f : SuiteFormat) (ev : EventFields) : Nat := f.addFrames ev.recOut (-(e.offDelay : Int))

/-! ## Told of a hand (R53) -/

/-- The sequencer is told that RECORD_ON is handed (R120). With no position of the recorder at the hand the hand frame is absent: the
model's choice (log 58). -/
def State.toldRecordOn (s : State) : State :=
  { s with edit := { s.edit with stage := .onHanded, onFrame := s.recNow } }

/-- Whether RECORD_OFF handed at recorder frame f is late (R122); with no position of the recorder it is not judged late, the
model's choice (log 58). -/
def State.lateOff (s : State) (f : Option Nat) : Bool :=
  match f, s.edit.fields with
  | some n, some ev => 2 ≤ s.fmt.d n (s.edit.offPoint s.fmt ev)
  | _, _ => false

/-- The sequencer is told that its RECORD_OFF is handed: POSTROLL (R122). With no position of the recorder at the hand the hand
frame is absent and LATE_OUT is not added: the model's choice (log 58). -/
def State.toldRecordOff (s : State) : State :=
  let f := s.recNow
  { s with edit := { s.edit with
      stage := .offHanded, offFrame := f, deadline := s.edit.postroll + 25
      warns := { s.edit.warns with lateOut := s.edit.warns.lateOut || s.lateOff f } } }.setPhase .postroll

/-- The sequencer is told that the RECORD_OFF of an EMERGENCY item is handed: an aborted edit leaves EDITING (R129),
with the stage and the hand frame of log 33, the frame absent with no position of the recorder (log 58). -/
def State.toldEmergencyOff (s : State) : State :=
  if s.edit.phase = .editing ∧ s.edit.abort.isSome then
    { s with edit := { s.edit with stage := .offHanded, offFrame := s.recNow } }.setPhase .release
  else s

/-- The sequencer is told of the hand of one of its commands. RECORD_ON is posted in ROLLING, at the move to EDITING, and
RECORD_OFF in EDITING (R120, R122). -/
def State.toldSequencer (s : State) (c : DeckCmd) : State :=
  match c, s.edit.phase with
  | .recordOn _ _, .rolling => s.toldRecordOn
  | .recordOn _ _, .editing => s.toldRecordOn
  | .recordOff, .editing => s.toldRecordOff
  | _, _ => s

/-- The channel acts on outcomes and hands: it is neither IDLE nor FAULT (R87). -/
def Channel.active (c : Channel) : Bool := c.st != .idle && c.st != .fault

/-- A channel is told of the hand of one of its commands: the last speed sent (R81, R83). -/
def State.toldChannel (s : State) (d : Deck) (gen : Nat) (c : DeckCmd) : State :=
  let ch := s.chan d
  if ch.gen = gen ∧ ch.active then
    match c with
    | .play => s.setChan d { ch with speed := some 1000 }
    | .varispeed v => s.setChan d { ch with speed := some v }
    | _ => s
  else s

/-- The originator is told of the hand (R53); during a safe stop the sequencer and the channels take no report (R184). -/
def State.told (s : State) (d : Deck) (f : Flight) : State :=
  if s.safeStop then s
  else match f.origin with
    | .sequencer => s.toldSequencer f.cmd
    | .servo gen _ => s.toldChannel d gen f.cmd
    | .emergencyOff => s.toldEmergencyOff
    | .emergencyStop _ _ => s
    | .pass _ _ => s
    | .poll => s

/-! ## The hand (R61, R64, R68) -/

/-- The next command below the EMERGENCY slot, with what stays in the slots (R61, R66). -/
def Port.pickLower (p : Port) : Option (Flight × Port) :=
  match p.seqSlot.first, p.seqSlot.second, p.servo with
  | some c, x, _ => some ({ cmd := c, origin := .sequencer }, { p with seqSlot := { first := none, second := x } })
  | none, some c, _ => some ({ cmd := c, origin := .sequencer }, { p with seqSlot := { first := none, second := none } })
  | none, none, some c => some ({ cmd := c.cmd, origin := .servo c.gen c.loc }, { p with servo := none })
  | none, none, none =>
    if p.quiet || p.hold then none
    else match p.pass, p.poll with
      | some c, _ => some ({ cmd := c.cmd, origin := .pass c.kind c.tag }, { p with pass := none })
      | none, some c => some ({ cmd := c, origin := .poll }, { p with poll := none })
      | none, none => none

/-- The first command not yet handed of the highest slot that may be served (R61, R62). -/
def Port.pick (p : Port) : Option (Flight × Port) :=
  match p.emerg with
  | some e =>
    if e.recordOff then
      some ({ cmd := .recordOff, origin := .emergencyOff }, { p with emerg := some { e with recordOff := false } })
    else some ({ cmd := .stop, origin := .emergencyStop e.toSeq e.toSafe }, { p with emerg := none })
  | none => if p.presence = .disabled then none else p.pickLower

/-- A VARISPEED within the deck's range (R64). -/
def Port.clampSpeed (p : Port) (c : DeckCmd) : DeckCmd :=
  match c with
  | .varispeed v => .varispeed (clamp p.range.1 p.range.2 v)
  | c => c

/-- A port whose line takes a command: SENDING, with the fresh mark, record-standing and the quiet window as the command
leaves them (R50, R54, R66, R68). -/
def Port.sending (p : Port) (f : SuiteFormat) (x : Flight) : Port :=
  let p := { p with
    line := .sending, flight := some x, tx := x.cmd.frame f, fresh := p.fresh && x.cmd.isSense }
  match x.cmd with
  | .recordOn _ _ => { p with standing := true }
  | .recordOff => { p with standing := false, quiet := false, hold := p.quiet || p.hold }
  | _ => p

/-- The arbiter hands the next command when the line is IDLE (R61). -/
def State.handLine (s : State) (d : Deck) : State :=
  let p := s.port d
  if p.line = .idle then
    match p.pick with
    | some (x, p) =>
      let x := { x with cmd := p.clampSpeed x.cmd }
      (s.setPort d (p.sending s.fmt x)).told d x
    | none => s
  else s

/-! ## Postings -/

/-- The SEQUENCER slot after a posting (R63). -/
def SeqItem.post (i : SeqItem) (c : DeckCmd) : SeqItem :=
  match i.first, i.second with
  | none, none => { first := some c, second := none }
  | some a, none => { first := some a, second := some c }
  | a, some _ => { first := a, second := some c }

/-- A posting to the SEQUENCER slot, without the hand. -/
def State.putSeq (s : State) (d : Deck) (c : DeckCmd) : State :=
  let p := s.port d
  s.setPort d { p with seqSlot := p.seqSlot.post c }

/-- A posting to the SERVO slot of the deck's channel, without the hand: it replaces the waiting command (R64). -/
def State.putServo (s : State) (d : Deck) (c : DeckCmd) : State :=
  s.setPort d { s.port d with servo := some { cmd := c, gen := (s.chan d).gen, loc := (s.chan d).loc } }

/-- A channel's command ended in LINE_ERROR or TIMEOUT, or was withdrawn by an EMERGENCY posting (R87); a safe stop's report
is ignored (R184). -/
def State.chanFailed (s : State) (d : Deck) (gen loc : Nat) (c : DeckCmd) : State :=
  let ch := s.chan d
  if ch.gen = gen ∧ ch.active ∧ ¬s.safeStop then
    match c with
    | .locate _ => if ch.st = .seek ∧ ch.loc = loc then s.setChan d { ch with relocate := true } else s
    | .play => s.setChan d { ch with replay := true }
    | .varispeed _ => s.setChan d { ch with speed := none }
    | _ => s
  else s

/-- A removed PASS command is answered ABORTED (R70). -/
def State.passAborted (s : State) (c : PassCmd) : State := s.reply c.kind c.tag [vResult .aborted]

/-- A STOP of RELEASE waits in the SEQUENCER slot (R115). -/
def Port.releaseStop (p : Port) (e : Edit) : Bool :=
  e.phase == .release && (p.seqSlot.first == some .stop || p.seqSlot.second == some .stop)

/-- The port's EMERGENCY item after a posting, and the slots below emptied (R62); a withdrawn STOP of RELEASE makes the
sequencer await the item's STOP (R115). -/
def Port.withEmergency (p : Port) (e : Edit) (toSeq toSafe : Bool) : Port :=
  let toSeq := toSeq || p.releaseStop e
  let item := match p.emerg with
    | some i => { i with toSeq := i.toSeq || toSeq, toSafe := i.toSafe || toSafe }
    | none => { recordOff := p.standing, toSeq, toSafe }
  { p with emerg := some item, seqSlot := { first := none, second := none }, servo := none, pass := none }

/-- An EMERGENCY posting (R62). -/
def State.postEmergency (s : State) (d : Deck) (toSeq toSafe : Bool) : State :=
  let p := s.port d
  let s := s.setPort d (p.withEmergency s.edit toSeq toSafe)
  let s := match p.servo with
    | some c => s.chanFailed d c.gen c.loc c.cmd
    | none => s
  let s := match p.pass with
    | some c => s.passAborted c
    | none => s
  s.handLine d

end Sys2Proof.Machine
end

