-- ==== Sys2Proof/Machine/Abort.lean ====
section
/-! DEFINITION. What ends things early: the withdrawal of a plan, the clearing and the fault of a chase channel, the abort of
an edit, the silence stop, the loss of a deck (R56, R87 to R93, R123, R126 to R130, R133, R154, R170, R180). -/

namespace Sys2Proof.Machine

/-! ## Reports of the transition engine (R154, R160) -/

/-- An effect: its kind, then pattern and reverse flag or none (log 30). -/
def Effect.vals (e : Effect) : List Val :=
  match e with
  | .mix => [.u 1 0, .u 1 0, .u 1 0, .u 1 0]
  | .wipe p => [.u 1 1, .u 1 1, .u 1 p.num, vFlag p.rev]

/-- The kind of swap of a cause, or none. -/
def TransCause.swapKind : TransCause → Option SwapKind
  | .swap k => some k
  | .armed => none
  | .start => none
  | .lateStart => none
  | .take => none
  | .held => none
  | .withdrawn => none
  | .reset => none

/-- The content of a TRANSITION_STATE notice (R160). The plan's type and owner share one presence byte: the model's choice (log
30). -/
def Engine.noticeContent (e : Engine) (old : EngineState) (c : TransCause) : List Val :=
  vCat [[.u 1 e.st.code, .u 1 old.code, .u 1 c.code], vOptU 1 (c.swapKind.map SwapKind.code),
    vOpt e.plan (fun p => [.u 1 p.type.code, .u 1 p.owner.planCode]) 2,
    [.u 1 e.xa.code, .u 1 e.xb.code, .u 2 e.level, .u 2 e.k], e.effect.vals, [vFlag e.inverted, vFlag e.pickup]]

/-- A new engine state with its TRANSITION_STATE notice (R160). -/
def State.engineMove (s : State) (e : Engine) (c : TransCause) : State :=
  let old := s.engine.st
  { s with engine := e }.enter .transitionState 0 (e.noticeContent old c)

/-- The plan is the sequencer's. -/
def Engine.seqPlan (e : Engine) : Bool := e.plan.any fun p => p.owner == .sequencer

/-- Withdrawal at RELEASE (R154). -/
def State.engineWithdraw (s : State) : State :=
  let e := { s.engine with preview := false }
  if e.st = .armed then s.engineMove { e with st := .idle } .withdrawn else { s with engine := e }

/-- The abort report (R129, R154). -/
def State.engineAbort (s : State) : State :=
  let e := { s.engine with preview := false }
  if e.st = .armed then s.engineMove { e with st := .idle } .withdrawn
  else if e.st = .running ∧ e.seqPlan then s.engineMove { e with st := .held } .held
  else { s with engine := e }

/-! ## GPI entries (R170) -/

/-- Every entry of the event leaves the schedule. -/
def State.gpiDisarm (s : State) : State := { s with gpi := { s.gpi with sched := [] } }

/-! ## Chase channels (R89, R92) -/

/-- The content of a CHASE_STATE notice. -/
def Channel.noticeContent (c : Channel) (old : ChaseState) (cause : ChaseCause) : List Val :=
  vCat [[.u 1 c.st.code, .u 1 old.code, .u 1 cause.code], vOptU 1 (c.owner.map Owner.code),
    vOptU 1 (c.master.map Master.code), [.i 3 c.offset], vOptI 4 c.err, vOptU 2 c.speed, [.u 1 c.seeks, .u 2 c.lead],
    vOptU 1 (c.fault.map ChaseFault.code)]

/-- SYNC_WARNING is due for a channel of the edit: sync point passed and POSTROLL not yet reached (R126, R127). -/
def Edit.syncGuarded (e : Edit) : Bool := e.syncPassed && (e.phase == .rolling || e.phase == .editing)

/-- A channel of the edit leaves LOCKED by its own rules (R126). -/
def State.leftLocked (s : State) (old new : Channel) : State :=
  if old.st = .locked ∧ new.st ≠ .locked ∧ old.owner = some .sequencer ∧ s.edit.syncGuarded then
    s.warn fun w => { w with sync := true }
  else s

/-- A change of a channel's state by its own rules, with its CHASE_STATE notice (R89). -/
def State.chanMove (s : State) (d : Deck) (c : Channel) (cause : ChaseCause) : State :=
  let old := s.chan d
  ((s.setChan d c).enter .chaseState (Deck.num d) (c.noticeContent old.st cause)).leftLocked old c

/-- A waiting VARISPEED, LOCATE or PLAY leaves the SERVO slot; a STOP stays (R92). -/
def Port.dropServo (p : Port) : Port :=
  { p with servo := p.servo.filter fun c => c.cmd == .stop }

/-- A channel is cleared to IDLE with a cause (R92); the claim is the caller's. R92 clears the fields and enters CHASE_STATE, with no
order between the two, and R89 has the owner and the master in the notice without "or none". The notice shows the channel as
cleared: owner and master absent, offset 0, no error, speed or fault reason, the lead of the setting. The model's choice (DESIGN
CHOICE, log 64). -/
def State.clearChan (s : State) (d : Deck) (cause : ChaseCause) : State :=
  let c := s.chan d
  if c.st = .idle then s
  else
    let new := Channel.idle s.set.lead (c.gen + 1) c.loc
    let s := s.setPort d (s.port d).dropServo
    (s.setChan d new).enter .chaseState (Deck.num d) (new.noticeContent c.st cause)

/-- A deck's claim. -/
def State.setClaim (s : State) (d : Deck) (c : Claim) : State := s.setPort d { s.port d with claim := c }

/-- A LINK channel is cleared and its slave's claim becomes FREE (R92, R94). -/
def State.clearLink (s : State) (d : Deck) (cause : ChaseCause) : State :=
  if (s.chan d).owner = some .link then (s.clearChan d cause).setClaim d .free else s

/-- The sources of the active edit (section 7.1). -/
def Edit.sources (e : Edit) : List Deck := e.srcA.toList ++ e.srcB.toList

/-- The sequencer clears its channels with cause RELEASED (R93): at an abort and at RELEASE alike that of source A before that of
source B, so that the CHASE_STATE entry of A comes first. The spec gives no order: the model's choice (log 55). -/
def State.clearEditChans (s : State) : State :=
  s.edit.sources.foldl (fun s d => if (s.chan d).owner = some .sequencer then s.clearChan d .released else s) s

/-! ## The abort (R129) -/

/-- Phases in which an abort can be taken. -/
def Phase.abortable : Phase → Bool
  | .cueing => true
  | .rolling => true
  | .editing => true
  | .postroll => true
  | .idle => false
  | .claim => false
  | .release => false

/-- The open quiet window of the recorder closes when record does not stand (R66, R129). -/
def State.closeWindow (s : State) : State :=
  let p := s.port s.recorder
  if p.quiet ∧ ¬p.standing then s.setPort s.recorder { p with quiet := false, hold := true } else s

/-- An abort would be taken: an abortable phase, no abort cause held, no safe stop (R129, R184). -/
def State.takesAbort (s : State) : Bool := s.edit.phase.abortable && s.edit.abort.isNone && !s.safeStop

/-- The edit is aborted with a cause (R129). The EMERGENCY items are posted after steps 3 to 5, which touch no deck line, so
that notices stand in the rule's order whether or not an item is handed at once (log 18). The decks are taken in the order of
the involved decks, recorder, A, B: the model's choice (log 55). -/
def State.abort (s : State) (cause : Reason) : State :=
  if s.takesAbort then
    let s := { s with edit := { s.edit with abort := some cause, abortStage := s.edit.stage, stops := s.edit.involved } }
    let s := s.clearEditChans
    let s := s.gpiDisarm
    let s := s.engineAbort
    let s := s.edit.involved.foldl (fun s d => s.postEmergency d true false) s
    let s := s.closeWindow
    if (s.port s.recorder).standing then s else s.setPhase .release
  else s

/-! ## The silence stop (R180, R133) -/

/-- A silence stop is taken when the timer is expired and record stands, once for each expiry, and not in a safe stop (R180). R180
enters SILENCE_STOP with the abort and places it nowhere among the entries of that abort: it is entered after them all. The
model's choice (DESIGN CHOICE, log 67). -/
def State.silenceCheck (s : State) : State :=
  if s.link.expired ∧ (s.port s.recorder).standing ∧ ¬s.link.stopTaken ∧ ¬s.safeStop then
    let content := vCat [[.u 2 s.link.limit, .u 2 ((s.edit.active.map Prod.fst).getD 0)], vOptLab s.recNow]
    let s := { s with link := { s.link with stopTaken := true } }
    (s.abort .silence).enter .silenceStop 0 content
  else s

/-- The arbiter hands the next command; a RECORD_ON handed to the recorder after the expiry brings the silence stop
(R61, R180). -/
def State.hand (s : State) (d : Deck) : State := (s.handLine d).silenceCheck

/-- A posting to the SEQUENCER slot (R61, R63). -/
def State.postSeq (s : State) (d : Deck) (c : DeckCmd) : State := (s.putSeq d c).hand d

/-- A posting to the SERVO slot (R61, R64). -/
def State.postServo (s : State) (d : Deck) (c : DeckCmd) : State := (s.putServo d c).hand d

/-! ## The fault of a channel (R88, R127) -/

/-- The sequencer is told of the fault of one of its channels (R127). -/
def State.editChanFault (s : State) (r : ChaseFault) : State :=
  match r with
  | .cannotCatch => if s.edit.syncPassed then
      (if s.edit.syncGuarded then s.warn fun w => { w with sync := true } else s) else s.abort .noLock
  | .noMotion => if s.edit.syncPassed then
      (if s.edit.syncGuarded then s.warn fun w => { w with sync := true } else s) else s.abort .noLock
  | .deckNak => s.abort .deckNak
  | .slaveLost => s.abort .deckLost
  | .masterLost => s.abort .deckLost

/-- The channel enters FAULT: reason, STOP, notice, report (R88); IDLE and FAULT channels, and a safe stop, ignore the
cause (R87, R88, R184). CHASE_STATE is entered before the entries of an abort that the report brings: the model's choice (DESIGN
CHOICE, log 67). -/
def State.chaseFault (s : State) (d : Deck) (r : ChaseFault) : State :=
  let c := s.chan d
  if c.active ∧ ¬s.safeStop then
    let s := s.chanMove d
      { c with st := .fault, fault := some r, speed := none, relocate := false, replay := false } .fault
    let s := if (s.port d).presence = .disabled then s else s.postServo d .stop
    if c.owner = some .sequencer then s.editChanFault r else s
  else s

/-! ## The loss of a deck (R56, R128) -/

/-- The content of a DECK_PRESENCE notice: the new presence and the cause (R56), and for ATTACHED also the type code and the
capability set of the identity that is stored (R57). R57 and R60 list no content for IDENTITY and ENABLED: an IDENTITY notice
has the content of an ATTACHED one, an ENABLED notice presence and cause alone. The model's choices (DESIGN CHOICE, log 30). -/
def Port.presenceContent (p : Port) (c : PresenceCause) : List Val :=
  let identity : List Val := p.ident.toList.flatMap fun i => [.u 1 i.typeCode, .u 1 i.caps.code]
  [.u 1 p.presence.code, .u 1 c.code] ++ match c with
    | .attached => identity
    | .identity => identity
    | .failures => []
    | .disabled => []
    | .enabled => []

/-- A deck record with a new presence, with its DECK_PRESENCE notice. -/
def State.presenceMove (s : State) (d : Deck) (p : Port) (c : PresenceCause) : State :=
  (s.setPort d p).enter .deckPresence (Deck.num d) (p.presenceContent c)

/-- The attach timer posts IDENTIFY, unless the POLL slot is occupied (R57, Table 4-8), without the hand. -/
def State.putIdentify (s : State) (d : Deck) : State :=
  let p := s.port d
  s.setPort d { p with attachAt := some s.now, poll := p.poll.orElse fun _ => some .identify }

/-- A channel's master is deck d. -/
def Channel.follows (c : Channel) (d : Deck) : Bool := c.master == some (.deck d)

/-- The loss of deck d reaches the channels: as slave, then as master of decks 1 to 6 in turn, the model's choice of order (R88,
log 55). -/
def State.chaseDeckLost (s : State) (d : Deck) : State :=
  decks.foldl (fun s m => if (s.chan m).follows d then s.chaseFault m .masterLost else s) (s.chaseFault d .slaveLost)

/-- The sequencer is told that an involved deck left PRESENT (R128). -/
def State.editDeckLost (s : State) (d : Deck) : State :=
  if d ∈ s.edit.involved then s.abort .deckLost else s

/-- The deck leaves PRESENT for a presence with a cause: record, notice, reader, channels, sequencer (R56). The channels come
before the sequencer, so that on an IDLE line a fault's STOP is posted, and handed, ahead of an abort's EMERGENCY item: the
model's choice (log 59). The entries stand in the order in which R56 lists the blocks, which it does not call an order: the
model's choice (DESIGN CHOICE, log 67). -/
def State.deckLost (s : State) (d : Deck) (new : Presence) (c : PresenceCause) : State :=
  let p := { s.port d with presence := new, ident := none, flags := none, nak := none, standing := false }
  let s := s.presenceMove d p c
  let s := s.readerDeckLost d
  let s := s.chaseDeckLost d
  s.editDeckLost d

/-- A failure is counted against a PRESENT deck; the third makes it ABSENT, and the attach timer posts (R55 to R57). A stray
frame can count the third failure on an IDLE line, and then all that the loss posts on this deck's line, the STOP of its
channel's fault, the EMERGENCY item of the abort and this IDENTIFY, is posted at one moment: the spec gives no order. The
model posts the STOP first, the EMERGENCY item next and IDENTIFY last, so that the first of them posted is the one handed
(DESIGN CHOICE, log 59). -/
def State.countFailure (s : State) (d : Deck) : State :=
  let p := s.port d
  if p.presence = .present then
    let s := s.setPort d { p with fails := p.fails + 1 }
    if 3 ≤ p.fails + 1 then ((s.deckLost d .absent .failures).putIdentify d).hand d else s
  else s

end Sys2Proof.Machine
end

