-- ==== Sys2Proof/Machine/EditRun.lean ====
section
/-! DEFINITION. The beginning and the end of an edit, and the run cursor that joins edits (R97, R109, R112 to R114, R124, R130,
R134, R137 to R142, R147). -/

namespace Sys2Proof.Machine

/-! ## The list as a map (R100) -/

/-- The event record at number n. -/
def EventList.get (l : EventList) (n : Nat) : Option Event := (l.events.find? fun x => x.1 == n).map Prod.snd

/-- The records after a store at n: in place, or inserted in ascending order (R100). -/
def putEvent (n : Nat) (e : Event) : List (Nat × Event) → List (Nat × Event)
  | [] => [(n, e)]
  | x :: xs => if n < x.1 then (n, e) :: x :: xs else if n = x.1 then (n, e) :: xs else x :: putEvent n e xs

/-- A write of kept fields at n. -/
def EventList.modify (l : EventList) (n : Nat) (f : Event → Event) : EventList :=
  { l with events := l.events.map fun x => if x.1 = n then (x.1, f x.2) else x }

/-! ## CLAIM (R112 to R114) -/

/-- The recorder, then the sources involved in a mode (section 7.1). -/
def involvedDecks (recorder : Deck) (ev : EventFields) : EditMode → List Deck
  | .review => [recorder]
  | .perform => recorder :: ev.a :: (ev.b.map BSource.deck).toList
  | .preview => recorder :: ev.a :: (ev.b.map BSource.deck).toList

/-- The first check of Table 7-3 that fails (R113). -/
def State.claimCheck (s : State) (ev : EventFields) (mode : EditMode) : Option Reason :=
  let rec' := s.recorder
  let sources := (involvedDecks rec' ev mode).tail
  let caps := (s.port rec').ident.map Identity.caps
  if rec' ∈ sources then some .sourceIsRecorder
  else if (involvedDecks rec' ev mode).any (fun d => (s.port d).presence != .present) then some .deckAbsent
  else if sources.any (fun d => !(s.port d).hasVarispeed) then some .notChaseable
  else if mode == .perform && !(caps.any fun c => c.record && (ev.kind == .assemble || c.insert)) then some .notCapable
  else none

/-- CLAIM is entered with the event active (R109, R112). -/
def State.enterClaim (s : State) (n : Nat) (ev : EventFields) (mode : EditMode) : State :=
  { s with
    list := { s.list with active := some n }
    edit := { Edit.idle with
      active := some (n, ev), mode := some mode, warns := { Warnings.empty with ref := s.ref.st != RefState.locked } } }.setPhase .claim

/-- The LINK chases that an edit's claim cancels (R93): those of its decks, and those that follow one of its sources, for decks 1
to 6 in turn, the model's choice of order (log 55). -/
def State.cancelChases (s : State) (involved sources : List Deck) : State :=
  decks.foldl (fun s m =>
    let c := s.chan m
    if c.owner = some .link ∧ (m ∈ involved ∨ sources.any c.follows) then s.clearLink m .cancelled else s) s

/-- The edit's figures (R114). -/
def Edit.figures (e : Edit) (s : State) (ev : EventFields) (mode : EditMode) : Edit :=
  let f := s.fmt
  let involved := involvedDecks s.recorder ev mode
  let p := involved.foldl (fun p d => max p (s.port d).minPreroll) s.set.preroll
  let withSources := mode != .review
  let a := if withSources then some ev.a else none
  let b := if withSources then ev.b else none
  { e with
    involved := involved, srcA := a, srcB := b.map BSource.deck, preroll := p, margin := min s.set.syncMargin (p - 1)
    postroll := s.set.postroll, onDelay := (s.port s.recorder).delays.1, offDelay := (s.port s.recorder).delays.2
    playStart := (s.port s.recorder).playStart
    cueR := some (f.addFrames ev.recIn (-(p : Int)))
    cueA := a.map fun _ => f.addFrames ev.aIn (-(p : Int))
    cueB := b.map fun b => f.addFrames b.inAt (-(ev.t : Int) - p)
    offA := a.map fun _ => f.d ev.aIn ev.recIn
    offB := b.map fun b => f.d b.inAt (f.addFrames ev.recIn ev.t)
    deadline := s.set.cueTimeout }

/-- The cue point of a deck of the edit. -/
def Edit.cueOf (e : Edit) (d : Deck) : Option Nat :=
  if e.srcA = some d then e.cueA else if e.srcB = some d then e.cueB
  else if e.involved.head? = some d then e.cueR else none

/-- The decks are taken, the figures fixed, the LOCATEs posted: CUEING (R114). -/
def State.claim (s : State) (ev : EventFields) (mode : EditMode) : State :=
  let e := s.edit.figures s ev mode
  let s := s.cancelChases e.involved e.sources
  let s := e.involved.foldl (fun s d => s.setClaim d .sequencer) s
  let s := { s with edit := e }
  let s := e.involved.foldl (fun s d =>
    match e.cueOf d with
    | some c => s.postSeq d (.locate c)
    | none => s) s
  s.setPhase .cueing

/-! ## The end of an edit (R124, R130) -/

/-- Status and failure reason written at the end (R130). GET_EDIT shows the reason of the context as it stands, before the end too
(DESIGN CHOICE, log 60). -/
def Edit.ending (e : Edit) : EventStatus × Option Reason :=
  match e.failure, e.abort with
  | some r, _ => (.failed, some r)
  | none, none => (.done, none)
  | none, some r =>
    match e.abortStage with
    | .notSent => (.failed, some r)
    | .onHanded => (.incomplete, some r)
    | .offHanded => (.done, none)

/-- The end-of-edit write to a record (R97). -/
def Event.ended (x : Event) (e : Edit) : Event :=
  { x with status := e.ending.1, failure := e.ending.2, warns := e.warns, attempts := sat8 (x.attempts + 1) }

/-- The content of an EDIT_END notice (R134). -/
def Edit.endContent (e : Edit) (n attempts : Nat) : List Val :=
  vCat [[.u 2 n, .u 1 ((e.mode.map EditMode.code).getD 0), .u 1 e.ending.1.code, vReason e.ending.2, .u 1 e.warns.code,
    .u 1 attempts], vCause e.abort, vOptLab e.onFrame, vOptLab e.offFrame]

/-- The end-of-edit changes (R124). From here on the engine's reports for the edit's plan are not taken (R154). R124 clears the
context together with the move to IDLE: the EDIT_PHASE notice of that move still shows the context as it stood before the
clearing (event number, mode, preroll, cue point, stage, abort cause), and stands after EDIT_END: the model's choices (log
57). -/
def State.endEdit (s : State) : State :=
  let e := s.edit
  match e.active with
  | none => s
  | some (n, _) =>
    let s := { s with list := { s.list.modify n (·.ended e) with active := none } }
    let s := e.involved.foldl (fun s d => s.setClaim d .free) s
    let s := s.enter .editEnd 0 (e.endContent n (((s.list.get n).map Event.attempts).getD 0))
    let s := s.setPhase .idle
    { s with edit := Edit.idle, engine := { s.engine with live := false } }

/-- An edit starts at an event present in the list: CLAIM passes, or fails and ends the edit at once (R112, R113). -/
def State.startEdit (s : State) (n : Nat) (mode : EditMode) : State :=
  match s.list.get n with
  | none => s
  | some x =>
    let s := s.enterClaim n x.fields mode
    match s.claimCheck x.fields mode with
    | none => s.claim x.fields mode
    | some r => ({ s with edit := { s.edit with failure := some r } }.setPhase .release).endEdit

/-! ## The run cursor (R138, R139, R142) -/

/-- The content of a RUN_STATE notice (R147). -/
def Run.noticeContent (r : Run) (old : RunState) (why : RunReason) : List Val :=
  vCat [[.u 1 r.st.code, .u 1 old.code, .u 1 why.code], vOptU 2 r.current,
    [.u 2 (r.first.getD 0), .u 2 (r.last.getD 0), .u 1 r.dir.code, .u 1 ((r.mode.map EditMode.code).getD 0), vFlag r.loop,
      .u 1 r.policy.code, .u 2 r.started, .u 2 r.wraps]]

/-- The cursor's new fields with the RUN_STATE notice. -/
def State.runMove (s : State) (r : Run) (why : RunReason) : State :=
  let old := s.run.st
  { s with run := r }.enter .runState 0 (r.noticeContent old why)

/-- A run is active (R137). -/
def Run.active (r : Run) : Bool := r.st == .executing || r.st == .held || r.st == .pausing

/-- An event is eligible for the run (R138). -/
def Run.eligible (r : Run) (x : Nat × Event) : Bool :=
  r.first.any (· ≤ x.1) && r.last.any (x.1 ≤ ·) &&
    match x.2.status with
    | .pending => true
    | .failed => true
    | .incomplete => true
    | .done => r.policy == .all
    | .skipped => false

/-- A number beyond c in the run's direction; any number, from the start of the range (R138). -/
def Run.beyond (r : Run) (c : Option Nat) (n : Nat) : Bool :=
  match c, r.dir with
  | none, _ => true
  | some c, .forward => c < n
  | some c, .reverse => n < c

/-- The event that a search finds (R138). -/
def Run.search (r : Run) (events : List (Nat × Event)) (c : Option Nat) : Option Nat :=
  let found := (events.filter fun x => r.eligible x && r.beyond c x.1).map Prod.fst
  match r.dir with
  | .forward => found.head?
  | .reverse => found.getLast?

/-- The run holds (R139, R141). -/
def State.runHold (s : State) (h : HoldReason) (why : RunReason) : State :=
  s.runMove { s.run with st := .held, hold := some h } why

/-- A run in PERFORM may not start an edit now (R139). -/
def State.noReference (s : State) (mode : Option EditMode) : Bool := mode == some .perform && s.ref.st != .locked

/-- The run takes event n: its edit is started, or the run is held (R139). An edit that fails in CLAIM holds the run. The cursor
moves, with its RUN_STATE entry, before the edit starts with its EDIT_PHASE and EDIT_END entries: the model's choice
(log 52). -/
def State.runTake (s : State) (n : Nat) (why : RunReason) : State :=
  if s.noReference s.run.mode then { s with run := { s.run with current := some n } }.runHold .noReference .noReference
  else
    let s := s.runMove
      { s.run with st := .executing, hold := none, current := some n, started := sat16 (s.run.started + 1) } why
    let s := s.startEdit n (s.run.mode.getD .perform)
    if s.edit.phase = .idle then s.runHold .eventFailed .eventFailed else s

/-- The run advances from its current event (R142). -/
def State.runAdvance (s : State) : State :=
  let ended := { s.run with st := .ended, hold := none }
  match s.run.search s.list.events s.run.current with
  | some n => s.runTake n .next
  | none =>
    if s.run.loop then
      match s.run.search s.list.events none with
      | some n => { s with run := { s.run with wraps := sat16 (s.run.wraps + 1) } }.runTake n .wrap
      | none => s.runMove ended .listEnd
    else s.runMove ended .listEnd

/-- The cursor acts on the status that the run's edit wrote (R141). -/
def State.runAfter (s : State) (st : EventStatus) : State :=
  match s.run.st, st with
  | .executing, .failed => s.runHold .eventFailed .eventFailed
  | .executing, .incomplete => s.runHold .eventIncomplete .eventIncomplete
  | .executing, _ => s.runAdvance
  | .pausing, .failed => s.runHold .eventFailed .eventFailed
  | .pausing, .incomplete => s.runHold .eventIncomplete .eventIncomplete
  | .pausing, _ => s.runMove { s.run with st := .idle } .paused
  | .idle, _ => s
  | .held, _ => s
  | .ended, _ => s

/-- RELEASE is left when stops awaited is empty, and a run acts on the write (R124, R141). -/
def State.finish (s : State) : State :=
  if s.edit.phase = .release ∧ s.edit.stops = [] then
    let st := s.edit.ending.1
    s.endEdit.runAfter st
  else s

/-- A deck leaves stops awaited (R115, R124). -/
def State.stopDone (s : State) (d : Deck) : State :=
  { s with edit := { s.edit with stops := s.edit.stops.filter (· ≠ d) } }.finish

end Sys2Proof.Machine
end

