-- ==== Sys2Proof/Machine/DeckPorts.lean ====
section
/-! DEFINITION. Chapter 4: outcomes of deck commands, the bytes of a deck line, attach, the poller, pass-through commands and
the port requests (R50 to R60, R65, R69 to R71, R87, R115). -/

namespace Sys2Proof.Machine

/-! ## What an outcome does -/

/-- LINE_ERROR or TIMEOUT. -/
def CmdOutcome.isFailure {α : Type} : CmdOutcome α → Bool
  | .lineError => true
  | .timeout => true
  | .acked => false
  | .naked _ => false
  | .data _ => false

/-- NAKED. -/
def CmdOutcome.isNak {α : Type} : CmdOutcome α → Bool
  | .naked _ => true
  | .acked => false
  | .data _ => false
  | .lineError => false
  | .timeout => false

/-- A STATUS_REPLY of a PRESENT deck (R54); with no flags held before, the changed set is that of the flags set (log 30). -/
def State.takeStatus (s : State) (d : Deck) (f : BitVec 10) : State :=
  let p := s.port d
  if p.presence = .present then
    let s := s.setPort d { p with flags := some f, age := 0, fresh := true }
    if p.flags = some f then s
    else s.enter .deckStatus (Deck.num d) [.u 2 f.toNat, .u 2 (f ^^^ p.flags.getD 0).toNat]
  else s

/-- An IDENT_REPLY attaches an ABSENT deck or replaces the identity of a PRESENT one (R57). -/
def State.takeIdent (s : State) (d : Deck) (i : Identity) : State :=
  let p := s.port d
  match p.presence with
  | .absent => s.presenceMove d { p with presence := .present, ident := some i, fails := 0, attachAt := none } .attached
  | .present =>
    if p.ident = some i then s else s.presenceMove d { p with ident := some i } .identity
  | .disabled => s

/-- A DATA outcome is taken into the deck record (R53, R54, R57, R59). -/
def State.takeData (s : State) (d : Deck) (x : DataReply) : State :=
  match x with
  | .status f => s.takeStatus d f
  | .ident i => s.takeIdent d i
  | .time l => if l.legal s.fmt then s.readerTime d (l.toFrame s.fmt) s.house else s

/-- The outcome of a sequencer command (R115, Table 7-4). -/
def State.seqOutcome (s : State) (d : Deck) (c : DeckCmd) (o : CmdOutcome DataReply) : State :=
  let e := s.edit
  if e.phase = .idle then s
  else match c with
    | .locate _ =>
      if o.isNak then s.abort .deckNak
      else if e.phase ≠ .cueing then s
      else if o.isFailure then { s with edit := { e with relocate := e.relocate.set d.val true } }
      else { s with edit := { e with acked := e.acked.set d.val true } }
    | .play =>
      if o.isNak then s.abort .deckNak else if o.isFailure then { s with edit := { e with replay := true } } else s
    | .recordOn _ _ => if o.isNak then s.abort .deckNak else if o.isFailure then s.abort .recordUnconfirmed else s
    | .recordOff => if o.isNak then s.abort .deckNak else if o.isFailure then s.abort .recordUnconfirmed else s
    | .stop => s.stopDone d
    | _ => s

/-- The outcome of a channel's command (R87). -/
def State.chaseOutcome (s : State) (d : Deck) (gen loc : Nat) (c : DeckCmd) (o : CmdOutcome DataReply) : State :=
  let ch := s.chan d
  let latest : Bool := match c with
    | .locate _ => ch.loc == loc
    | _ => true
  if ch.gen = gen ∧ ch.active ∧ latest then
    if o.isNak then s.chaseFault d .deckNak
    else if o.isFailure then s.chanFailed d gen loc c
    else match c with
      | .locate _ => s.setChan d { ch with acked := true }
      | _ => s
  else s

/-- The STOP of an EMERGENCY item has its outcome (R53, R115, R124, R184). -/
def State.emergencyDone (s : State) (d : Deck) (toSeq toSafe : Bool) : State :=
  let s := if toSafe then { s with link := { s.link with safe := s.link.safe.map (·.filter (· ≠ d)) } } else s
  if toSeq ∧ ¬s.safeStop then s.stopDone d else s

/-- The reply to the host (R70); an ACKED command's data is what was sent, a DATA reply's its bytes as received. -/
def passVals (f : SuiteFormat) (sent received : List Byte) (o : CmdOutcome DataReply) : List Val :=
  match o with
  | .acked => [vResult .ok, .u 1 0, .raw sent]
  | .naked r => [vResult .naked, .u 1 r.code]
  | .lineError => [vResult .lineError]
  | .timeout => [vResult .timeout]
  | .data (.time l) => if l.legal f then [vResult .ok, .raw received] else [vResult .timecodeInvalid]
  | .data _ => [vResult .ok, .raw received]

/-- The outcome is handed to the originator (R53); during a safe stop the sequencer and the channels ignore it (R184). -/
def State.handBack (s : State) (d : Deck) (x : Flight) (o : CmdOutcome DataReply) (received : List Byte) : State :=
  match x.origin with
  | .emergencyOff => s
  | .emergencyStop toSeq toSafe => s.emergencyDone d toSeq toSafe
  | .sequencer => if s.safeStop then s else s.seqOutcome d x.cmd o
  | .servo gen loc => if s.safeStop then s else s.chaseOutcome d gen loc x.cmd o
  | .pass k t => s.reply k t (passVals s.fmt (((s.port d).tx.drop 2).dropLast) received o)
  | .poll => s

/-- The NAK reason that an outcome leaves: that of a NAKED one, else the one held (R55). -/
def CmdOutcome.nakOr {α : Type} (o : CmdOutcome α) (old : Option NakReason) : Option NakReason :=
  match o with
  | .naked r => some r
  | .acked => old
  | .data _ => old
  | .lineError => old
  | .timeout => old

/-- The outcome counts toward the failure count of a PRESENT deck, and a NAKED one stores its reason whatever the presence
(R55). -/
def State.countOutcome (s : State) (d : Deck) (o : CmdOutcome DataReply) : State :=
  let p := s.port d
  if o.isFailure then s.countFailure d
  else s.setPort d { p with fails := if p.presence = .present then 0 else p.fails, nak := o.nakOr p.nak }

/-- The command in flight ends: its data is taken, its originator told, its outcome counted (log 19). -/
def State.outcome (s : State) (d : Deck) (o : CmdOutcome DataReply) (received : List Byte) : State :=
  match (s.port d).flight with
  | none => s
  | some x =>
    let s := s.setPort d { s.port d with flight := none, rx := none }
    let s := match o with
      | .data x => s.takeData d x
      | _ => s
    (s.handBack d x o received).countOutcome d o

/-- The line after an outcome at t: IDLE, and the next command is handed; or RECOVERING (R50 to R52). -/
def State.endCommand (s : State) (d : Deck) (t : Time) (o : CmdOutcome DataReply) (received : List Byte) : State :=
  let s := s.outcome d o received
  let p := s.port d
  match o with
  | .lineError => s.setPort d { p with line := .recovering, late := .nothing, replyFrom := t, byteAt := t }
  | .timeout => s.setPort d { p with line := .recovering, late := .reply { bytes := [], bad := false }, replyFrom := t }
  | _ => (s.setPort d { p with line := .idle }).hand d

/-! ## Bytes of a deck line (R50 to R52) -/

/-- A frame with one more byte taken. -/
def RxFrame.push (f : RxFrame) (c : LineChar) : RxFrame := { bytes := f.bytes ++ [c.byte], bad := f.bad || c.bad }

/-- A frame not begun. -/
def RxFrame.empty : RxFrame := { bytes := [], bad := false }

/-- The length byte lies outside 2 to 18. -/
def RxFrame.badLength (f : RxFrame) : Bool := byteN f.bytes 0 < 2 || 18 < byteN f.bytes 0

/-- The check byte has been taken. -/
def RxFrame.complete (f : RxFrame) : Bool := f.bytes.length == byteN f.bytes 0 + 1

/-- A byte of the reply (R50, R51). -/
def State.replyByte (s : State) (d : Deck) (t : Time) (c : LineChar) : State :=
  let p := s.port d
  let f := (p.rx.getD RxFrame.empty).push c
  let s := s.setPort d { p with line := .receiving, rx := some f, byteAt := t }
  if f.badLength then s.endCommand d t .lineError []
  else if f.complete then
    let o := match p.flight with
      | some x => judgeReply x.cmd f.bad f.bytes
      | none => .lineError
    s.endCommand d t o ((f.bytes.drop 2).dropLast)
  else s

/-- A byte of a stray frame (R52). -/
def State.strayByte (s : State) (d : Deck) (t : Time) (c : LineChar) : State :=
  let p := s.port d
  let f := (p.stray.getD RxFrame.empty).push c
  if f.badLength || f.complete then (s.setPort d { p with stray := none, byteAt := t }).countFailure d
  else s.setPort d { p with stray := some f, byteAt := t }

/-- A byte taken in RECOVERING with no stray frame open: of the late reply, or discarded (R52). -/
def State.lateByte (s : State) (d : Deck) (t : Time) (c : LineChar) : State :=
  let p := s.port d
  match p.late with
  | .nothing => s.setPort d { p with byteAt := t }
  | .reply f =>
    let f := f.push c
    if f.badLength || f.complete then (s.setPort d { p with late := .nothing, byteAt := t }).countFailure d
    else s.setPort d { p with late := .reply f, byteAt := t }

/-- A byte taken from deck line d at t; a DISABLED port ignores it (R50, R52). -/
def State.portByte (d : Deck) (t : Time) (s : State) (c : LineChar) : State :=
  let p := s.port d
  if p.presence = .disabled then s
  else match p.line with
    | .receiving => s.replyByte d t c
    | .awaiting => if p.stray.isSome then s.strayByte d t c else s.replyByte d t c
    | .recovering => if p.stray.isSome then s.strayByte d t c else s.lateByte d t c
    | .idle => s.strayByte d t c
    | .sending => s.strayByte d t c

/-- Bytes taken from deck line d at t. -/
def State.portBytes (s : State) (d : Deck) (t : Time) (cs : List LineChar) : State := cs.foldl (State.portByte d t) s

/-- DECK_REPLY_RECEIVED: bytes of a reply (R50; log 8). -/
def execDeckReplyReceived (d : Deck) (cs : List LineChar) (t : Time) (s : State) : Host.Outcome State Fault Refusal :=
  timed s t fun s => s.portBytes d t cs

/-- LATE_REPLY_RECEIVED: bytes of a late reply (R52; log 8). -/
def execLateReplyReceived (d : Deck) (cs : List LineChar) (t : Time) (s : State) : Host.Outcome State Fault Refusal :=
  timed s t fun s => s.portBytes d t cs

/-- STRAY_FRAME_RECEIVED: bytes of a stray frame (R52; log 8). -/
def execStrayFrameReceived (d : Deck) (cs : List LineChar) (t : Time) (s : State) : Host.Outcome State Fault Refusal :=
  timed s t fun s => s.portBytes d t cs

/-- COMMAND_SENT: the last byte is out; a command left over from a soft reset frees the line (R50, R72). -/
def execCommandSent (d : Deck) (t : Time) (s : State) : Host.Outcome State Fault Refusal :=
  timed s t fun s =>
    let p := s.port d
    if p.line = .sending then
      if p.flight.isSome then s.setPort d { p with line := .awaiting, replyFrom := t }
      else (s.setPort d { p with line := .idle }).hand d
    else s

/-- REPLY_TIMEOUT: 12 ms in AWAITING (R50). -/
def execReplyTimeout (d : Deck) (t : Time) (s : State) : Host.Outcome State Fault Refusal :=
  timed s t fun s =>
    let p := s.port d
    if p.line = .awaiting ∧ p.replyFrom + ms 12 ≤ t then s.endCommand d t .timeout [] else s

/-- An open stray frame breaks and is counted (R52). -/
def State.breakStray (s : State) (d : Deck) : State :=
  let p := s.port d
  if p.stray.isSome then (s.setPort d { p with stray := none }).countFailure d else s

/-- An open late reply breaks and is counted (R52). -/
def State.breakLate (s : State) (d : Deck) : State :=
  let p := s.port d
  match p.late with
  | .reply f => if f.bytes.isEmpty then s else (s.setPort d { p with late := .nothing }).countFailure d
  | .nothing => s

/-- DECK_GAP_TIMEOUT: 3 ms without a byte inside a frame (R50 to R52). A command in RECEIVING when its port is disabled ends
here in LINE_ERROR, its reply broken off, and not in TIMEOUT, for its reply timer has stopped: the model's choice (log 29). -/
def execDeckGapTimeout (d : Deck) (t : Time) (s : State) : Host.Outcome State Fault Refusal :=
  timed s t fun s =>
    let p := s.port d
    if p.byteAt + ms 3 ≤ t then
      if p.line = .receiving then s.endCommand d t .lineError [] else (s.breakStray d).breakLate d
    else s

/-- RECOVERY_QUIET: 3 ms of RECOVERING without a byte (R52). -/
def execRecoveryQuiet (d : Deck) (t : Time) (s : State) : Host.Outcome State Fault Refusal :=
  timed s t fun s =>
    let p := s.port d
    if p.line = .recovering ∧ max p.byteAt p.replyFrom + ms 3 ≤ t then
      let s := (s.breakStray d).breakLate d
      (s.setPort d { s.port d with line := .idle, late := .nothing }).hand d
    else s

/-! ## Attach and poll (R57, R65) -/

/-- ATTACH_TIMER (R57). -/
def execAttachTimer (d : Deck) (t : Time) (s : State) : Host.Outcome State Fault Refusal :=
  timed s t fun s =>
    let p := s.port d
    if p.presence = .absent ∧ p.enabled ∧ p.attachAt.all (fun a => a + ms 500 ≤ t) then (s.putIdentify d).hand d else s

/-- The port at a frame start: status age, end of a closed window's hold, poll (R54, R61, R65, R66). The spec does not say whether
a frame start that was issued before the window closed, and that the port takes afterwards (as when the sequencer closes the
window in its own step of that frame start), is the first one after closing. It is: it ends the hold and may post a poll, the
model's choice (log 56). -/
def Port.frameStart (p : Port) (lineTime : Bool) : Port :=
  let p := { p with age := if p.flags.isSome then sat8 (p.age + 1) else p.age, hold := false }
  if p.presence = .present ∧ ¬p.quiet ∧ p.poll.isNone then
    { p with poll := some (if p.odd && lineTime then .timeSense else .statusSense), odd := !p.odd }
  else p

/-- DECK_PORT_FRAME_START (R65). -/
def execDeckPortFrameStart (d : Deck) (s : State) : Host.Outcome State Fault Refusal :=
  running s fun s =>
    let k := s.due.port[d.val]
    if 0 < k then
      let s := { s with due := { s.due with port := s.due.port.set d.val (k - 1) } }
      (s.setPort d ((s.port d).frameStart ((s.reader d).src == .line))).hand d
    else s

/-! ## Requests (R60, R69, R71) -/

/-- The first check of R69 that fails, for a deck and its port. -/
def deckCommandCheck (f : SuiteFormat) (p : Port) (code : Nat) (data : List Byte) : Option Result :=
  match deckCmdLen code, deckCmdOf f code data with
  | some n, some c =>
    if data.length ≠ n then some .badLength
    else if c.isRecord then some .recordProtected
    else if p.presence = .disabled then some .noDeck
    else if c.isTransport ∧ p.presence ≠ .present then some .noDeck
    else if c.isTransport ∧ p.claim ≠ .free then some .deckOwned
    else if code = 0x23 ∧ ¬(labelAt data 0).legal f then some .timecodeInvalid
    else if p.pass.isSome then some .lineBusy
    else none
  | _, _ => some .unknownRequest

/-- DECK_COMMAND (R69). The reply is deferred (R70). -/
def execDeckCommand (s : State) : Host.Outcome State Fault Refusal :=
  takeRequest 0x10 s fun r s =>
    match deckOf (byteN r.params 0) with
    | none => s.refuse r .noDeck
    | some d =>
      let p := s.port d
      let code := byteN r.params 1
      let data := r.params.drop 2
      match deckCommandCheck s.fmt p code data, deckCmdOf s.fmt code data with
      | some x, _ => s.refuse r x
      | none, some c => (s.setPort d { p with pass := some { cmd := p.clampSpeed c, kind := r.kind, tag := r.tag } }).hand d
      | none, none => s.refuse r .unknownRequest

/-- An identity as GET_DECK gives it, in the order of Table 4-7. -/
def Identity.vals (i : Identity) : List Val :=
  vCat [[.u 1 i.typeCode], vText i.model, [.u 1 i.caps.code], vOpt i.range (fun r => [.u 2 r.1, .u 2 r.2]) 4,
    [.u 2 i.minPreroll], vOpt i.delays (fun r => [.u 1 r.1, .u 1 r.2]) 2, [.u 1 i.playStart]]

/-- The occupied slots as one set, highest first (Table 4-8, log 30). -/
def Port.slots (p : Port) : Nat :=
  setOf [p.emerg.isSome, p.seqSlot.first.isSome || p.seqSlot.second.isSome, p.servo.isSome, p.pass.isSome, p.poll.isSome]

/-- The values of GET_DECK (R71). Port enable goes as a flag, 1 for enabled; an absent identity's text is empty; and the flags, their
age and the fresh mark share one presence byte, where R187 gives one to each optional value and does not say what one value is:
the model's choices (log 30). -/
def Port.report (p : Port) : List Val :=
  vCat [[vFlag p.enabled, .u 1 p.presence.code], vOpt p.ident Identity.vals 14,
    vOpt p.flags (fun f => [.u 2 f.toNat, .u 1 p.age, vFlag p.fresh]) 4,
    [.u 1 p.fails, .u 1 p.claim.code, vFlag p.standing], vOptU 1 (p.nak.map NakReason.code),
    [.u 1 p.line.code, .u 1 p.slots, vFlag p.quiet]]

/-- GET_DECK (R71). -/
def execGetDeck (s : State) : Host.Outcome State Fault Refusal :=
  takeRequest 0x11 s fun r s =>
    match deckOf (byteN r.params 0) with
    | none => s.refuse r .noDeck
    | some d => s.ok r (s.port d).report

/-- The slots below EMERGENCY emptied by a disable; a PASS command is answered ABORTED (R60). -/
def State.emptySlots (s : State) (d : Deck) : State :=
  let p := s.port d
  let s := s.setPort d { p with seqSlot := { first := none, second := none }, servo := none, pass := none, poll := none }
  match p.pass with
  | some c => s.passAborted c
  | none => s

/-- A port is disabled (R60): a PRESENT deck is lost, an ABSENT one only reported (log 20). -/
def State.disablePort (s : State) (d : Deck) : State :=
  let p := s.port d
  let s := (s.setPort d { p with enabled := false, attachAt := none }).emptySlots d
  if p.presence = .present then s.deckLost d .disabled .disabled
  else s.presenceMove d { s.port d with presence := .disabled } .disabled

/-- A port is enabled: ABSENT, attaching (R60). -/
def State.enablePort (s : State) (d : Deck) : State :=
  ((s.presenceMove d { s.port d with enabled := true, presence := .absent } .enabled).putIdentify d).hand d

/-- SET_PORT_ENABLE (R60): the second parameter is read as a flag, enable when set (log 30). In every case the reply
carries the presence that results, beside DECK_OWNED too. -/
def execSetPortEnable (s : State) : Host.Outcome State Fault Refusal :=
  takeRequest 0x12 s fun r s =>
    match deckOf (byteN r.params 0) with
    | none => s.refuse r .noDeck
    | some d =>
      let p := s.port d
      if flagAt r.params 1 then
        if p.presence = .disabled then (s.ok r [.u 1 Presence.absent.code]).enablePort d
        else s.ok r [.u 1 p.presence.code]
      else if p.claim = .sequencer then s.reply r.kind r.tag [vResult .deckOwned, .u 1 p.presence.code]
      else if p.presence = .disabled then s.ok r [.u 1 p.presence.code]
      else (s.ok r [.u 1 Presence.disabled.code]).disablePort d

end Sys2Proof.Machine
end

