-- ==== Sys2Proof/Machine/Chase.lean ====
section
/-! DEFINITION. Chapter 5: the sample of a chase channel and the chase requests (R73 to R86, R90 to R92). -/

namespace Sys2Proof.Machine

/-! ## What a sample reads (R74 to R76) -/

/-- The master's position at the first of k owed frame starts (R75). -/
def State.masterPos (s : State) (c : Channel) (k : Nat) : Option Nat :=
  match c.master with
  | some .house => some (s.clockAt k * s.fmt.lpf)
  | some (.deck m) => s.extrap m (s.startInstant k)
  | none => none

/-- A deck master runs at play speed (Table 5-4). -/
def State.masterPlays (s : State) (m : Deck) : Bool :=
  let r := s.reader m
  match r.src with
  | .ltc => r.cls == .play && r.dir == .forward
  | .flywheel => r.cls == .play && r.dir == .forward
  | .line => (s.port m).moving
  | .none => false

/-- The master's condition (R75). -/
def State.masterCond (s : State) (c : Channel) (k : Nat) : MasterCond :=
  match c.master, s.masterPos c k with
  | some .house, _ => .atPlay
  | some (.deck m), some _ => if c.owner = some .sequencer ∨ s.masterPlays m then .atPlay else .stopped
  | _, _ => .noPosition

/-- What a channel reads at a sample: condition, target in lines, slave position, error. -/
structure Sample where
  cond   : MasterCond
  target : Option Nat
  slave  : Option Nat
  err    : Option Int
  deriving DecidableEq, Repr

/-- The sample of channel d at the first of k owed frame starts (R75, R76). -/
def State.sampleOf (s : State) (d : Deck) (k : Nat) : Sample :=
  let c := s.chan d
  let f := s.fmt
  let target := (s.masterPos c k).map fun p => f.addLines p (c.offset * f.lpf)
  let slave := s.extrap d (s.startInstant k)
  { cond := s.masterCond c k, target, slave
    err := match target, slave with
      | some t, some p => some (f.dLines t p)
      | _, _ => none }

/-- The target frame (R76). -/
def Sample.frame (x : Sample) (f : SuiteFormat) : Option Nat := x.target.map (· / f.lpf)

/-! ## Locates and rolls (R77, R78, R81) -/

/-- A CHASE_STATE notice of a channel that has left a state (R89). -/
def State.chanNote (s : State) (d : Deck) (old : Channel) (cause : ChaseCause) : State :=
  let c := s.chan d
  (s.enter .chaseState (Deck.num d) (c.noticeContent old.st cause)).leftLocked old c

/-- The channel in SEEK with a LOCATE to a frame (R77, R78). -/
def Channel.locating (c : Channel) (kind : LocateKind) (n seeks lead : Nat) : Channel :=
  { c with
    st := .seek, kind := some kind, target := some n, acked := false, seeks := seeks, lead := lead, speed := none
    inWin := 0, outWin := 0, loc := c.loc + 1, relocate := false }

/-- A FOLLOW locate to the target frame (R77). -/
def State.followLocate (s : State) (d : Deck) (n : Nat) : State :=
  let old := s.chan d
  let s := (s.setChan d (old.locating .follow n 0 s.set.lead)).postServo d (.locate n)
  if old.st = .seek then s else s.chanNote d old .masterStopped

/-- A LEAD seek ahead of the target frame; the fifth is not made (R78). -/
def State.leadSeek (s : State) (d : Deck) (n : Nat) : State :=
  let old := s.chan d
  if 4 ≤ old.seeks then s.chaseFault d .cannotCatch
  else
    let lead := if old.seeks = 0 then s.set.lead else 2 * old.lead
    let goal := s.fmt.addFrames n lead
    let s := (s.setChan d (old.locating .lead goal (old.seeks + 1) lead)).postServo d (.locate goal)
    s.chanNote d old (if old.seeks = 0 then .seek else .reseek)

/-- PLAY is posted and ROLLING entered from PARKED (R81). R81 lists the posting before the notice: on a line that takes PLAY at once
the entry of cause ROLL shows the last speed 1000. The model's choice (DESIGN CHOICE, log 68). -/
def State.roll (s : State) (d : Deck) : State :=
  let old := s.chan d
  let c := { old with st := .rolling, kind := none, roll := (s.port d).playStart + 25, replay := false }
  ((s.setChan d c).postServo d .play).chanNote d old .roll

/-- A LINK channel samples a STOPPED master (R77). -/
def Channel.mustFollow (c : Channel) (x : Sample) : Bool := c.owner == some .link && x.cond == .stopped

/-- A FOLLOW locate is called for: the latest LOCATE is not a FOLLOW one, or its target is more than 25 frames away
(R77). -/
def Channel.followDue (c : Channel) (f : SuiteFormat) (n : Nat) : Bool :=
  match c.kind, c.target with
  | some .follow, some g => 25 < (f.d n g).natAbs
  | _, _ => true

/-- The FOLLOW test of R77 with a STOPPED master. -/
def State.followTest (s : State) (d : Deck) (x : Sample) : State :=
  match x.frame s.fmt with
  | some n => if (s.chan d).followDue s.fmt n then s.followLocate d n else s
  | none => s

/-! ## PARKED and SEEK (R79, R80) -/

/-- The rule of PARKED (R80). -/
def State.parkedRule (s : State) (d : Deck) (x : Sample) : State :=
  let c := s.chan d
  let f := s.fmt
  if c.mustFollow x then s.followTest d x
  else match x.cond, x.target, c.target with
    | .atPlay, some p, some g =>
      let e := f.dLines p (g * f.lpf)
      if (f.lpf : Int) ≤ e then s.leadSeek d (p / f.lpf)
      else if -e ≤ ((s.port d).playStart * f.lpf : Nat) then s.roll d
      else s
    | _, _, _ => s

/-- A LEAD seek is called for in SEEK (R78). -/
def Channel.leadDue (c : Channel) (f : SuiteFormat) (n : Nat) : Bool :=
  match c.kind, c.target with
  | some .lead, some g => 1 ≤ f.d n g
  | _, _ => true

/-- The rule of SEEK: completion first, then the locates (R77 to R79; log 21). -/
def State.seekRule (s : State) (d : Deck) (x : Sample) : State :=
  let c := s.chan d
  if c.acked ∧ (s.port d).parked then
    (s.chanMove d { c with st := .parked, relocate := false } .cueDone).parkedRule d x
  else if c.mustFollow x then s.followTest d x
  else match x.cond, x.frame s.fmt with
    | .atPlay, some n => if c.leadDue s.fmt n then s.leadSeek d n else s
    | _, _ => s

/-! ## Speed (R82, R83) -/

/-- The bounds of the speed law: the deck's range within the trim limit of play (R82). -/
def State.speedBounds (s : State) (d : Deck) : Nat × Nat :=
  let r := (s.port d).range
  (max r.1 (1000 - s.set.trim), min r.2 (1000 + s.set.trim))

/-- The speed law (R82). -/
def State.speedLaw (s : State) (d : Deck) (e : Int) : Nat :=
  let g := if s.fmt.lpf ≤ e.natAbs then s.set.coarse else s.set.fine
  let v := 1000 + roundHalfAway (g * e) s.fmt.lpf
  let b := s.speedBounds d
  (clampInt b.1 b.2 v).toNat

/-- The speed that a new one is compared with (R83). -/
def State.speedRef (s : State) (d : Deck) : Option Nat :=
  match (s.port d).servo with
  | some { cmd := .varispeed v, .. } => some v
  | _ => (s.chan d).speed

/-- The speed is computed and, where it differs, posted (R82, R83). -/
def State.drive (s : State) (d : Deck) (e : Int) : State :=
  let v := s.speedLaw d e
  if s.speedRef d = some v then s else s.postServo d (.varispeed v)

/-! ## VARISPEED and LOCKED (R84 to R86) -/

/-- The slave gives no position: ROLLING without PLAY (R86). -/
def State.positionLost (s : State) (d : Deck) : State :=
  let c := s.chan d
  s.chanMove d { c with st := .rolling, roll := (s.port d).playStart + 25, inWin := 0, outWin := 0, replay := false }
    .positionLost

/-- The error lies beyond the seek window (R84). -/
def State.far (s : State) (e : Int) : Bool := s.set.seekWin * s.fmt.lpf < e.natAbs

/-- Window and lock of VARISPEED (R84 steps 6 and 7). -/
def State.windowTest (s : State) (d : Deck) (e : Int) : State :=
  let c := s.chan d
  if e.natAbs ≤ s.set.lockWin ∧ (s.reader d).src.isLtc then
    let n := min 25 (c.inWin + 1)
    if s.set.lockCount ≤ n then
      s.chanMove d { c with st := .locked, inWin := n, outWin := 0, seeks := 0, lead := s.set.lead } .lock
    else s.setChan d { c with inWin := n }
  else s.setChan d { c with inWin := 0 }

/-- The rule of VARISPEED (R84). -/
def State.varispeedRule (s : State) (d : Deck) (x : Sample) : State :=
  let c := s.chan d
  if c.mustFollow x then s.followTest d x
  else match x.slave, x.target, x.err with
    | none, _, _ => s.positionLost d
    | some _, some p, some e =>
      if s.far e then s.leadSeek d (p / s.fmt.lpf) else (s.drive d e).windowTest d e
    | some _, _, _ => s.setChan d { c with inWin := 0 }

/-- The unlock window of LOCKED (R85 step 6). -/
def State.unlockTest (s : State) (d : Deck) (e : Int) : State :=
  let c := s.chan d
  if s.set.unlockWin < e.natAbs then
    if 2 ≤ c.outWin + 1 then s.chanMove d { c with st := .varispeed, inWin := 0, outWin := 0 } .unlockError
    else s.setChan d { c with outWin := c.outWin + 1 }
  else s.setChan d { c with outWin := 0 }

/-- The rule of LOCKED (R85). -/
def State.lockedRule (s : State) (d : Deck) (x : Sample) : State :=
  let c := s.chan d
  if c.mustFollow x then s.followTest d x
  else match x.slave, x.target, x.err with
    | none, _, _ => s.positionLost d
    | some _, some p, some e =>
      if (s.reader d).src = .line then (s.chanMove d { c with st := .varispeed, inWin := 0 } .unlockSource).drive d e
      else if s.far e then s.leadSeek d (p / s.fmt.lpf)
      else (s.drive d e).unlockTest d e
    | some _, _, _ =>
      s.chanMove d { c with st := .varispeed, inWin := 0 }
        (if (s.reader d).src = .line then .unlockSource else .noMaster)

/-! ## ROLLING (R81) -/

/-- The slave's reader shows play speed and a position (R81). -/
def State.atSpeed (s : State) (d : Deck) : Bool := (s.reader d).cls == .play && (s.reader d).src != .none

/-- The rule of ROLLING (R81). -/
def State.rollingRule (s : State) (d : Deck) (x : Sample) : State :=
  let c := s.chan d
  if c.mustFollow x then s.followTest d x
  else if s.atSpeed d then (s.chanMove d { c with st := .varispeed } .atSpeed).varispeedRule d x
  else if c.roll ≤ 1 then (s.setChan d { c with roll := 0 }).chaseFault d .noMotion
  else s.setChan d { c with roll := c.roll - 1 }

/-! ## The sample (R74) -/

/-- The commands to be re-posted at this sample: the latest LOCATE in SEEK, PLAY in ROLLING (R87). -/
def State.repost (s : State) (d : Deck) : State :=
  let c := s.chan d
  let s' := s.setChan d { c with relocate := false, replay := false }
  match c.st, c.relocate, c.replay, c.target with
  | .seek, true, _, some g => s'.postServo d (.locate g)
  | .rolling, _, true, _ => s'.postServo d .play
  | _, _, _, _ => s'

/-- The rule of the channel's state (R74). -/
def State.chaseRule (s : State) (d : Deck) (x : Sample) : State :=
  match (s.chan d).st with
  | .seek => s.seekRule d x
  | .parked => s.parkedRule d x
  | .rolling => s.rollingRule d x
  | .varispeed => s.varispeedRule d x
  | .locked => s.lockedRule d x
  | .idle => s
  | .fault => s

/-- Channel d takes the sample of the first frame start it owes (R74 to R76); none in IDLE, FAULT or a safe stop (R184). -/
def State.sample (s : State) (d : Deck) : State :=
  let k := s.due.chase[d.val]
  let s : State := { s with due := { s.due with chase := s.due.chase.set d.val (k - 1) } }
  let c := s.chan d
  if c.active ∧ ¬s.safeStop then
    let x := s.sampleOf d k
    let s := s.setChan d { c with cond := some x.cond, err := x.err.orElse fun _ => c.err }
    (s.chaseRule d x).repost d
  else s

/-- CHASE_SAMPLE (R74). -/
def execChaseSample (d : Deck) (s : State) : Host.Outcome State Fault Refusal :=
  running s fun s => if 0 < s.due.chase[d.val] then s.sample d else s

/-- The roll count of channel d runs out at its next sample (R81). -/
def State.rollExpires (s : State) (d : Deck) : Bool :=
  let c := s.chan d
  c.st == .rolling && c.roll ≤ 1 && !s.atSpeed d && !s.safeStop && !c.mustFollow (s.sampleOf d s.due.chase[d.val])

/-- ROLL_COUNT_EXPIRED: the sample at which the roll count reaches 0 (R81, log 7). -/
def execRollCountExpired (d : Deck) (s : State) : Host.Outcome State Fault Refusal :=
  running s fun s => if 0 < s.due.chase[d.val] ∧ s.rollExpires d then s.sample d else s

/-! ## Requests (R73, R90 to R92) -/

/-- A waiting VARISPEED within the bounds in force (R73). -/
def State.reclampServo (s : State) (d : Deck) : State :=
  match (s.port d).servo with
  | some { cmd := .varispeed v, gen, loc } =>
    let b := s.speedBounds d
    s.setPort d { s.port d with servo := some { cmd := .varispeed (clamp b.1 b.2 v), gen, loc } }
  | _ => s

/-- An IDLE channel's current lead is the locate lead setting (Table 5-5). -/
def State.idleLead (s : State) (d : Deck) : State :=
  let c := s.chan d
  if c.st = .idle then s.setChan d { c with lead := s.set.lead } else s

/-- The settings after SET_SERVO_PARAMS (R73, Table 5-3). -/
def Settings.servo (t : Settings) (f : SuiteFormat) (ps : List Byte) : Settings :=
  let w := clamp 1 64 (byteN ps 6)
  { t with
    coarse := clamp 1 100 (byteN ps 0), fine := clamp 1 100 (byteN ps 1), trim := clamp 10 300 (natAt ps 2 2)
    lead := clamp 0 500 (natAt ps 4 2), lockWin := w, lockCount := clamp 1 25 (byteN ps 7)
    unlockWin := clamp w f.lpf (natAt ps 8 2), seekWin := clamp 25 1500 (natAt ps 10 2) }

/-- SET_SERVO_PARAMS (R73). -/
def execSetServoParams (s : State) : Host.Outcome State Fault Refusal :=
  takeRequest 0x18 s fun r s =>
    let t := s.set.servo s.fmt r.params
    let s := { s with set := t }
    let s := decks.foldl (fun s d => (s.reclampServo d).idleLead d) s
    s.ok r [.u 1 t.coarse, .u 1 t.fine, .u 2 t.trim, .u 2 t.lead, .u 1 t.lockWin, .u 1 t.lockCount, .u 2 t.unlockWin,
      .u 2 t.seekWin]

/-- A master code: 0 HOUSE, 1 to 6 a deck (Table 12-3). -/
def Master.ofCode (n : Nat) : Option Master := if n = 0 then some .house else (deckOf n).map .deck

/-- Checks 2 to 9 of R91, in order. -/
def State.chaseCheck (s : State) (slave : Deck) (m : Master) : Option Result :=
  let p := s.port slave
  let followed := decks.any fun d => (s.chan d).st != .idle && (s.chan d).follows slave
  if p.presence ≠ .present then some .noDeck
  else if p.claim = .sequencer then some .deckOwned
  else if ¬p.hasVarispeed then some .notChaseable
  else match m with
    | .house => if followed then some .chaseLoop else none
    | .deck x =>
      if x = slave then some .chaseLoop
      else if (s.port x).presence ≠ .present then some .noDeck
      else if (s.chan x).st ≠ .idle then some .chaseLoop
      else if followed then some .chaseLoop
      else if x ∈ s.edit.sources then some .chaseLoop
      else none

/-- The channel set afresh in a LINK chase (R91); a channel that took no samples owes none of the frame starts issued so far
(R74, log 5). -/
def State.linkChase (s : State) (slave : Deck) (m : Master) (offset : Int) : State :=
  let old := s.chan slave
  let owed := if old.active then s.due.chase[slave.val] else 0
  let s : State := { s with due := { s.due with chase := s.due.chase.set slave.val owed } }
  let s := s.setPort slave { (s.port slave).dropServo with claim := .link }
  let c := { Channel.idle s.set.lead (old.gen + 1) old.loc with
    st := .seek, owner := some .link, master := some m, offset := offset }
  (s.setChan slave c).enter .chaseState (Deck.num slave) (c.noticeContent old.st .set)

/-- SET_CHASE (R91). -/
def execSetChase (s : State) : Host.Outcome State Fault Refusal :=
  takeRequest 0x19 s fun r s =>
    match deckOf (byteN r.params 0), Master.ofCode (byteN r.params 1) with
    | some slave, some m =>
      let offset := clampInt (-(s.fmt.halfDay : Int)) (s.fmt.halfDay - 1) (intAt r.params 2 3)
      match s.chaseCheck slave m with
      | some x => s.refuse r x
      | none => (s.linkChase slave m offset).ok r [.i 3 offset]
    | _, _ => s.refuse r .noDeck

/-- CLEAR_CHASE (R92). -/
def execClearChase (s : State) : Host.Outcome State Fault Refusal :=
  takeRequest 0x1A s fun r s =>
    match deckOf (byteN r.params 0) with
    | none => s.refuse r .noDeck
    | some d =>
      if (s.chan d).owner = some .sequencer then s.refuse r .deckOwned
      else (s.clearLink d .cleared).ok r []

/-- The fields of Table 5-1 (R90). -/
def Channel.report (c : Channel) : List Val :=
  vCat [[.u 1 c.st.code], vOptU 1 (c.owner.map Owner.code), vOptU 1 (c.master.map Master.code), [.i 3 c.offset],
    vOptU 1 (c.kind.map LocateKind.code), vOptLab c.target, [vFlag c.acked], vOptI 4 c.err, vOptU 2 c.speed,
    vOptU 1 (c.cond.map MasterCond.code), [.u 1 c.inWin, .u 1 c.outWin, .u 1 c.seeks, .u 2 c.lead, .u 1 c.roll],
    vOptU 1 (c.fault.map ChaseFault.code)]

/-- GET_CHASE (R90). -/
def execGetChase (s : State) : Host.Outcome State Fault Refusal :=
  takeRequest 0x1B s fun r s =>
    match deckOf (byteN r.params 0) with
    | none => s.refuse r .noDeck
    | some d => s.ok r (s.chan d).report

end Sys2Proof.Machine
end

