-- ==== Sys2Proof/Machine/ListRequests.lean ====
section
/-! DEFINITION. Chapter 6: loading, reading and pruning the event list (R101 to R108). -/

namespace Sys2Proof.Machine

/-! ## Loads (R102 to R104) -/

/-- What a load counts (R104). -/
structure LoadCount where
  stored  : Nat
  invalid : Nat
  ignored : Nat
  first   : Option (Nat × Invalid)
  deriving DecidableEq, Repr

/-- An invalid record at number n is counted. -/
def LoadCount.reject (c : LoadCount) (n : Nat) (why : Invalid) : LoadCount :=
  { c with invalid := c.invalid + 1, first := c.first.orElse fun _ => some (n, why) }

/-- A stored record with its initial kept fields (R97). -/
def Event.fresh (e : EventFields) : Event :=
  { fields := e, status := .pending, failure := none, warns := Warnings.empty, attempts := 0 }

/-- One record of a load, at the pointer (R103). -/
def loadRecord (f : SuiteFormat) (recorder : Deck) (x : EventList × LoadCount) (r : List Byte) : EventList × LoadCount :=
  let l := x.1
  let c := x.2
  let n := l.ptr
  let l' := { l with ptr := min 1000 (n + 1) }
  if 1000 ≤ n ∨ n < l.low ∨ l.high < n then (l', { c with ignored := c.ignored + 1 })
  else match invalidReason f recorder r with
    | some why => (l', c.reject n why)
    | none =>
      if l.active = some n then (l', c.reject n .activeEvent)
      else if (l.get n).isNone ∧ 250 ≤ l.events.length then (l', c.reject n .listFull)
      else ({ l' with events := putEvent n (Event.fresh (fieldsOf f r)) l.events }, { c with stored := c.stored + 1 })

/-- The result code of a load (R104). -/
def LoadCount.result (c : LoadCount) : Result :=
  match c.first with
  | none => .ok
  | some (_, .timecodeInvalid) => .timecodeInvalid
  | some (_, .activeEvent) => .activeEvent
  | some (_, .listFull) => .listFull
  | some _ => .eventInvalid

/-- The window and the pointer. -/
def EventList.windowVals (l : EventList) : List Val := [.u 2 l.low, .u 2 l.high, .u 2 l.ptr]

/-- The values of a load's reply (R104). -/
def loadVals (l : EventList) (c : LoadCount) : List Val :=
  vCat [[vResult c.result, .u 1 c.stored, .u 1 c.invalid, .u 1 c.ignored],
    vOpt c.first (fun x => [.u 2 x.1, .u 1 x.2.code]) 3, l.windowVals, [.u 1 l.events.length]]

/-- A load of the request's records from a pointer (R102). One refused with BAD_LENGTH stores and moves nothing, and its reply
carries the code alone, without the window and the pointer that R101 has in the reply to every load: the model's choice (log
30). -/
def State.load (s : State) (r : Request) (ptr : Nat) : State :=
  match splitRecords r.params.length r.params with
  | none => s.refuse r .badLength
  | some rs =>
    let x := rs.foldl (loadRecord s.fmt s.recorder)
      ({ s.list with ptr := ptr }, { stored := 0, invalid := 0, ignored := 0, first := none })
    { s with list := x.1 }.reply r.kind r.tag (loadVals x.1 x.2)

/-- LOAD_EVENTS (R102). -/
def execLoadEvents (s : State) : Host.Outcome State Fault Refusal := takeRequest 0x21 s fun r s => s.load r s.list.low

/-- LOAD_CONTINUE (R102). -/
def execLoadContinue (s : State) : Host.Outcome State Fault Refusal := takeRequest 0x22 s fun r s => s.load r s.list.ptr

/-! ## The window, reading and pruning -/

/-- A range of event numbers is judged (R101, R106, R108). -/
def rangeOk (low high : Nat) : Bool := eventOk low && eventOk high && low ≤ high

/-- SET_LOAD_WINDOW (R101). -/
def execSetLoadWindow (s : State) : Host.Outcome State Fault Refusal :=
  takeRequest 0x20 s fun r s =>
    let low := natAt r.params 0 2
    let high := natAt r.params 2 2
    if rangeOk low high then { s with list := { s.list with low := low, high := high } }.ok r [.u 2 low, .u 2 high]
    else s.refuse r .noEvent

/-- The event that a search finds (R105): NEXT takes the lowest number present at or above n. -/
def EventList.seek (l : EventList) (next : Bool) (n : Nat) : Option (Nat × Event) :=
  l.events.find? fun x => if next then n ≤ x.1 else x.1 == n

/-- The values of READ_EVENT (R105, section 12.2). -/
def State.eventVals (s : State) (n : Nat) (e : Event) : List Val :=
  vCat [[.u 2 n, .raw (e.fields.bytes s.fmt), .u 1 e.status.code, vReason e.failure, .u 1 e.warns.code, .u 1 e.attempts,
    vFlag (s.list.active == some n), .u 1 s.list.events.length], s.list.windowVals]

/-- READ_EVENT (R105); a search code that names nothing is refused first (R189, log 23). -/
def execReadEvent (s : State) : Host.Outcome State Fault Refusal :=
  takeRequest 0x23 s fun r s =>
    let n := natAt r.params 0 2
    if 1 < byteN r.params 2 then s.refuse r .unknownRequest
    else if ¬eventOk n then s.refuse r .noEvent
    else match s.list.seek (byteN r.params 2 == 1) n with
      | none => s.refuse r .noEvent
      | some (m, e) => s.ok r (s.eventVals m e)

/-- The number lies in the range and is not the active event's. -/
def EventList.selects (l : EventList) (low high n : Nat) : Bool := low ≤ n && n ≤ high && l.active != some n

/-- The active event's number when it lies in the range (R106, R108). -/
def EventList.kept (l : EventList) (low high : Nat) : Option Nat := l.active.filter fun n => low ≤ n && n ≤ high

/-- DELETE_EVENTS (R106). -/
def execDeleteEvents (s : State) : Host.Outcome State Fault Refusal :=
  takeRequest 0x24 s fun r s =>
    let low := natAt r.params 0 2
    let high := natAt r.params 2 2
    if rangeOk low high then
      let left := s.list.events.filter fun x => !s.list.selects low high x.1
      let vals := vCat [[.u 1 (s.list.events.length - left.length)], vOptU 2 (s.list.kept low high), [.u 1 left.length]]
      { s with list := { s.list with events := left } }.ok r vals
    else s.refuse r .noEvent

/-- CLEAR_LIST (R107). -/
def execClearList (s : State) : Host.Outcome State Fault Refusal :=
  takeRequest 0x25 s fun r s =>
    if s.list.active.isSome then s.refuse r .activeEvent
    else { s with list := { s.list with events := [] } }.ok r []

/-- A record whose status is reset (R108). -/
def Event.resetStatus (e : Event) : Event := { e with status := .pending, failure := none, warns := Warnings.empty }

/-- RESET_STATUS (R108). -/
def execResetStatus (s : State) : Host.Outcome State Fault Refusal :=
  takeRequest 0x26 s fun r s =>
    let low := natAt r.params 0 2
    let high := natAt r.params 2 2
    if rangeOk low high then
      let n := (s.list.events.filter fun x => s.list.selects low high x.1).length
      let events := s.list.events.map fun x => if s.list.selects low high x.1 then (x.1, x.2.resetStatus) else x
      let vals := vCat [[.u 1 n], vOptU 2 (s.list.kept low high)]
      { s with list := { s.list with events := events } }.ok r vals
    else s.refuse r .noEvent

end Sys2Proof.Machine
end

