-- ==== Sys2Proof/Machine/Sequencer.lean ====
section
/-! DEFINITION. Chapter 7: the frame-start tests of the edit sequencer and its requests (R99, R111, R112, R115 to R123, R131,
R132, R135, R150, R164). -/

namespace Sys2Proof.Machine

/-! ## Hand-offs at ROLLING (R93, R99, R117, R150, R164) -/

/-- The effective transition (Table 6-5). -/
def EventFields.effective (e : EventFields) : PlanType :=
  match e.b, e.type with
  | none, _ => .none
  | some _, .cut => .cut
  | some _, .mix => if e.d = 0 then .cut else .mix
  | some _, .wipe => if e.d = 0 then .cut else .wipe

/-- The sequencer's plan for an event (R117, R150). An event without a pattern (R96) gives the plan pattern 0 and a clear
reverse flag, which no CUT, MIX or NONE shows: the model's choice (log 53). -/
def EventFields.plan (e : EventFields) (f : SuiteFormat) (preview : Bool) : Plan :=
  { type := e.effective, curve := e.curve, dur := e.d, pattern := e.pattern.getD { num := 0, rev := false }
    a := .deck e.a
    b := match e.b with
      | some b => .deck b.deck
      | none => .black
    start := some (f.addFrames e.recIn e.t), owner := .sequencer, preview := preview }

/-- The effect of a plan: a MIX or WIPE sets it, a CUT or NONE leaves it (R150, R155). -/
def PlanType.effect (t : PlanType) (p : Pattern) (old : Effect) : Effect :=
  match t with
  | .mix => .mix
  | .wipe => .wipe p
  | .cut => old
  | .none => old

/-- The engine armed with a plan (R150). -/
def Engine.armed (e : Engine) (p : Plan) : Engine :=
  { e with
    st := .armed, plan := some p, form := .curve, k := 0, level := 0, xa := p.a, xb := p.b
    effect := p.type.effect p.pattern e.effect, pendCut := false, pickup := false, preview := p.preview, live := true }

/-- Schedule order: by offset, then line, then place (R164). -/
def GpiEntry.before (a b : GpiEntry) : Bool :=
  a.offset < b.offset || (a.offset == b.offset && (a.line < b.line || (a.line == b.line && a.place < b.place)))

/-- An entry in its place of the schedule. -/
def schedule (x : GpiEntry) : List GpiEntry → List GpiEntry
  | [] => [x]
  | y :: ys => if x.before y then x :: y :: ys else y :: schedule x ys

/-- The entries of an event's triggers (R164). -/
def EventFields.entries (e : EventFields) (f : SuiteFormat) (n : Nat) : List GpiEntry :=
  e.triggers.mapIdx fun i t =>
    { output := t.output, due := f.addFrames e.recIn t.offset, offset := t.offset, line := t.line, action := t.action
      event := n, place := i + 1, inFrame := false, late := false }

/-- The chase channel of a source is started at its cue point; it takes no sample at this frame start (R93). -/
def State.startChase (s : State) (d : Deck) (offset : Int) (cue : Nat) : State :=
  let old := s.chan d
  let c := { Channel.idle s.set.lead (old.gen + 1) old.loc with
    st := .parked, owner := some .sequencer, master := some (.deck s.recorder), offset := offset, kind := some .lead
    target := some cue, acked := true }
  let s : State := { s with due := { s.due with chase := s.due.chase.set d.val (min s.due.chase[d.val] s.due.seq) } }
  (s.setChan d c).enter .chaseState (Deck.num d) (c.noticeContent old.st .sequencer)

/-- The channel of a source, where the edit has it. -/
def State.startSource (s : State) (d : Option Deck) (offset : Option Int) (cue : Option Nat) : State :=
  match d, offset, cue with
  | some d, some o, some c => s.startChase d o c
  | _, _, _ => s

/-- The hand-offs outside REVIEW (R117). The channel of source A is started before that of source B, so that the CHASE_STATE entry
of A comes first: the spec gives no order, and this is the model's choice (log 55). -/
def State.handOffs (s : State) (n : Nat) (ev : EventFields) (mode : EditMode) : State :=
  let e := s.edit
  let s := s.startSource e.srcA e.offA e.cueA
  let s := s.startSource e.srcB e.offB e.cueB
  let s := s.engineMove (s.engine.armed (ev.plan s.fmt (mode == .preview))) .armed
  { s with gpi := { s.gpi with sched := (ev.entries s.fmt n).foldl (fun l x => schedule x l) [] } }

/-- ROLLING is entered (R117). EDIT_PHASE is entered before the CHASE_STATE and TRANSITION_STATE entries of the hand-offs: the
spec gives no order, and this is the model's choice (log 62). -/
def State.enterRolling (s : State) (n : Nat) (ev : EventFields) (mode : EditMode) : State :=
  let s := { s with edit := { s.edit with
    deadline := s.edit.preroll + s.edit.playStart + 25, syncPassed := false, replay := false } }
  let s := s.setPhase .rolling
  let s := s.postSeq s.recorder .play
  if mode = .review then s else s.handOffs n ev mode

/-! ## CUEING (R115, R116) -/

/-- A LOCATE that failed is posted again (R115). -/
def State.recue (s : State) (d : Deck) : State :=
  let e := s.edit
  if e.relocate[d.val] then
    let s := { s with edit := { e with relocate := e.relocate.set d.val false } }
    match e.cueOf d with
    | some c => if e.cued[d.val] then s else s.postSeq d (.locate c)
    | none => s
  else s

/-- A deck is judged cued (R116). -/
def State.judgeCued (s : State) (d : Deck) : State :=
  let e := s.edit
  if e.acked[d.val] ∧ (s.port d).parked then { s with edit := { e with cued := e.cued.set d.val true } } else s

/-- The deadline falls by one; at 0 the edit is aborted with a reason. -/
def State.deadlineStep (s : State) (why : Reason) : State :=
  let n := s.edit.deadline - 1
  let s := { s with edit := { s.edit with deadline := n } }
  if n = 0 then s.abort why else s

/-- The frame start in CUEING (R116). A failed LOCATE is posted again before the decks and the deadline are judged: the
model's choice (log 27). -/
def State.cueingStep (s : State) (n : Nat) (ev : EventFields) (mode : EditMode) : State :=
  let ds := s.edit.involved
  let s := ds.foldl State.recue s
  let s := ds.foldl State.judgeCued s
  if ds.all fun d => s.edit.cued[d.val] then s.enterRolling n ev mode else s.deadlineStep .cueTimeout

/-! ## EDITING (R122) -/

/-- POSTROLL without a record command (R122). -/
def State.previewOff (s : State) : State :=
  { s with edit := { s.edit with deadline := s.edit.postroll + 25 } }.setPhase .postroll

/-- The record-off test at recorder frame f (R122). -/
def State.offTest (s : State) (ev : EventFields) (mode : EditMode) (f : Option Nat) : State :=
  if f.any fun n => s.fmt.reached n (s.edit.offPoint s.fmt ev) then
    match mode with
    | .perform =>
      if s.edit.offPosted then s
      else { s with edit := { s.edit with offPosted := true } }.postSeq s.recorder .recordOff
    | .preview => s.previewOff
    | .review => s.previewOff
  else s

/-- The frame start in EDITING (R122). -/
def State.editingStep (s : State) (ev : EventFields) (mode : EditMode) (f : Option Nat) : State :=
  let s := s.offTest ev mode f
  if s.edit.phase = .editing ∧ s.edit.abort.isNone then s.deadlineStep .outTimeout else s

/-! ## ROLLING (R118 to R121) -/

/-- The quiet window opens on the recorder's port (R66). -/
def State.openWindow (s : State) : State :=
  s.setPort s.recorder { s.port s.recorder with quiet := true, hold := false, poll := none }

/-- The checks of the sync point (R119). -/
def State.syncPoint (s : State) (mode : EditMode) : State :=
  if mode ≠ .review ∧ s.edit.sources.any (fun d => (s.chan d).st != .locked) then s.abort .noLock
  else if ¬(s.reader s.recorder).src.isLtc then s.abort .noTimecode
  else
    let s := { s with edit := { s.edit with syncPassed := true } }
    if mode = .perform then s.openWindow else s

/-- The record-on point: in less the record-on delay (R120). -/
def Edit.onPoint (e : Edit) (f : SuiteFormat) (ev : EventFields) : Nat := f.addFrames ev.recIn (-(e.onDelay : Int))

/-- EDITING is entered, and the record-off test made at the same frame start (R120 to R122). -/
def State.enterEditing (s : State) (ev : EventFields) : State :=
  { s with edit := { s.edit with deadline := s.fmt.span ev.recIn ev.recOut + 25 } }.setPhase .editing

/-- RECORD_ON is posted, and EDITING entered (R120); a hand after the silence expiry brings the silence stop (R180). R120 names the
posting before the phase: on a line that takes RECORD_ON at once the EDIT_PHASE entry of EDITING shows the stage ON_HANDED, and
it stands ahead of the silence stop's entries. The model's choices (DESIGN CHOICE, logs 68 and 67). -/
def State.postRecordOn (s : State) (ev : EventFields) : State :=
  let s := (s.putSeq s.recorder (.recordOn ev.tracks ev.kind)).handLine s.recorder
  (s.enterEditing ev).silenceCheck

/-- The record-on comparison of PERFORM at recorder frame n (R120). -/
def State.recordOnTest (s : State) (ev : EventFields) (n : Nat) : State :=
  let f := s.fmt
  if f.d n (s.edit.onPoint f ev) < 0 then s
  else if f.d n ev.recIn < 0 ∨ (s.edit.onDelay = 0 ∧ f.d n ev.recIn = 0) then s.postRecordOn ev
  else s.abort .missedPoint

/-- The record-on point of PREVIEW and REVIEW (R121). -/
def State.previewOn (s : State) (ev : EventFields) (n : Nat) : State :=
  if s.fmt.reached n (s.edit.onPoint s.fmt ev) then s.enterEditing ev else s

/-- Step 1 of R118: the sync point. -/
def State.rollSync (s : State) (ev : EventFields) (mode : EditMode) (f : Option Nat) : State :=
  if ¬s.edit.syncPassed ∧ f.any (fun n => s.fmt.reached n (s.fmt.addFrames ev.recIn (-(s.edit.margin : Int)))) then
    s.syncPoint mode
  else s

/-- Step 2 of R118: the record-on point. -/
def State.rollOn (s : State) (ev : EventFields) (mode : EditMode) (f : Option Nat) : State :=
  match f with
  | none => s
  | some n =>
    if s.edit.syncPassed ∧ s.edit.abort.isNone then
      match mode with
      | .perform => s.recordOnTest ev n
      | .preview => s.previewOn ev n
      | .review => s.previewOn ev n
    else s

/-- A PLAY of the recorder that failed is posted again (R115). -/
def State.replayRecorder (s : State) : State :=
  let again := s.edit.replay && !s.edit.syncPassed
  let s := { s with edit := { s.edit with replay := false } }
  if again then s.postSeq s.recorder .play else s

/-- The frame start in ROLLING (R118). A failed PLAY is posted again before the sync point and the deadline are judged: the
model's choice (log 27). -/
def State.rollingStep (s : State) (ev : EventFields) (mode : EditMode) (f : Option Nat) : State :=
  let s := s.replayRecorder
  let s := s.rollSync ev mode f
  let s := s.rollOn ev mode f
  if s.edit.abort.isSome then s
  else match s.edit.phase with
    | .rolling => s.deadlineStep .rollTimeout
    | .editing => s.offTest ev mode f
    | _ => s

/-! ## POSTROLL and RELEASE (R123) -/

/-- RELEASE is entered (R123). EDIT_PHASE is entered before the CHASE_STATE and TRANSITION_STATE entries of steps 1 and 3: the
spec gives no order, and this is the model's choice (log 62). -/
def State.enterRelease (s : State) : State :=
  let s := { s with edit := { s.edit with stops := s.edit.involved } }.setPhase .release
  let s := s.clearEditChans.gpiDisarm.engineWithdraw
  s.edit.involved.foldl (fun s d => s.postSeq d .stop) s

/-- The frame start in POSTROLL (R123). -/
def State.postrollStep (s : State) (ev : EventFields) (f : Option Nat) : State :=
  let n := s.edit.deadline - 1
  let s := { s with edit := { s.edit with deadline := n } }
  let goal := s.fmt.addFrames ev.recOut s.edit.postroll
  if n = 0 ∨ f.any (fun x => s.fmt.reached x goal) then s.enterRelease else s

/-! ## The frame start (R118) -/

/-- The tests of the phase with recorder frame f; none from an abort on (R129) or in a safe stop (R184). -/
def State.phaseTests (s : State) (f : Option Nat) : State :=
  match s.edit.active, s.edit.mode with
  | some (n, ev), some mode =>
    if s.edit.abort.isSome ∨ s.safeStop then s
    else match s.edit.phase with
      | .cueing => s.cueingStep n ev mode
      | .rolling => s.rollingStep ev mode f
      | .editing => s.editingStep ev mode f
      | .postroll => s.postrollStep ev f
      | .idle => s
      | .claim => s
      | .release => s
  | _, _ => s

/-- The sequencer takes the first frame start it owes. -/
def State.seqStep (s : State) : State :=
  let f := s.recFrame (s.startInstant s.due.seq)
  { s with due := { s.due with seq := s.due.seq - 1 } }.phaseTests f

/-- SEQUENCER_FRAME_START (R118). -/
def execSequencerFrameStart (s : State) : Host.Outcome State Fault Refusal :=
  running s fun s => if 0 < s.due.seq then s.seqStep else s

/-- The frame start at which a deadline aborts the edit with a reason (log 7). -/
def State.timeoutStep (s : State) (why : Reason) : State :=
  if 0 < s.due.seq ∧ s.edit.abort = none ∧ s.edit.deadline ≤ 1 ∧ s.seqStep.edit.abort = some why then s.seqStep else s

/-- CUE_TIMEOUT (R116). -/
def execCueTimeout (s : State) : Host.Outcome State Fault Refusal := running s fun s => s.timeoutStep .cueTimeout

/-- ROLL_TIMEOUT (R118). -/
def execRollTimeout (s : State) : Host.Outcome State Fault Refusal := running s fun s => s.timeoutStep .rollTimeout

/-- OUT_TIMEOUT (R122). -/
def execOutTimeout (s : State) : Host.Outcome State Fault Refusal := running s fun s => s.timeoutStep .outTimeout

/-- POSTROLL_TIMEOUT: the frame start at which the POSTROLL deadline reaches 0 (R123, log 7). -/
def execPostrollTimeout (s : State) : Host.Outcome State Fault Refusal :=
  running s fun s => if 0 < s.due.seq ∧ s.edit.phase = .postroll ∧ s.edit.deadline ≤ 1 then s.seqStep else s

/-! ## Requests (R111, R112, R131, R132, R135) -/

/-- The settings after SET_EDIT_TIMES (R111). -/
def Settings.editTimes (t : Settings) (ps : List Byte) : Settings :=
  { t with
    preroll := clamp 25 750 (natAt ps 0 2), syncMargin := clamp 1 125 (byteN ps 2), postroll := clamp 0 750 (natAt ps 3 2)
    cueTimeout := clamp 250 7500 (natAt ps 5 2) }

/-- SET_EDIT_TIMES (R111). -/
def execSetEditTimes (s : State) : Host.Outcome State Fault Refusal :=
  takeRequest 0x28 s fun r s =>
    let t := s.set.editTimes r.params
    { s with set := t }.ok r [.u 2 t.preroll, .u 1 t.syncMargin, .u 2 t.postroll, .u 2 t.cueTimeout]

/-- EXECUTE (R112); a mode code that names nothing is refused first (R189, log 23). -/
def execExecuteEvent (s : State) : Host.Outcome State Fault Refusal :=
  takeRequest 0x29 s fun r s =>
    let n := natAt r.params 0 2
    match EditMode.ofCode (byteN r.params 2) with
    | none => s.refuse r .unknownRequest
    | some mode =>
      if s.edit.phase ≠ .idle ∨ s.run.active then s.refuse r .wrongState
      else if s.noReference (some mode) then s.refuse r .noReference
      else if ¬eventOk n ∨ (s.list.get n).isNone then s.refuse r .noEvent
      else (s.ok r [.u 2 n, .u 1 mode.code]).startEdit n mode

/-- ABORT (R131). -/
def execAbortEdit (s : State) : Host.Outcome State Fault Refusal :=
  takeRequest 0x2A s fun r s =>
    if s.edit.phase = .idle then s.refuse r .wrongState else (s.ok r []).abort .aborted

/-- An active run is ended (R146). -/
def State.endRun (s : State) (why : RunReason) : State :=
  if s.run.active then s.runMove { s.run with st := .ended, hold := none } why else s

/-- The EMERGENCY STOP of ALL_STOP on every PRESENT deck; on a deck whose item the abort of this request has posted it
joins that item, adding nothing (R62, R132). Decks 1 to 6 in turn: the model's choice (log 55). -/
def State.stopAll (s : State) (joined : List Deck) : State :=
  decks.foldl (fun s d =>
    if (s.port d).presence = .present ∧ d ∉ joined then s.postEmergency d false false else s) s

/-- ALL_STOP (R132). R132 leaves the order of its changes open: the entries of the abort come first, then CHASE_STATE of the
channels of the link, and RUN_STATE with the reason ALL_STOP (R146) last. The model's choice (DESIGN CHOICE, log 67). -/
def execAllStop (s : State) : Host.Outcome State Fault Refusal :=
  takeRequest 0x2B s fun r s =>
    let joined := if s.takesAbort then s.edit.involved else []
    let s := (s.ok r []).abort .allStop
    let s := decks.foldl (fun s d => s.clearLink d .cleared) s
    (s.stopAll joined).endRun .allStop

/-- The edit context as GET_EDIT gives it, in the order of Table 7-1 (R135, log 30). R187 knows a set and a counted list:
the involved decks and the stops awaited travel as counted lists of deck numbers, and the cue marks as a counted list of
their own, acknowledged then cued for each involved deck. A record has no full width of its own (29 bytes and 8 for each
trigger): an absent active event takes the 31 bytes of a number and a record without triggers, under one presence byte.
These are the model's choices (log 30). The failure reason is `Edit.ending` of the context as it stands: it shows the
abort's cause from the abort on, not from the end-of-edit write on, and none for an abort taken at OFF_HANDED, which R130
ends DONE. Table 7-1, R129 and R130 do not say when it is set: the model's choice (DESIGN CHOICE, log 60). -/
def State.editReport (s : State) : List Val :=
  let e := s.edit
  vCat [vOpt e.active (fun x => [.u 2 x.1, .raw (x.2.bytes s.fmt)]) 31, vOptU 1 (e.mode.map EditMode.code),
    [.u 1 e.phase.code, .u 1 e.involved.length], e.involved.map fun d => .u 1 (Deck.num d),
    [.u 2 e.preroll, .u 1 e.margin, .u 2 e.postroll, .u 1 e.onDelay, .u 1 e.offDelay, .u 1 e.playStart],
    vOptLab e.cueR, vOptLab e.cueA, vOptLab e.cueB,
    [.u 1 e.involved.length], e.involved.flatMap fun d => [vFlag e.acked[d.val], vFlag e.cued[d.val]],
    vOptI 3 e.offA, vOptI 3 e.offB, [vFlag e.syncPassed, .u 1 e.stage.code, .u 3 e.deadline, .u 1 e.stops.length],
    e.stops.map fun d => .u 1 (Deck.num d),
    [.u 1 e.warns.code], vCause e.abort, [vReason e.ending.2], vOptLab e.onFrame, vOptLab e.offFrame, vOptLab s.recNow]

/-- GET_EDIT (R135). -/
def execGetEdit (s : State) : Host.Outcome State Fault Refusal := takeRequest 0x2C s fun r s => s.ok r s.editReport

end Sys2Proof.Machine
end

