-- ==== Sys2Proof/Machine/Runs.lean ====
section
/-! DEFINITION. Chapter 8: the requests of the run cursor (R140, R143 to R147). -/

namespace Sys2Proof.Machine

/-- The fields that START_RUN gives a run (R140). -/
def runOf (ps : List Byte) (dir : Direction) (mode : EditMode) (policy : RunPolicy) : Run :=
  { Run.initial with
    first := some (natAt ps 0 2), last := some (natAt ps 2 2), dir := dir, mode := some mode, loop := flagAt ps 6
    policy := policy }

/-- Checks 1 to 4 of R140. -/
def State.runCheck (s : State) (x : Run) (low high : Nat) : Option Result :=
  if s.edit.phase ≠ .idle ∨ s.run.active then some .wrongState
  else if ¬rangeOk low high then some .noEvent
  else if x.loop ∧ x.mode ≠ some .preview then some .wrongState
  else if s.noReference x.mode then some .noReference
  else none

/-- START_RUN (R140); a direction, mode or policy that names nothing is refused first (R189, log 23). -/
def execStartRun (s : State) : Host.Outcome State Fault Refusal :=
  takeRequest 0x30 s fun r s =>
    let ps := r.params
    match Direction.ofCode (byteN ps 4), EditMode.ofCode (byteN ps 5), RunPolicy.ofCode (byteN ps 7) with
    | some dir, some mode, some policy =>
      let x := runOf ps dir mode policy
      match s.runCheck x (natAt ps 0 2) (natAt ps 2 2), x.search s.list.events none with
      | some why, _ => s.refuse r why
      | none, none => s.refuse r .noEvent
      | none, some n => { s.ok r [.u 2 n] with run := { x with st := s.run.st } }.runTake n .started
    | _, _, _ => s.refuse r .unknownRequest

/-- CONTINUE (R143). -/
def execContinueRun (s : State) : Host.Outcome State Fault Refusal :=
  takeRequest 0x31 s fun r s =>
    if s.run.st ≠ .held then s.refuse r .wrongState
    else match s.run.current with
      | none => s.refuse r .noEvent
      | some n =>
        if (s.list.get n).isNone then s.refuse r .noEvent
        else if s.noReference s.run.mode then s.refuse r .noReference
        else (s.ok r [.u 2 n]).runTake n .continued

/-- The held event becomes SKIPPED, when it is present (R144). -/
def Event.skipped (e : Event) : Event := { e with status := .skipped, failure := none }

/-- SKIP (R144). -/
def execSkipEvent (s : State) : Host.Outcome State Fault Refusal :=
  takeRequest 0x32 s fun r s =>
    if s.run.st ≠ .held then s.refuse r .wrongState
    else
      let s := s.ok r []
      let s := match s.run.current with
        | some n => { s with list := s.list.modify n Event.skipped }
        | none => s
      s.runAdvance

/-- PAUSE_RUN (R145). -/
def execPauseRun (s : State) : Host.Outcome State Fault Refusal :=
  takeRequest 0x33 s fun r s =>
    match s.run.st with
    | .executing => (s.ok r []).runMove { s.run with st := .pausing } .pauseRequested
    | .pausing => s.ok r []
    | .held => (s.ok r []).runMove { s.run with st := .idle, hold := none } .paused
    | .idle => s.refuse r .wrongState
    | .ended => s.refuse r .wrongState

/-- STOP_RUN (R146). -/
def execStopRun (s : State) : Host.Outcome State Fault Refusal :=
  takeRequest 0x34 s fun r s => if s.run.active then (s.ok r []).endRun .stopped else s.refuse r .wrongState

/-- The fields of Table 8-1 (R147). -/
def Run.report (x : Run) : List Val :=
  vCat [[.u 1 x.st.code], vOptU 2 x.first, vOptU 2 x.last, [.u 1 x.dir.code], vOptU 1 (x.mode.map EditMode.code),
    [vFlag x.loop, .u 1 x.policy.code], vOptU 2 x.current, vOptU 1 (x.hold.map HoldReason.code),
    [.u 2 x.started, .u 2 x.wraps]]

/-- GET_RUN (R147). -/
def execGetRun (s : State) : Host.Outcome State Fault Refusal := takeRequest 0x35 s fun r s => s.ok r s.run.report

end Sys2Proof.Machine
end

