-- ==== Sys2Proof/Machine/Transition.lean ====
section
/-! DEFINITION. Chapter 9: the transition engine and the mixer line (R148, R149, R151 to R153, R155 to R162, R191). -/

namespace Sys2Proof.Machine

/-! ## The completion swap (R152) -/

/-- A takes B's source, B becomes BLACK, the level 0; a cut swap sets the cut mark. -/
def Engine.swap (e : Engine) (k : SwapKind) : Engine :=
  { e with xa := e.xb, xb := .black, level := 0, form := .curve, k := 0, cutMark := e.cutMark || k == .cut }

/-- A report of the engine for the sequencer's plan: taken while the edit that handed the plan over lasts (R126, R154). -/
def State.engineReport (s : State) (f : Warnings → Warnings) : State := if s.engine.live then s.warn f else s

/-- MANUAL_TRANSITION is reported for the sequencer's plan (R126, R154). -/
def State.warnManual (s : State) : State := s.engineReport fun w => { w with manual := true }

/-! ## Curves (R153) -/

/-- M_k of a curve over 2D fields. -/
def curveLevel (c : Curve) (d k : Nat) : Nat :=
  match c with
  | .linear => roundHalfUp (1023 * k) (2 * d)
  | .s => roundHalfUp (1023 * k ^ 2 * (6 * d - 2 * k)) (8 * d ^ 3)

/-- The level of a take's field j from M0 over 2D fields. -/
def takeLevel (m0 d j : Nat) : Nat := m0 + roundHalfUp ((1023 - m0) * j) (2 * d)

/-- The duration of the run in progress, in frames. -/
def Engine.duration (e : Engine) : Nat :=
  match e.form with
  | .take _ d => d
  | .curve => (e.plan.map Plan.dur).getD 0

/-- The level of field k of the run in progress. -/
def Engine.levelAt (e : Engine) (k : Nat) : Nat :=
  match e.form with
  | .take m0 d => takeLevel m0 d k
  | .curve => match e.plan with
    | some p => curveLevel p.curve p.dur k
    | none => e.level

/-- A field start while RUNNING (R153). -/
def State.runField (s : State) : State :=
  let e := s.engine
  let k := e.k + 1
  if 2 * e.duration < k then s.engineMove { e.swap .curve with st := .idle } (.swap .curve)
  else { s with engine := { e with k := k, level := e.levelAt k } }

/-- The plan starts in this field (R151). -/
def State.planStart (s : State) (p : Plan) (late : Bool) : State :=
  let s := if late then s.engineReport fun w => { w with transLate := true } else s
  let e := s.engine
  let cause : TransCause := if late then .lateStart else .start
  match p.type with
  | .none => s
  | .cut =>
    let e : Engine := { e.swap .cut with st := .idle }
    (s.engineMove e cause).engineMove e (.swap .cut)
  | .mix => s.engineMove { e with st := .running, k := 1, level := curveLevel p.curve p.dur 1 } cause
  | .wipe => s.engineMove { e with st := .running, k := 1, level := curveLevel p.curve p.dur 1 } cause

/-- The plan start test with recorder frame f (R151). -/
def State.startTest (s : State) (f : Option Nat) : State :=
  match s.engine.plan, f with
  | some p, some n =>
    match p.start with
    | some x => if 0 ≤ s.fmt.d n x ∧ p.type ≠ .none then s.planStart p (1 ≤ s.fmt.d n x) else s
    | none => s
  | _, _ => s

/-- A field start at the engine: the pending cut, the plan start test, or the run (R151, R153, R155). -/
def State.engineField (s : State) (x : FieldStart) : State :=
  match s.engine.st with
  | .idle => if s.engine.pendCut then s.engineMove { s.engine.swap .cut with pendCut := false } (.swap .cut) else s
  | .armed => if x.field2 then s else s.startTest (s.recFrame (x.frame * s.fmt.lpf))
  | .running => s.runField
  | .held => s
  | .manual => s

/-- TRANSITION_FIELD_START (R153). -/
def execTransitionFieldStart (s : State) : Host.Outcome State Fault Refusal :=
  running s fun s =>
    match s.due.engine with
    | [] => s
    | x :: xs => { s with due := { s.due with engine := xs } }.engineField x

/-! ## Requests of the engine -/

/-- SET_ROUTING (R148). -/
def execSetRouting (s : State) : Host.Outcome State Fault Refusal :=
  takeRequest 0x38 s fun r s =>
    let v : Vector Nat 10 := Vector.ofFn fun i => clamp 0 31 (byteN r.params i.val)
    { s with engine := { s.engine with routing := v } }.ok r [.raw (v.toList.map (BitVec.ofNat 8))]

/-- A transition type as a plan's. -/
def TransType.plan : TransType → PlanType
  | .cut => .cut
  | .mix => .mix
  | .wipe => .wipe

/-- The prepared plan on line in IDLE (R149, R155). -/
def Engine.showPrepared (e : Engine) (p : Prepared) : Engine :=
  { e with xa := p.a, xb := p.b, effect := p.type.plan.effect p.pattern e.effect }

/-- PREPARE_TRANSITION (R149); it clears a pending cut (R155). -/
def execPrepareTransition (s : State) : Host.Outcome State Fault Refusal :=
  takeRequest 0x39 s fun r s =>
    let ps := r.params
    match TransType.ofCode (byteN ps 0), Curve.ofCode (byteN ps 1), VideoSource.ofCode (byteN ps 4),
      VideoSource.ofCode (byteN ps 5) with
    | some t, some c, some a, some b =>
      let p : Prepared := { type := t, curve := c, pattern := { num := clamp 0 31 (byteN ps 2), rev := flagAt ps 3 }, a, b }
      let e : Engine := { s.engine with prepared := some p, pendCut := false }
      let e := if e.st = .idle then e.showPrepared p else e
      { s with engine := e }.ok r [.u 1 t.code, .u 1 c.code, .u 1 p.pattern.num, vFlag p.pattern.rev, .u 1 a.code,
        .u 1 b.code]
    | _, _, _, _ => s.refuse r .unknownRequest

/-- The plan that a take of the prepared plan makes (R155). Its preview flag is clear: the model's choice (log 54). -/
def Prepared.plan (p : Prepared) (d : Nat) : Plan :=
  { type := p.type.plan, curve := p.curve, dur := d, pattern := p.pattern, a := p.a, b := p.b, start := none
    owner := .link, preview := false }

/-- A take from a level that is held or in the lever's hand (R155); the plan is the host's from then on (log 24). Where no plan
is held the take makes none, and its owner has no field to stand in: the model's choice (log 54). All else of the plan is kept,
with a former SEQUENCER plan its start frame and preview flag too, though Table 9-2 gives a start frame to SEQUENCER plans
only, and the plan's own duration: the model's choices (DESIGN CHOICE, log 69). -/
def Engine.take (e : Engine) (d : Nat) : Engine :=
  { e with
    st := .running, form := .take e.level d, k := 0, pickup := false
    plan := e.plan.map fun p => { p with owner := .link } }

/-- AUTO_TAKE (R155). -/
def execAutoTake (s : State) : Host.Outcome State Fault Refusal :=
  takeRequest 0x3A s fun r s =>
    let d := clamp 1 999 (natAt r.params 0 2)
    let e := s.engine
    let vals : List Val := [.u 2 d]
    match e.st with
    | .manual => (s.ok r vals).engineMove (e.take d) .take
    | .held => (s.ok r vals).engineMove (e.take d) .take
    | .armed => s.refuse r .wrongState
    | .running => s.refuse r .wrongState
    | .idle =>
      match e.prepared with
      | none => s.refuse r .wrongState
      | some p =>
        if e.pendCut then s.refuse r .wrongState
        else
          let e : Engine := { e.showPrepared p with plan := some (p.plan d), level := 0, form := .curve, k := 0 }
          match p.type with
          | .cut => { s with engine := { e with pendCut := true } }.ok r vals
          | .mix => (s.ok r vals).engineMove { e with st := .running } .take
          | .wipe => (s.ok r vals).engineMove { e with st := .running } .take

/-- CUT_NOW (R158); it clears a pending cut (R155). -/
def execCutNow (s : State) : Host.Outcome State Fault Refusal :=
  takeRequest 0x3B s fun r s =>
    let e := s.engine
    if e.st = .armed then s.refuse r .wrongState
    else
      let s := if e.st = .running ∧ e.seqPlan then s.warnManual else s
      (s.ok r []).engineMove { e.swap .cut with st := .idle, pickup := false, pendCut := false } (.swap .cut)

/-- RESET_TRANSITION (R159): an ARMED or RUNNING plan of the sequencer is abandoned. -/
def execResetTransition (s : State) : Host.Outcome State Fault Refusal :=
  takeRequest 0x3C s fun r s =>
    let e := s.engine
    let abandoned := (e.st == .armed || e.st == .running) && e.seqPlan
    let s := if abandoned then s.warnManual else s
    let new : Engine := { e with
      st := .idle, level := 0, k := 0, pickup := false, form := .curve, pendCut := false
      plan := if abandoned then none else e.plan }
    let s := s.ok r []
    if e.st = .idle then { s with engine := new } else s.engineMove new .reset

/-- The mapped value of a lever position under a sense (R156). -/
def mapLever (inverted : Bool) (p : Nat) : Nat := if inverted then 1023 - p else p

/-- The lever picks up the level m when it goes from V0 to V (R156). -/
def picksUp (v0 v m : Nat) : Bool :=
  (v0 < m && m < v) || (v < m && m < v0) || (v == m && v0 != m) || (v0 == m && v != m)

/-- A pick-up (R156); it clears a pending cut (R155). -/
def State.pickUp (s : State) (v : Nat) : State :=
  let e := s.engine
  let s := if e.st = .running ∧ e.seqPlan then s.warnManual else s
  { s with engine := { e with st := .manual, pickup := true, level := v, k := 0, pendCut := false } }.enter .leverPickup 0
    [.u 1 e.st.code, .u 2 v, .u 2 e.level]

/-- A lever message in MANUAL: the level follows; at 1023 the manual swap with its notice, and then the sense flips
(R157). -/
def State.manualLever (s : State) (v : Nat) : State :=
  let e := s.engine
  if v = 1023 then
    let s := s.engineMove (e.swap .manual) (.swap .manual)
    { s with engine := { s.engine with inverted := !e.inverted, mapped := 0 } }
  else { s with engine := { e with level := v } }

/-- A lever message (R156, R157). -/
def State.moveLever (s : State) (p : Nat) : State :=
  let v0 := s.engine.mapped
  let v := mapLever s.engine.inverted p
  let s := { s with engine := { s.engine with lever := p, mapped := v } }
  match s.engine.st with
  | .armed => s
  | .manual => s.manualLever v
  | _ => if picksUp v0 v s.engine.level then s.pickUp v else s

/-- LEVER (R156). The V of the reply is the last mapped value as it stands after the message. -/
def execLever (s : State) : Host.Outcome State Fault Refusal :=
  takeRequest 0x3D s fun r s =>
    let p := clamp 0 1023 (natAt r.params 0 2)
    let s := s.moveLever p
    s.ok r [.u 2 p, .u 2 s.engine.mapped, .u 2 s.engine.level, .u 1 s.engine.st.code]

/-- The mixer input of a source (R148). -/
def Engine.input (e : Engine) (x : VideoSource) : Nat := e.routing.toList.getD x.code 0

/-- A plan as GET_TRANSITION gives it (Table 9-2). -/
def Plan.vals (p : Plan) : List Val :=
  vCat [[.u 1 p.type.code, .u 1 p.curve.code, .u 2 p.dur, .u 1 p.pattern.num, vFlag p.pattern.rev, .u 1 p.a.code,
    .u 1 p.b.code], vOptLab p.start, [.u 1 p.owner.planCode, vFlag p.preview]]

/-- A prepared plan as GET_TRANSITION gives it (Table 9-2). -/
def Prepared.vals (p : Prepared) : List Val :=
  [.u 1 p.type.code, .u 1 p.curve.code, .u 1 p.pattern.num, vFlag p.pattern.rev, .u 1 p.a.code, .u 1 p.b.code]

/-- The run form: 0 CURVE or 1 TAKE, then M0 as an optional value (Table 9-2, R187, log 30). Table 9-2 has a duration in the plan
alone: GET_TRANSITION shows that of the plan during a take, and the take's own D nowhere. The model's choice (DESIGN CHOICE, log
69). -/
def RunForm.vals : RunForm → List Val
  | .curve => .u 1 0 :: vOptU 2 none
  | .take m0 _ => .u 1 1 :: vOptU 2 (some m0)

/-- The values of GET_TRANSITION (R160). -/
def State.transitionReport (s : State) : List Val :=
  let e := s.engine
  vCat [[.u 1 e.st.code], vOpt e.plan Plan.vals 15, vOpt e.prepared Prepared.vals 6, e.form.vals,
    [.u 2 e.k, .u 2 e.level, .u 1 e.xa.code, .u 1 e.xb.code], e.effect.vals,
    [vFlag e.cutMark, vFlag e.pendCut, .u 2 e.lever, .u 2 e.mapped, vFlag e.inverted, vFlag e.pickup, vFlag e.preview,
      .raw (e.routing.toList.map (BitVec.ofNat 8)), .u 1 (e.input e.xa), .u 1 (e.input e.xb), .u 1 s.mixer.offset],
    vOptU 1 s.mixer.pendOff]

/-- GET_TRANSITION (R160). -/
def execGetTransition (s : State) : Host.Outcome State Fault Refusal :=
  takeRequest 0x3E s fun r s => s.ok r s.transitionReport

/-! ## The mixer line (R161, R162, R191) -/

/-- A field start opens the field's record and drops a predecessor not assembled; a frame start makes the pending offset
current, the first that this block takes after the request, be it issued before (the model's choice, log 63). -/
def Mixer.field (m : Mixer) (x : FieldStart) : Mixer :=
  if x.field2 then { m with opened := some 2 }
  else { m with opened := some 1, offset := m.pendOff.getD m.offset, pendOff := none }

/-- MIXER_FIELD_START (R161). -/
def execMixerFieldStart (s : State) : Host.Outcome State Fault Refusal :=
  running s fun s =>
    match s.due.mixer with
    | [] => s
    | x :: xs => { s with due := { s.due with mixer := xs }, mixer := s.mixer.field x }

/-- The field record of a field (R161, R191). -/
def Engine.record (e : Engine) (field : Nat) : List Byte :=
  let kind := if e.cutMark then 0 else match e.effect with
    | .mix => 1
    | .wipe _ => 2
  let pattern := if e.cutMark then 0 else match e.effect with
    | .mix => 0
    | .wipe p => p.code
  fieldRecord field (e.input e.xa) (e.input e.xb) e.level kind pattern e.preview

/-- The send line of the open record has been reached, and no later field start is owed (R161, log 11). -/
def State.sendLine (s : State) (field : Nat) : Bool :=
  s.due.mixer.isEmpty && s.fmt.firstLine (field == 2) + s.mixer.offset ≤ s.ref.line

/-- MIXER_SEND_LINE: the record is assembled and sent, clearing the cut mark (R161). -/
def execMixerSendLine (s : State) : Host.Outcome State Fault Refusal :=
  running s fun s =>
    match s.mixer.opened with
    | none => s
    | some n =>
      if s.sendLine n then
        { s with
          mixer := { s.mixer with opened := none, tx := s.engine.record n }, engine := { s.engine with cutMark := false } }
      else s

/-- SET_MIXER_SEND_LINE (R162). -/
def execSetMixerSendLine (s : State) : Host.Outcome State Fault Refusal :=
  takeRequest 0x3F s fun r s =>
    let n := clamp 1 20 (byteN r.params 0)
    { s with mixer := { s.mixer with pendOff := some n } }.ok r [.u 1 n]

end Sys2Proof.Machine
end

