-- ==== Sys2Proof/Machine/GpiUnit.lean ====
section
/-! DEFINITION. Chapter 10: judging and firing the schedule, outputs and pulses, GPI_SET and GET_GPI (R164 to R171). -/

namespace Sys2Proof.Machine

/-! ## Outputs and pulses (R168) -/

/-- Output o. -/
def Gpi.out (g : Gpi) (o : GpiNo) : GpiOut := g.outs[o.val]

/-- Output o replaced. -/
def Gpi.setOut (g : Gpi) (o : GpiNo) (x : GpiOut) : Gpi := { g with outs := g.outs.set o.val x }

/-- An action at a house line; a pulse skips the frame starts already issued to the unit (R168, log 22). -/
def GpiOut.act (a : GpiAction) (line owed : Nat) (o : GpiOut) : GpiOut :=
  match a with
  | .on => { o with on := true, pulse := none }
  | .off => { o with on := false, pulse := none }
  | .pulse n => { o with on := true, pulse := some { left := n, endLine := line, skip := owed } }

/-- The pulse ends: the output goes off. -/
def GpiOut.finish (_ : GpiOut) : GpiOut := { on := false, pulse := none }

/-- A running pulse at a frame start at a house line (R168). -/
def GpiOut.frameStart (line : Nat) (o : GpiOut) : GpiOut :=
  match o.pulse with
  | none => o
  | some p =>
    if 0 < p.skip then { o with pulse := some { p with skip := p.skip - 1 } }
    else if p.left = 0 then o.finish
    else if p.left = 1 ∧ p.endLine ≤ line then o.finish
    else { o with pulse := some { p with left := p.left - 1 } }

/-! ## Firing (R166, R167) -/

/-- The content of a GPI_TRIGGER notice (R170). -/
def GpiEntry.noticeContent (x : GpiEntry) (r : GpiResult) (judged : Nat) : List Val :=
  vCat [[.u 1 r.code, .u 2 x.event, .u 1 x.place, .lab x.due, .u 2 x.line, .u 1 x.action.code], vOptU 1 x.action.len,
    [.lab judged]]

/-- A GPI_TRIGGER notice of the entry's output. -/
def State.gpiNotice (s : State) (x : GpiEntry) (r : GpiResult) (judged : Nat) : State :=
  s.enter .gpiTrigger (x.output.val + 1) (x.noticeContent r judged)

/-- The entry fires at a house line: action, GPI_LATE, notice (R167); its removal is the caller's. -/
def State.fire (s : State) (x : GpiEntry) (line judged : Nat) : State :=
  let o := (s.gpi.out x.output).act x.action line s.due.gpi
  let s := { s with gpi := s.gpi.setOut x.output o }
  let s := if x.late then s.warn fun w => { w with gpiLate := true } else s
  s.gpiNotice x (if x.late then .late else .fired) judged

/-- The entry is missed (R165). -/
def State.miss (s : State) (x : GpiEntry) (judged : Nat) : State :=
  (s.warn fun w => { w with gpiMissed := true }).gpiNotice x .missed judged

/-- What becomes of an entry at a frame start with recorder frame f, at a house line: the state, and the entry if it stays
(R165, R166). An entry marked in an earlier frame was judged on its due frame: it fires at once, at a frame start without a
recorder position too (the model's choice, log 45). -/
def State.judge (line : Nat) (f : Option Nat) (s : State) (x : GpiEntry) : State × Option GpiEntry :=
  if x.inFrame then (s.fire { x with late := true } line x.due, none)
  else match f with
    | none => (s, some x)
    | some n =>
      let d := s.fmt.d n x.due
      if d < 0 then (s, some x)
      else if d = 0 then
        if x.line ≤ line then (s.fire { x with inFrame := true } line n, none) else (s, some { x with inFrame := true })
      else if d ≤ 2 then (s.fire { x with late := true } line n, none)
      else (s.miss x n, none)

/-- The schedule judged in schedule order, with the entries that stay. -/
def State.judgeAll (line : Nat) (f : Option Nat) : List GpiEntry → State → State × List GpiEntry
  | [], s => (s, [])
  | x :: xs, s =>
    let a := s.judge line f x
    let b := State.judgeAll line f xs a.1
    (b.1, a.2.toList ++ b.2)

/-- The house line that a block taking the first of k owed frame starts acts at: the present one when no later frame start is
owed, else line 1 (log 11). -/
def State.lineAt (s : State) (k : Nat) : Nat := if k ≤ 1 then s.ref.line else 1

/-- A frame start at the GPI unit: pulses first, then the schedule (R165, R168). -/
def State.gpiFrame (s : State) : State :=
  let k := s.due.gpi
  let line := s.lineAt k
  let f := s.recFrame (s.startInstant k)
  let s := { s with
    due := { s.due with gpi := k - 1 }, gpi := { s.gpi with outs := s.gpi.outs.map (GpiOut.frameStart line) } }
  let x := State.judgeAll line f s.gpi.sched s
  { x.1 with gpi := { x.1.gpi with sched := x.2 } }

/-- GPI_FRAME_START (R165). -/
def execGpiFrameStart (s : State) : Host.Outcome State Fault Refusal :=
  running s fun s => if 0 < s.due.gpi then s.gpiFrame else s

/-- An entry whose mark is set and whose line the house line has reached (R166). -/
def GpiEntry.ripe (line : Nat) (x : GpiEntry) : Bool := x.inFrame && x.line ≤ line

/-- GPI_LINE_FIRE: the first such entry in schedule order fires (R166); a frame start still owed is taken first (log 11). -/
def execGpiLineFire (s : State) : Host.Outcome State Fault Refusal :=
  running s fun s =>
    match s.gpi.sched.find? (GpiEntry.ripe s.ref.line) with
    | none => s
    | some x =>
      if s.due.gpi = 0 then
        { s with gpi := { s.gpi with sched := s.gpi.sched.eraseP (GpiEntry.ripe s.ref.line) } }.fire x s.ref.line x.due
      else s

/-- A pulse whose count has reached 0 has its end line reached (R168). -/
def Pulse.over (p : Pulse) (line : Nat) : Bool := p.left == 0 && p.endLine ≤ line

/-- GPI_PULSE_END (R168). -/
def execGpiPulseEnd (o : GpiNo) (s : State) : Host.Outcome State Fault Refusal :=
  running s fun s =>
    let x := s.gpi.out o
    if s.due.gpi = 0 ∧ x.pulse.any (·.over s.ref.line) then { s with gpi := s.gpi.setOut o x.finish } else s

/-! ## Requests (R169, R170) -/

/-- A running pulse as replies give it. -/
def Pulse.vals (p : Pulse) : List Val := [.u 1 p.left, .u 2 p.endLine]

/-- An output's level and running pulse. The level of Table 10-1 travels as a flag, 1 for on and 0 for off, and not as an
enumerated value: the model's choice (log 30). -/
def GpiOut.vals (o : GpiOut) : List Val := vFlag o.on :: vOpt o.pulse Pulse.vals 3

/-- GPI_SET: output, action, and a pulse length as an optional value (R169). The presence byte is not judged: a PULSE takes the
length byte as sent, clamped, with presence 0 too (the model's choice, log 30). -/
def execGpiSet (s : State) : Host.Outcome State Fault Refusal :=
  takeRequest 0x40 s fun r s =>
    match gpiOf (byteN r.params 0), GpiAction.ofCode (clamp 1 25 (byteN r.params 3)) (byteN r.params 1) with
    | some o, some a =>
      let x := (s.gpi.out o).act a s.ref.line s.due.gpi
      { s with gpi := s.gpi.setOut o x }.ok r x.vals
    | _, _ => s.refuse r .unknownRequest

/-- A schedule entry as GET_GPI gives it, in the order of Table 10-1 (log 30). -/
def GpiEntry.vals (x : GpiEntry) : List Val :=
  vCat [[.u 1 (x.output.val + 1), .lab x.due, .i 3 x.offset, .u 2 x.line, .u 1 x.action.code], vOptU 1 x.action.len,
    [.u 2 x.event, .u 1 x.place, vFlag x.inFrame, vFlag x.late]]

/-- The values of GET_GPI (R170). The six tallies travel as one set in one byte, deck 1 in bit 0, and not as six flags: the
model's choice (log 30). -/
def State.gpiReport (s : State) : List Val :=
  vCat [s.gpi.outs.toList.flatMap GpiOut.vals, [.u 1 s.gpi.sched.length], s.gpi.sched.flatMap GpiEntry.vals,
    [.u 1 s.tallies]]

/-- GET_GPI (R170). -/
def execGetGpi (s : State) : Host.Outcome State Fault Refusal := takeRequest 0x41 s fun r s => s.ok r s.gpiReport

end Sys2Proof.Machine
end

