-- ==== Sys2Proof/Machine/Link.lean ====
section
/-! DEFINITION. Chapter 11: the receive side, the outbound path, the silence timer, and the requests of the link
(R173 to R176, R178 to R184, R186). -/

namespace Sys2Proof.Machine

/-! ## The receive side (R173, R174) -/

/-- A damaged frame: the receive side hunts, and FRAME_ERROR is made with tag 0. -/
def State.damagedFrame (s : State) : State :=
  { s with link := { s.link with rx := .hunting } }.linkReply 0 0 .frameError

/-- The silence timer restarts at t (R180). -/
def Link.restartSilence (l : Link) (t : Time) : Link := { l with restartAt := t, expired := false, stopTaken := false }

/-- A valid frame at t: the silence timer restarts; the request joins the input queue, or is answered BUSY (R173, R174). -/
def State.validFrame (s : State) (t : Time) (r : Request) : State :=
  let s := { s with link := { s.link.restartSilence t with rx := .hunting } }
  if s.link.resetPending ∨ 4 ≤ s.link.input.length then s.linkReply r.kind r.tag .busy
  else { s with link := { s.link with input := s.link.input ++ [r] } }

/-- The request that a whole frame's bytes after the lead byte spell: length, kind, tag, parameters, check. -/
def requestOf (bs : List Byte) : Request :=
  { kind := bs.getD 1 0, tag := bs.getD 2 0, params := (bs.drop 3).dropLast }

/-- A whole frame is valid: its bytes from length to check sum to 0, and its tag is not 0 (R173). -/
def frameValid (bs : List Byte) : Bool := bs.foldl (· + ·) 0 == 0 && bs.getD 2 0 != 0

/-- A byte taken from the control link at t (R173). -/
def State.linkByte (t : Time) (s : State) (b : Byte) : State :=
  match s.link.rx with
  | .hunting => if b = 0xA5 then { s with link := { s.link with rx := .frame [], byteAt := t } } else s
  | .frame bs =>
    let bs := bs ++ [b]
    let n := byteN bs 0
    let s := { s with link := { s.link with rx := .frame bs, byteAt := t } }
    if n < 3 ∨ 250 < n then s.damagedFrame
    else if bs.length ≤ n then s
    else if frameValid bs then s.validFrame t (requestOf bs)
    else s.damagedFrame

/-- FRAME_RECEIVED: bytes taken from the control link at t (R173; log 8). -/
def execFrameReceived (bytes : List Byte) (t : Time) (s : State) : Host.Outcome State Fault Refusal :=
  timed s t fun s => bytes.foldl (State.linkByte t) s

/-- LINK_GAP_TIMEOUT: 20 ms without a byte inside a frame (R173). -/
def execLinkGapTimeout (t : Time) (s : State) : Host.Outcome State Fault Refusal :=
  timed s t fun s =>
    match s.link.rx with
    | .hunting => s
    | .frame _ => if s.link.byteAt + ms 20 ≤ t then s.damagedFrame else s

/-- UNKNOWN_REQUEST: the kind of the request at the head names no request (R175). -/
def execUnknownRequest (s : State) : Host.Outcome State Fault Refusal :=
  running s fun s =>
    match s.head with
    | some r => if (paramCount r.kind.toNat).isNone then s.dropHead.refuse r .unknownRequest else s
    | none => s

/-! ## The outbound path (R176, R178) -/

/-- OUTBOUND_SEND: the oldest waiting reply, else the first notice, which leaves the table (R176, R178; log 11). -/
def execOutboundSend (s : State) : Host.Outcome State Fault Refusal :=
  running s fun s =>
    match s.link.replies, s.link.notices with
    | r :: rs, _ =>
      { s with link := { s.link with replies := rs, tx := [r.frame s.fmt s.clock.offset], okAhead := s.link.okAhead - 1 } }
    | [], n :: ns => { s with link := { s.link with notices := ns, tx := [n.frame s.fmt s.clock.offset] } }
    | [], [] => s

/-! ## The silence timer (R180, R181) -/

/-- SILENCE_TIMEOUT: the silence limit has passed since the latest restart (R180). -/
def execSilenceTimeout (t : Time) (s : State) : Host.Outcome State Fault Refusal :=
  timed s t fun s =>
    if ¬s.link.expired ∧ s.link.restartAt + ms s.link.limit ≤ t then
      { s with link := { s.link with expired := true } }.silenceCheck
    else s

/-- SET_SILENCE_LIMIT (R181). -/
def execSetSilenceLimit (s : State) : Host.Outcome State Fault Refusal :=
  takeRequest 0x4B s fun r s =>
    if (s.port s.recorder).standing then s.refuse r .wrongState
    else
      let n := clamp 200 10000 (natAt r.params 0 2)
      { s with link := { s.link with limit := n } }.ok r [.u 2 n]

/-! ## SET_FORMAT (R17, R182) -/

/-- SET_FORMAT is refused: an edit, an active run, or a chase (R182). -/
def State.formatRefused (s : State) : Bool :=
  s.edit.phase != .idle || s.run.active || decks.any fun d => (s.chan d).st != .idle

/-- A field start's frame within a new day length. -/
def FieldStart.reduce (f : SuiteFormat) (x : FieldStart) : FieldStart := { x with frame := x.frame % f.dayLen }

/-- The starts owed after a format change: those owed before, and the frame start of frame 0, which the house clock takes
as setting frame 0 (R29, log 5). -/
def Due.restart (d : Due) (f : SuiteFormat) : Due :=
  { Due.frameStart { d with engine := d.engine.map (·.reduce f), mixer := d.mixer.map (·.reduce f) } 0 with clock := 0 }

/-- The frame number of a waiting LOCATE within a new day length (R17). -/
def DeckCmd.reduce (f : SuiteFormat) : DeckCmd → DeckCmd
  | .locate n => .locate (n % f.dayLen)
  | c => c

/-- A port's commands, waiting or in flight, in a new format (R17). -/
def Port.reduce (f : SuiteFormat) (p : Port) : Port :=
  { p with
    seqSlot := { first := p.seqSlot.first.map (DeckCmd.reduce f), second := p.seqSlot.second.map (DeckCmd.reduce f) }
    servo := p.servo.map fun c => { c with cmd := c.cmd.reduce f }
    pass := p.pass.map fun c => { c with cmd := c.cmd.reduce f }
    flight := p.flight.map fun x => { x with cmd := x.cmd.reduce f } }

/-- A waiting reply of the old format in a new one: a house instant it holds is brought into the new day (R17, log 43). -/
def Reply.reduce (f : SuiteFormat) (r : Reply) : Reply := { r with vals := r.vals.map (Val.reduce f) }

/-- A notice of the old format in a new one (R17). -/
def Notice.reduce (f : SuiteFormat) (n : Notice) : Notice :=
  { n with stamp := n.stamp % f.dayLen, content := n.content.map (Val.reduce f) }

/-- A plan's start frame within a new day length (R17). -/
def Plan.reduce (f : SuiteFormat) (p : Plan) : Plan := { p with start := p.start.map (· % f.dayLen) }

/-- Every block but the readers in the new format, before the notices of the change (R17, R29, R73, R110, R163, R172). -/
def State.toFormat (s : State) (f : SuiteFormat) : State :=
  { s with
    fmt := f, ref := RefUnit.restart s.now, clock := HouseClock.initial, due := s.due.restart f
    ports := s.ports.map (Port.reduce f), list := { s.list with events := [] }
    engine := { s.engine with plan := s.engine.plan.map (Plan.reduce f) }
    set := { s.set with unlockWin := min s.set.unlockWin f.lpf }
    link := { s.link with
      notices := s.link.notices.map (Notice.reduce f), replies := s.link.replies.map (Reply.reduce f) } }

/-- A HELLO notice (R185). -/
def State.hello (s : State) (c : HelloCause) : State :=
  s.enter .hello 0 (helloContent c s.fmt s.recorder s.list.events.length)

/-- The format change with its notices: REFERENCE_STATE, READER_STATE of each reader with a source, HELLO (R182). The READER_STATE
entries are made for decks 1 to 6 in turn: the model's choice (log 55). R47 does not say whether such an entry shows the reader
before or after it takes the values of Table 3-2: it shows it after, but for the old source (DESIGN CHOICE, log 65). -/
def State.changeFormat (s : State) (f : SuiteFormat) : State :=
  let s := s.toFormat f
  let s := s.enter .referenceState 0 (refContent .acquiring none none (some .restart))
  let s := decks.foldl (fun s d => s.readerSource d (Reader.initial f) .restart) s
  s.hello .format

/-- SET_FORMAT (R182). -/
def execSetFormat (s : State) : Host.Outcome State Fault Refusal :=
  takeRequest 0x48 s fun r s =>
    match SuiteFormat.ofCode (byteN r.params 0) with
    | none => s.refuse r .unknownRequest
    | some f => if s.formatRefused then s.refuse r .wrongState else (s.changeFormat f).ok r [.u 1 f.code]

/-! ## The other settings and reports (R179, R183, R186) -/

/-- SET_RECORDER (R183, R94). -/
def execSetRecorder (s : State) : Host.Outcome State Fault Refusal :=
  takeRequest 0x49 s fun r s =>
    match deckOf (byteN r.params 0) with
    | none => s.refuse r .noDeck
    | some d =>
      if s.edit.phase ≠ .idle then s.refuse r .wrongState
      else ({ s with link := { s.link with recorder := d } }.clearLink d .cancelled).ok r [.u 1 (Deck.num d)]

/-- The link with a new mask: entries of the kinds newly masked leave the table (R179). -/
def Link.setMask (l : Link) (m : BitVec 13) : Link :=
  let new := { l with mask := m }
  { new with notices := l.notices.filter fun n => l.masked n.kind || !new.masked n.kind }

/-- SET_NOTICE_MASK (R179). -/
def execSetNoticeMask (s : State) : Host.Outcome State Fault Refusal :=
  takeRequest 0x4A s fun r s =>
    let m := maskOf (natAt r.params 0 2)
    { s with link := s.link.setMask m }.ok r [.u 2 m.toNat]

/-- The values of GET_LINK_STATUS (R186); times in whole ms. -/
def State.linkReport (s : State) : List Val :=
  let l := s.link
  [.u 1 s.fmt.code, .u 1 (Deck.num l.recorder), .u 2 l.mask.toNat, .u 2 l.limit,
    .u 2 (sat16 ((s.now - l.restartAt) / ms 1)), .u 1 l.input.length, .u 1 s.places, .u 1 l.notices.length,
    .u 2 l.dropped, .u 1 Config.revision]

/-- GET_LINK_STATUS (R186). -/
def execGetLinkStatus (s : State) : Host.Outcome State Fault Refusal :=
  takeRequest 0x4D s fun r s => s.ok r s.linkReport

/-! ## SOFT_RESET (R184) -/

/-- The decks on which a safe stop posts: the recorder, then every other deck that is claimed and not DISABLED, in number order.
That order, and with it the order of the ABORTED replies to the PASS commands removed, is the model's choice (log 55). -/
def State.safeDecks (s : State) : List Deck :=
  s.recorder :: decks.filter fun d =>
    d != s.recorder && (s.port d).claim != .free && (s.port d).presence != .disabled

/-- The safe stop begins. -/
def State.beginSafeStop (s : State) : State :=
  let ds := s.safeDecks
  ds.foldl (fun s d => s.postEmergency d false true) { s with link := { s.link with safe := some ds } }

/-- SOFT_RESET: OK, reset pending, the requests behind it discarded; a safe stop when record stands (R184). -/
def execSoftReset (s : State) : Host.Outcome State Fault Refusal :=
  takeRequest 0x4C s fun r s =>
    let s := s.ok r []
    let s := { s with link := { s.link with resetPending := true, input := [], okAhead := s.link.replies.length } }
    if (s.port s.recorder).standing then s.beginSafeStop else s

end Sys2Proof.Machine
end

