-- ==== Sys2Proof/Machine/Resets.lean ====
section
/-! DEFINITION. The resets: supply, the reset line, and the effect of a soft reset (R29, R47, R72, R95, R110, R136, R137,
R163, R172, R184, R185). -/

namespace Sys2Proof.Machine

/-- POWER_ON: every block takes its power-on values (R185). -/
def execPowerOn (s : State) : Host.Outcome State Fault Refusal := .next (State.powerOn s.pending)

/-- RESET_LINE_ASSERT: transmission stops, the GPI outputs go off, a soft reset is abandoned; until the release nothing is
taken (R184, R185; log 10). -/
def execResetLineAssert (s : State) : Host.Outcome State Fault Refusal :=
  .next { s with
    asserted := true, ports := s.ports.map fun p => { p with tx := [], flight := none }
    mixer := { s.mixer with tx := [] }, gpi := Gpi.initial
    link := { s.link with tx := [], resetPending := false, okAhead := 0, safe := none } }

/-- The kept fields of a held event at the reset line (Table 6-6). -/
def Event.lineReset (e : Event) : Event := Event.fresh e.fields

/-- The list after the reset line: held when the format was F25 (R110). -/
def State.listKept (s : State) : EventList :=
  { EventList.initial with
    events := if s.fmt = .f25 then s.list.events.map fun x => (x.1, x.2.lineReset) else [] }

/-- Every block at its reset-line values at t (R185). -/
def State.lineReset (s : State) (t : Time) : State :=
  let list := s.listKept
  { State.powerOn s.pending with
    now := s.now, ref := RefUnit.restart t, list := list, link := Link.initial .resetLine list.events.length t }

/-- RESET_LINE_RELEASE: the part enters operation (R185). A line that is not asserted is not released. -/
def execResetLineRelease (t : Time) (s : State) : Host.Outcome State Fault Refusal :=
  .next (if s.asserted then (s.tick t).lineReset t else s)

/-! ## The effect of a soft reset (R184) -/

/-- A pending soft reset takes effect: its OK is sent, and its safe stop complete or none begun. -/
def Link.resetReady (l : Link) : Bool := l.resetPending && l.okAhead == 0 && l.safe.all List.isEmpty

/-- The PASS commands of a port, in flight and waiting, answered ABORTED (R72), the one in flight first: the model's choice (log
55). -/
def State.abortPass (s : State) (d : Deck) : State :=
  let p := s.port d
  let s := match p.flight with
    | some { cmd, origin := .pass kind tag } => s.passAborted { cmd, kind, tag }
    | _ => s
  match p.pass with
  | some c => s.passAborted c
  | none => s

/-- A deck port after a soft reset: a command in transmission finishes its bytes (Table 4-9). The hold of a window that the
reset closes is dropped with the window, so that IDENTIFY is served at once: the model's choice (log 44). -/
def Port.softReset (p : Port) : Port :=
  { Port.initial with
    enabled := p.enabled, presence := if p.enabled then .absent else .disabled
    line := if p.line = .sending then .sending else .idle, tx := p.tx }

/-- The control link after a soft reset at t, its waiting replies sent (R184, Table 11-2). -/
def Link.softReset (l : Link) (t : Time) (sent : List (List Byte)) : Link :=
  { l.restartSilence t with
    rx := .hunting, input := [], replies := [], dropped := 0, notices := [], resetPending := false, okAhead := 0
    safe := none, tx := sent }

/-- The blocks take their soft-reset values (Tables 3-2, 4-9, 5-5, 6-6, 7-6, 8-1, 9-4, 10-2, 11-2). -/
def State.softValues (s : State) (t : Time) : State :=
  { s with
    readers := Vector.replicate 6 (Reader.initial s.fmt), ports := s.ports.map Port.softReset
    chase := s.chase.map fun c => Channel.idle s.set.lead (c.gen + 1) c.loc
    list := { s.list with active := none }, edit := Edit.idle, run := Run.initial
    engine := Engine.initial s.engine.routing, mixer := { s.mixer with opened := none }, gpi := Gpi.initial
    link := s.link.softReset t (s.link.replies.map fun r => r.frame s.fmt s.clock.offset) }

/-- SOFT_RESET_EFFECT (R184). The ABORTED replies to the PASS commands are made for decks 1 to 6 in turn: the model's choice (log
55). -/
def execSoftResetEffect (t : Time) (s : State) : Host.Outcome State Fault Refusal :=
  timed s t fun s =>
    if s.link.resetReady then ((decks.foldl State.abortPass s).softValues t).hello .soft else s

end Sys2Proof.Machine
end

