-- ==== Sys2Proof/Machine/Dispatch.lean ====
section
/-! DEFINITION. exec: one arm per command, in the table's order. -/

namespace Sys2Proof.Machine

/-- The effect of a command on everything but the queue of waiting commands. -/
def exec (i : Instr) (s : State) : Host.Outcome State Fault Refusal :=
  match i with
  | .powerOn => Sys2Proof.Machine.execPowerOn s
  | .resetLineAssert => Sys2Proof.Machine.execResetLineAssert s
  | .resetLineRelease t => Sys2Proof.Machine.execResetLineRelease t s
  | .softResetEffect t => Sys2Proof.Machine.execSoftResetEffect t s
  | .framePulse field2 t => Sys2Proof.Machine.execFramePulse field2 t s
  | .linePulse t => Sys2Proof.Machine.execLinePulse t s
  | .noPulseTimeout t => Sys2Proof.Machine.execNoPulseTimeout t s
  | .latePulseTimeout t => Sys2Proof.Machine.execLatePulseTimeout t s
  | .timerLineStep t => Sys2Proof.Machine.execTimerLineStep t s
  | .houseClockFrameStart => Sys2Proof.Machine.execHouseClockFrameStart s
  | .tcTransition d t => Sys2Proof.Machine.execTcTransition d t s
  | .bitSyncTimeout d t => Sys2Proof.Machine.execBitSyncTimeout d t s
  | .readerFrameTests d => Sys2Proof.Machine.execReaderFrameTests d s
  | .stillCountReached d => Sys2Proof.Machine.execStillCountReached d s
  | .commandSent d t => Sys2Proof.Machine.execCommandSent d t s
  | .replyTimeout d t => Sys2Proof.Machine.execReplyTimeout d t s
  | .deckReplyReceived d chars t => Sys2Proof.Machine.execDeckReplyReceived d chars t s
  | .deckGapTimeout d t => Sys2Proof.Machine.execDeckGapTimeout d t s
  | .recoveryQuiet d t => Sys2Proof.Machine.execRecoveryQuiet d t s
  | .lateReplyReceived d chars t => Sys2Proof.Machine.execLateReplyReceived d chars t s
  | .strayFrameReceived d chars t => Sys2Proof.Machine.execStrayFrameReceived d chars t s
  | .attachTimer d t => Sys2Proof.Machine.execAttachTimer d t s
  | .deckPortFrameStart d => Sys2Proof.Machine.execDeckPortFrameStart d s
  | .chaseSample d => Sys2Proof.Machine.execChaseSample d s
  | .rollCountExpired d => Sys2Proof.Machine.execRollCountExpired d s
  | .sequencerFrameStart => Sys2Proof.Machine.execSequencerFrameStart s
  | .cueTimeout => Sys2Proof.Machine.execCueTimeout s
  | .rollTimeout => Sys2Proof.Machine.execRollTimeout s
  | .outTimeout => Sys2Proof.Machine.execOutTimeout s
  | .postrollTimeout => Sys2Proof.Machine.execPostrollTimeout s
  | .transitionFieldStart => Sys2Proof.Machine.execTransitionFieldStart s
  | .mixerFieldStart => Sys2Proof.Machine.execMixerFieldStart s
  | .mixerSendLine => Sys2Proof.Machine.execMixerSendLine s
  | .gpiFrameStart => Sys2Proof.Machine.execGpiFrameStart s
  | .gpiLineFire => Sys2Proof.Machine.execGpiLineFire s
  | .gpiPulseEnd o => Sys2Proof.Machine.execGpiPulseEnd o s
  | .frameReceived bytes t => Sys2Proof.Machine.execFrameReceived bytes t s
  | .linkGapTimeout t => Sys2Proof.Machine.execLinkGapTimeout t s
  | .unknownRequest => Sys2Proof.Machine.execUnknownRequest s
  | .outboundSend => Sys2Proof.Machine.execOutboundSend s
  | .silenceTimeout t => Sys2Proof.Machine.execSilenceTimeout t s
  | .getReference => Sys2Proof.Machine.execGetReference s
  | .setHouseTime => Sys2Proof.Machine.execSetHouseTime s
  | .setReaderParams => Sys2Proof.Machine.execSetReaderParams s
  | .getReader => Sys2Proof.Machine.execGetReader s
  | .deckCommand => Sys2Proof.Machine.execDeckCommand s
  | .getDeck => Sys2Proof.Machine.execGetDeck s
  | .setPortEnable => Sys2Proof.Machine.execSetPortEnable s
  | .setServoParams => Sys2Proof.Machine.execSetServoParams s
  | .setChase => Sys2Proof.Machine.execSetChase s
  | .clearChase => Sys2Proof.Machine.execClearChase s
  | .getChase => Sys2Proof.Machine.execGetChase s
  | .setLoadWindow => Sys2Proof.Machine.execSetLoadWindow s
  | .loadEvents => Sys2Proof.Machine.execLoadEvents s
  | .loadContinue => Sys2Proof.Machine.execLoadContinue s
  | .readEvent => Sys2Proof.Machine.execReadEvent s
  | .deleteEvents => Sys2Proof.Machine.execDeleteEvents s
  | .clearList => Sys2Proof.Machine.execClearList s
  | .resetStatus => Sys2Proof.Machine.execResetStatus s
  | .setEditTimes => Sys2Proof.Machine.execSetEditTimes s
  | .executeEvent => Sys2Proof.Machine.execExecuteEvent s
  | .abortEdit => Sys2Proof.Machine.execAbortEdit s
  | .allStop => Sys2Proof.Machine.execAllStop s
  | .getEdit => Sys2Proof.Machine.execGetEdit s
  | .startRun => Sys2Proof.Machine.execStartRun s
  | .continueRun => Sys2Proof.Machine.execContinueRun s
  | .skipEvent => Sys2Proof.Machine.execSkipEvent s
  | .pauseRun => Sys2Proof.Machine.execPauseRun s
  | .stopRun => Sys2Proof.Machine.execStopRun s
  | .getRun => Sys2Proof.Machine.execGetRun s
  | .setRouting => Sys2Proof.Machine.execSetRouting s
  | .prepareTransition => Sys2Proof.Machine.execPrepareTransition s
  | .autoTake => Sys2Proof.Machine.execAutoTake s
  | .cutNow => Sys2Proof.Machine.execCutNow s
  | .resetTransition => Sys2Proof.Machine.execResetTransition s
  | .lever => Sys2Proof.Machine.execLever s
  | .getTransition => Sys2Proof.Machine.execGetTransition s
  | .setMixerSendLine => Sys2Proof.Machine.execSetMixerSendLine s
  | .gpiSet => Sys2Proof.Machine.execGpiSet s
  | .getGpi => Sys2Proof.Machine.execGetGpi s
  | .setFormat => Sys2Proof.Machine.execSetFormat s
  | .setRecorder => Sys2Proof.Machine.execSetRecorder s
  | .setNoticeMask => Sys2Proof.Machine.execSetNoticeMask s
  | .setSilenceLimit => Sys2Proof.Machine.execSetSilenceLimit s
  | .softReset => Sys2Proof.Machine.execSoftReset s
  | .getLinkStatus => Sys2Proof.Machine.execGetLinkStatus s

end Sys2Proof.Machine
end

