-- ==== Sys2Proof/Safety.lean ====
section
/-! DEFINITION. The terms in which claims are stated: a safe run, a request that is taken, its answer, and the invariants of
the blocks. -/

namespace Sys2Proof.Safety

open Sys2Proof.Machine

/-- The step at s answers a next state. -/
def StepSafe (s : State) : Prop := ∃ t, step s = .next t

/-- The run of k steps from s answers a next state. -/
def RunSafe (k : Nat) (s : State) : Prop := ∃ t, core.run k s = .next t

/-! ## Requests (R175, R187, R188) -/

/-- Request r of kind k is taken: the part is in operation, r heads the input queue, a place is free for its reply, and its
parameter count fits. -/
abbrev Takes (s : State) (k : Nat) (r : Request) : Prop :=
  s.asserted = false ∧ s.places < 16 ∧ s.link.input.head? = some r ∧ r.kind.toNat = k ∧ countOk k r.params.length = true

/-- s with the head request gone and its reply, a result code and values, the last of the waiting ones. -/
def answered (s : State) (r : Request) (code : Result) (vals : List Val) : State :=
  { s with link := { s.link with
      input := s.link.input.tail
      replies := s.link.replies ++ [{ kind := r.kind ||| 0x80, tag := r.tag, vals := .u 1 code.code :: vals }] } }

/-- A frame number as the label that a reply carries (R8, R9). -/
def labelVal (f : SuiteFormat) (n : Nat) : Val := .raw (Label.ofFrame f n).bytes

/-! ## The notice table (Table 11-1, R177) -/

/-- The 40 places of the notice table: kind and source. -/
def noticePlaces : List (NoticeKind × Nat) :=
  ([NoticeKind.deckPresence, .deckStatus, .readerState, .chaseState].flatMap fun k => [1, 2, 3, 4, 5, 6].map fun n => (k, n)) ++
    ([1, 2, 3, 4, 5, 6, 7, 8].map fun n => (NoticeKind.gpiTrigger, n)) ++
    [NoticeKind.hello, .referenceState, .editPhase, .editEnd, .runState, .transitionState, .leverPickup, .silenceStop].map
      fun k => (k, 0)

/-- The pair of an entry. -/
def pairOf (n : Notice) : NoticeKind × Nat := (n.kind, n.source)

/-- One entry for each pair at most, each pair one of the 40, each count from 1 to 255. -/
abbrev NoticesOk (l : List Notice) : Prop :=
  (l.map pairOf).Nodup ∧ ∀ n ∈ l, pairOf n ∈ noticePlaces ∧ 1 ≤ n.count ∧ n.count ≤ 255

/-- The occurrence count that the notice table holds for a pair of kind and source, 0 with no entry (R177). -/
def toldBefore (s : State) (k : NoticeKind) (source : Nat) : Nat :=
  ((s.link.notices.find? fun n => n.kind == k && n.source == source).map Notice.count).getD 0

/-- The step from s to t enters a pair of kind and source a number of times, unless the kind is masked: its one entry then has
the content of the latest, the house frame number as its stamp, and the occurrence count raised so often (R177, R179). -/
abbrev Told (s t : State) (k : NoticeKind) (source : Nat) (content : List Val) (times : Nat) : Prop :=
  s.link.masked k = false → { kind := k, source := source, content := content, stamp := s.clock.frame
                              count := min 255 (toldBefore s k source + times) } ∈ t.link.notices

/-- CHASE_STATE of deck d's channel as it stands in t (R89); the layout is of log 30. -/
abbrev ChaseTold (s t : State) (d : Deck) (old : ChaseState) (why : ChaseCause) (times : Nat) : Prop :=
  Told s t .chaseState (Deck.num d) ((t.chan d).noticeContent old why) times

/-- The content of EDIT_PHASE for an edit e of event n, with the recorder frame of s (R134, in the layout of log 30). -/
def phaseContent (s : State) (e : Edit) (n : Nat) (m : EditMode) (new old : Phase) : List Val :=
  vCat [[.u 2 n, .u 1 m.code, .u 1 new.code, .u 1 old.code], vOptLab s.recNow, vOptU 2 (e.cueR.map fun _ => e.preroll),
    vOptLab e.cueR, [.u 1 e.stage.code], vCause e.abort]

/-- EDIT_PHASE of event n's edit as it stands in t. -/
abbrev PhaseTold (s t : State) (n : Nat) (m : EditMode) (new old : Phase) (times : Nat) : Prop :=
  Told s t .editPhase 0 (phaseContent s t.edit n m new old) times

/-- What an edit of event n that fails in CLAIM tells: EDIT_PHASE for CLAIM, RELEASE and IDLE, which shows the context before the
clearing (log 57), and EDIT_END with status FAILED, the reason and the attempts, with a number of either before them in the same
step. The layouts are of log 30. -/
abbrev ClaimFailTold (s t : State) (n : Nat) (m : EditMode) (why : Reason) (attempts phases ends : Nat) : Prop :=
  Told s t .editPhase 0 (phaseContent s Edit.idle n m .idle .release) (phases + 3) ∧
    Told s t .editEnd 0 (vCat [[.u 2 n, .u 1 m.code, .u 1 EventStatus.failed.code, vReason (some why),
      .u 1 { Warnings.empty with ref := s.ref.st != RefState.locked }.code, .u 1 attempts], vCause none, vOptLab none,
      vOptLab none]) (ends + 1)

/-! ## The transition engine (Table 9-2, Table 9-3) -/

/-- A run form's starting level lies within 0 to 1023. -/
abbrev FormOk (f : RunForm) : Prop :=
  match f with
  | .curve => True
  | .take m0 _ => m0 ≤ 1023

/-- Level, lever and mapped value within 0 to 1023, mixer inputs within 0 to 31, and level 0 in IDLE and ARMED. -/
abbrev EngineOk (e : Engine) : Prop :=
  e.level ≤ 1023 ∧ e.lever ≤ 1023 ∧ e.mapped ≤ 1023 ∧ FormOk e.form ∧ (∀ x ∈ e.routing.toList, x ≤ 31) ∧
    (e.st = .idle ∨ e.st = .armed → e.level = 0)

/-! ## The end of an edit (R124, R130) -/

/-- Deck d's STOP, from the sequencer or an EMERGENCY item of the edit, is the last one that event n's edit in RELEASE awaits; its
reply is due on the line of a PRESENT deck, whose SERVO slot is empty. The silence timer is running. -/
abbrev LastStop (s : State) (d : Deck) (n : Nat) (ev : EventFields) : Prop :=
  s.asserted = false ∧ s.safeStop = false ∧ s.link.expired = false ∧ (s.port d).line = .awaiting ∧ (s.port d).stray = none ∧
    (s.port d).rx = none ∧ (s.port d).presence = .present ∧
    ((s.port d).flight = some ⟨.stop, .sequencer⟩ ∨ (s.port d).flight = some ⟨.stop, .emergencyStop true false⟩) ∧
    (s.port d).servo = none ∧ s.edit.phase = .release ∧ s.edit.stops = [d] ∧ s.edit.active = some (n, ev) ∧
    s.edit.failure = none

/-- A step that ends the command awaited on deck d's line: its ACK, a NAK, or 12 ms without a reply, not the third failure. -/
abbrev StopEnds (s : State) (d : Deck) (t : Time) (i : Instr) : Prop :=
  i = .deckReplyReceived d [⟨2, false⟩, ⟨0x80, false⟩, ⟨0x82, false⟩] t ∨
    (∃ why : Byte, i = .deckReplyReceived d [⟨3, false⟩, ⟨0x81, false⟩, ⟨why, false⟩, ⟨3 ^^^ 0x81 ^^^ why, false⟩] t) ∨
    (i = .replyTimeout d t ∧ (s.port d).replyFrom + ms 12 ≤ t ∧ (s.port d).fails < 2)

/-- Status and failure reason of an edit that has passed CLAIM, by its abort and the record stage at it (R130). -/
def endingOf (e : Edit) : EventStatus × Option Reason :=
  match e.abort, e.abortStage with
  | none, _ => (.done, none)
  | some r, .notSent => (.failed, some r)
  | some r, .onHanded => (.incomplete, some r)
  | some _, .offHanded => (.done, none)

/-- The list after the end-of-edit write at n, with no event active (R97, R124). -/
def written (s : State) (n : Nat) : EventList := { s.list with
  active := none
  events := s.list.events.map fun x => if x.1 = n then (n, { x.2 with
    status := (endingOf s.edit).1, failure := (endingOf s.edit).2, warns := s.edit.warns
    attempts := min 255 (x.2.attempts + 1) }) else x }

/-! ## Commands passed through by the host (R70) -/

/-- The deferred reply to a command of an origin that ends: one for a PASS command, none for any other. -/
def passReply (o : Origin) (vals : List Val) : List Reply :=
  match o with
  | .pass k g => [{ kind := k ||| 0x80, tag := g, vals := vals }]
  | .poll => []
  | .emergencyOff => []
  | .emergencyStop _ _ => []
  | .sequencer => []
  | .servo _ _ => []

/-- s with that reply the last of the waiting ones. -/
def passAnswered (s : State) (o : Origin) (vals : List Val) : State :=
  { s with link := { s.link with replies := s.link.replies ++ passReply o vals } }

/-- The ABORTED replies to the PASS commands that wait at some decks, in turn. -/
def passAborted (s : State) (ds : List Deck) : List Reply :=
  ds.flatMap fun d => (s.port d).pass.toList.map fun c =>
    { kind := c.kind ||| 0x80, tag := c.tag, vals := [.u 1 Result.aborted.code] }

/-! ## Postings to the SERVO and the SEQUENCER slot (R61, R63, R64) -/

/-- A posting to the SERVO slot comes first on the port: on an IDLE line nothing waits above it, and the port is not DISABLED. -/
abbrev ServoFirst (p : Port) : Prop :=
  p.line = .idle → p.emerg = none ∧ p.seqSlot = { first := none, second := none } ∧ p.presence ≠ .disabled

/-- The port after such a posting of a channel's command: an IDLE line takes it at once, else it waits in the slot. -/
def servoPosted (p : Port) (f : SuiteFormat) (c : DeckCmd) (gen loc : Nat) : Port :=
  if p.line = .idle then
    { p with servo := none, line := .sending, flight := some ⟨c, .servo gen loc⟩, tx := c.frame f, fresh := false }
  else { p with servo := some { cmd := c, gen := gen, loc := loc } }

/-- A posting to the SEQUENCER slot finds it empty and comes first on the port. -/
abbrev SeqFirst (p : Port) : Prop :=
  p.seqSlot = { first := none, second := none } ∧ (p.line = .idle → p.emerg = none ∧ p.presence ≠ .disabled)

/-- The port after such a posting of a command other than a RECORD command. -/
def seqPosted (p : Port) (f : SuiteFormat) (c : DeckCmd) : Port :=
  if p.line = .idle then { p with line := .sending, flight := some ⟨c, .sequencer⟩, tx := c.frame f, fresh := false }
  else { p with seqSlot := { first := some c, second := none } }

/-- Port and last speed of deck d's channel after the speed law at error e: 1000 + round(G × e / Lpf), G the coarse gain from one
frame of error on and the fine gain below, within the trim limit and the deck's range, 500 to 1500 where none is stored; posted
where it differs from a VARISPEED that waits in the SERVO slot, else from the last speed sent (R82, R83). -/
def driven (s : State) (d : Deck) (e : Int) : Port × Option Nat :=
  let p := s.port d
  let c := s.chan d
  let range := (p.ident.bind Identity.range).getD (500, 1500)
  let gain : Int := if s.fmt.lpf ≤ e.natAbs then s.set.coarse else s.set.fine
  let v := (max ((max range.1 (1000 - s.set.trim) : Nat) : Int)
    (min ((min range.2 (1000 + s.set.trim) : Nat) : Int) (1000 + roundHalfAway (gain * e) s.fmt.lpf))).toNat
  let waiting : Option Nat := p.servo.bind fun x => match x.cmd with
    | .varispeed w => some w
    | _ => none
  let sent := max range.1 (min range.2 v)
  if waiting.orElse (fun _ => c.speed) = some v then (p, c.speed)
  else if p.line = .idle then (servoPosted p s.fmt (.varispeed sent) c.gen c.loc, some sent)
  else (servoPosted p s.fmt (.varispeed v) c.gen c.loc, c.speed)

/-! ## EMERGENCY items (R62, R129) -/

/-- A port with an EMERGENCY item posted on it: RECORD_OFF where record stands, then STOP, and the slots below empty. -/
def itemWaits (p : Port) (toSeq toSafe : Bool) : Port :=
  { p with
    emerg := some { recordOff := p.standing, toSeq := toSeq, toSafe := toSafe }
    seqSlot := { first := none, second := none }, servo := none, pass := none }

/-- The port once the RECORD_OFF of such an item is handed: record stands no more, the quiet window is closed, and the STOP is
left of the item. -/
def offSent (p : Port) (toSeq toSafe : Bool) : Port :=
  { itemWaits p toSeq toSafe with
    emerg := some { recordOff := false, toSeq := toSeq, toSafe := toSafe }, line := .sending
    flight := some ⟨.recordOff, .emergencyOff⟩, tx := [2, 0x31, 0x33], fresh := false, standing := false, quiet := false
    hold := p.quiet || p.hold }

/-- The port once the STOP of such an item is handed. -/
def stopSent (p : Port) (toSeq toSafe : Bool) : Port :=
  { itemWaits p toSeq toSafe with
    emerg := none, line := .sending, flight := some ⟨.stop, .emergencyStop toSeq toSafe⟩, tx := [2, 0x20, 0x22]
    fresh := false }

/-- The port right after the posting: an IDLE line takes the item's first command at once. -/
def itemPosted (p : Port) (toSeq toSafe : Bool) : Port :=
  if p.line = .idle then if p.standing then offSent p toSeq toSafe else stopSent p toSeq toSafe
  else itemWaits p toSeq toSafe

/-- An edit in EDITING that takes an abort, with record standing on its recorder alone and no EMERGENCY item on a port. -/
abbrev Recording (s : State) : Prop :=
  s.edit.phase = .editing ∧ s.edit.abort = none ∧ s.safeStop = false ∧ s.recorder ∈ s.edit.involved ∧
    (s.port s.recorder).standing = true ∧
    ∀ d, (s.port d).emerg = none ∧ (d ≠ s.recorder → (s.port d).standing = false)

/-- The abort of such an edit: the recorder's item is RECORD_OFF then STOP. The phase stays EDITING until that RECORD_OFF is
handed, and is RELEASE from its hand on. -/
abbrev RecordStopped (s t : State) (why : Reason) : Prop :=
  t.port s.recorder = itemPosted (s.port s.recorder) true false ∧ t.edit.abort = some why ∧
    t.edit.stops = s.edit.involved ∧ t.edit.abortStage = s.edit.stage ∧
    ((s.port s.recorder).line ≠ .idle →
      t.edit.phase = .editing ∧ t.edit.stage = s.edit.stage ∧ t.edit.offFrame = s.edit.offFrame) ∧
    ((s.port s.recorder).line = .idle →
      t.edit.phase = .release ∧ t.edit.stage = .offHanded ∧ t.edit.offFrame = s.recNow)

/-! ## What the end of an edit tells the channels and the engine (R93, R123, R129, R154) -/

/-- The sequencer's channel of each source of the edit is cleared to IDLE (Table 5-5), with its CHASE_STATE entry of cause
RELEASED. The serial numbers are the model's (log 16), the layout of the entry is of log 30, what it shows of log 64. -/
abbrev SourcesReleased (s t : State) : Prop :=
  ∀ d ∈ s.edit.sources, (s.chan d).owner = some .sequencer → (s.chan d).st ≠ .idle →
    t.chan d = Channel.idle s.set.lead ((s.chan d).gen + 1) (s.chan d).loc ∧ ChaseTold s t d (s.chan d).st .released 1

/-- The abort report: an ARMED plan goes to IDLE as withdrawn, a RUNNING plan of the sequencer to HELD as it stands; every
other state stays. The preview flag is cleared, and a change of state enters TRANSITION_STATE, in the layout of log 30. -/
abbrev PlanStopped (s t : State) : Prop :=
  (s.engine.st = .armed → t.engine = { s.engine with st := .idle, preview := false }) ∧
    (s.engine.st = .running → s.engine.seqPlan = true → t.engine = { s.engine with st := .held, preview := false }) ∧
    (s.engine.st ≠ .armed → s.engine.st ≠ .running ∨ s.engine.seqPlan = false →
      t.engine = { s.engine with preview := false }) ∧
    (t.engine.st ≠ s.engine.st → Told s t .transitionState 0
      (t.engine.noticeContent s.engine.st (if s.engine.st = .armed then .withdrawn else .held)) 1)

/-- What an abort tells the channels of the edit's sources, the transition engine, and the host once the phase is RELEASE
(R134). -/
abbrev AbortTold (s t : State) : Prop :=
  SourcesReleased s t ∧ PlanStopped s t ∧ ∀ n ev m, s.edit.active = some (n, ev) → s.edit.mode = some m →
    t.edit.phase = .release → PhaseTold s t n m .release s.edit.phase 1

/-! ## The silence stop (R180) -/

/-- The silence stop that the step from s to t takes: it is the one of this expiry, and SILENCE_STOP carries the limit, the
active event's number and the recorder frame, in the layout of log 30. -/
abbrev SilenceStopped (s t : State) : Prop :=
  t.link.expired = true ∧ t.link.stopTaken = true ∧
    Told s t .silenceStop 0 (vCat [[.u 2 s.link.limit, .u 2 ((s.edit.active.map Prod.fst).getD 0)], vOptLab s.recNow]) 1

/-! ## What a step of the run cursor tells the host (R147) -/

/-- The step from s to t enters RUN_STATE a number of times, unless the kind is masked. The one entry of the pair then has the
content of the latest: cursor x, its state before and the reason. The layout is of log 30. -/
abbrev RunTold (s t : State) (x : Run) (old : RunState) (why : RunReason) (times : Nat) : Prop :=
  Told s t .runState 0 (x.noticeContent old why) times

/-! ## Record protection (R68) -/

/-- The slots a RECORD command may come from. -/
def Origin.mayRecord : Origin → Bool
  | .emergencyOff => true
  | .sequencer => true
  | .emergencyStop _ _ => false
  | .servo _ _ => false
  | .pass _ _ => false
  | .poll => false

/-- No RECORD command waits in the SERVO, PASS or POLL slot, and one in flight came from SEQUENCER or EMERGENCY. -/
abbrev PortOk (p : Port) : Prop :=
  p.servo.all (fun c => !c.cmd.isRecord) = true ∧ p.pass.all (fun c => !c.cmd.isRecord) = true ∧
    p.poll.all (fun c => !c.isRecord) = true ∧ p.flight.all (fun x => !x.cmd.isRecord || Origin.mayRecord x.origin) = true

/-- Every port is protected. -/
abbrev PortsOk (s : State) : Prop := ∀ d : Deck, PortOk (s.port d)

/-! ## The event list (R100) -/

/-- At most 250 events, with distinct numbers in 1 to 999 in ascending order. -/
abbrev NumbersOk (l : List Nat) : Prop := l.Pairwise (· < ·) ∧ (∀ n ∈ l, 1 ≤ n ∧ n ≤ 999) ∧ l.length ≤ 250

/-- The numbers of the events present. -/
def numbers (l : EventList) : List Nat := l.events.map Prod.fst

/-- A trigger as the layout can carry it (Table 12-4). -/
abbrev TriggerFits (t : Trigger) : Prop :=
  -8388608 ≤ t.offset ∧ t.offset ≤ 8388607 ∧ t.line ≤ 65535 ∧ t.action.len.all (· ≤ 255) = true

/-- The loaded fields of a record in format f as the layout can carry them: frames of the day, a pattern with a WIPE alone
(Table 12-4, R96). -/
abbrev FieldsFit (f : SuiteFormat) (e : EventFields) : Prop :=
  e.recIn < f.dayLen ∧ e.recOut < f.dayLen ∧ e.aIn < f.dayLen ∧ e.b.all (fun b => b.inAt < f.dayLen) = true ∧
    e.t ≤ 16777215 ∧ e.d ≤ 65535 ∧ (e.pattern.isSome = true ↔ e.type = .wipe) ∧ e.pattern.all (·.num ≤ 31) = true ∧
    e.triggers.length ≤ 255 ∧ ∀ t ∈ e.triggers, TriggerFits t

/-- The list is ordered and bounded, its window and pointer lie within their ranges, and its records fit (R96, R100, R101). -/
abbrev ListOk (s : State) : Prop :=
  NumbersOk (numbers s.list) ∧ 1 ≤ s.list.low ∧ s.list.low ≤ s.list.high ∧ s.list.high ≤ 999 ∧ 1 ≤ s.list.ptr ∧
    s.list.ptr ≤ 1000 ∧ ∀ x ∈ s.list.events, FieldsFit s.fmt x.2.fields

/-! ## Settings -/

/-- Every setting lies within its stated range (R45, Table 5-3, R111, R162, R181). -/
abbrev SettingsOk (s : State) : Prop :=
  5 ≤ s.set.glitch ∧ s.set.glitch ≤ 100 ∧ s.set.flyLimit ≤ 50 ∧ 1 ≤ s.set.coarse ∧ s.set.coarse ≤ 100 ∧ 1 ≤ s.set.fine ∧
    s.set.fine ≤ 100 ∧ 10 ≤ s.set.trim ∧ s.set.trim ≤ 300 ∧ s.set.lead ≤ 500 ∧ 1 ≤ s.set.lockWin ∧ s.set.lockWin ≤ 64 ∧
    1 ≤ s.set.lockCount ∧ s.set.lockCount ≤ 25 ∧ s.set.lockWin ≤ s.set.unlockWin ∧ s.set.unlockWin ≤ s.fmt.lpf ∧
    25 ≤ s.set.seekWin ∧ s.set.seekWin ≤ 1500 ∧ 25 ≤ s.set.preroll ∧ s.set.preroll ≤ 750 ∧ 1 ≤ s.set.syncMargin ∧
    s.set.syncMargin ≤ 125 ∧ s.set.postroll ≤ 750 ∧ 250 ≤ s.set.cueTimeout ∧ s.set.cueTimeout ≤ 7500 ∧
    1 ≤ s.mixer.offset ∧ s.mixer.offset ≤ 20 ∧ s.mixer.pendOff.all (fun n => decide (1 ≤ n ∧ n ≤ 20)) = true ∧
    200 ≤ s.link.limit ∧ s.link.limit ≤ 10000

/-! ## House time (section 2.7, R2, R21) -/

/-- The house line is a line of the frame, and in LOCKED it is the line count; the reference frame is a frame of the day. -/
abbrev HouseOk (s : State) : Prop :=
  1 ≤ s.ref.line ∧ s.ref.line ≤ s.fmt.lpf ∧ s.ref.frame < s.fmt.dayLen ∧
    (s.ref.st = .locked → s.ref.lineCount = s.ref.line)

/-- The house frame number is the reference frame plus the clock offset, counting the frame starts that the clock has still
to take. -/
abbrev ClockOk (s : State) : Prop :=
  s.clock.frame < s.fmt.dayLen ∧ s.clock.offset < s.fmt.dayLen ∧ s.clock.preset.all (· < s.fmt.dayLen) = true ∧
    (s.clock.frame + s.due.clock) % s.fmt.dayLen = (s.ref.frame + s.clock.offset) % s.fmt.dayLen

end Sys2Proof.Safety
end

