-- ==== Sys2Proof/Certificates/Slice0/Obligations.lean ====
section
/-! DEFINITION. The statements for the provers. A statement about a command has the command's next state as its conclusion,
written as a record of the state before, so that every field it does not name is unchanged. Contents of notices and replies
whose layout R187 leaves open are the model's (log 30). -/

open Sys2Proof Sys2Proof.Machine Sys2Proof.Safety

/-! ## The machine -/


/-- A step runs the command at the front of the queue. With no command waiting a step changes nothing (log 2: the model's
choice). Log 1 and log 2: the queue and its idling are the model's. -/
def Obligations.StepRunsTheQueue : Prop :=
  (∀ (c : Instr) (cs : List Instr) (s : State), s.pending = c :: cs → step s = exec c { s with pending := cs }) ∧
  (∀ s : State, s.pending = [] → step s = .next s)

/-- Every command answers a next state in every state, and leaves the queue of waiting commands as it is. A timed row that
is not due, before its instant or in a state that does not time it, moves the crystal time alone (log 3). The model's own
among these: with no interval pending the row of a lost bit sync moves the time alone, a DESIGN CHOICE of log 13; the quiet
time of RECOVERING runs from the later of the entry into it and the latest byte, of log 29; the attach timer counts from its
last attempt, and is due at once with none made, of log 31; the long-frame test counts from the frame timer's restart, of
log 12, and the line step outside LOCKED from the step held, of log 25. A row of a start with none owed, of a frame start at
which its count or deadline does not run out, of a line not reached, and of the outbound path with nothing waiting, changes
nothing (logs 5, 7, 11). Nor does the row of a request whose kind does not head the input queue, or whose reply finds no
place (log 9). -/
def Obligations.EveryCommandCompletes : Prop :=
  (∀ (c : Instr) (s : State), ∃ t, exec c s = .next t ∧ t.pending = s.pending) ∧
  (∀ (s : State) (t : Time), s.asserted = false →
    let waits (c : Instr) := exec c s = .next { s with now := max s.now t }
    let f := s.fmt
    let r := s.ref
    let l := s.link
    (r.st ≠ .acquiring ∨ exact t < exact r.pulseAt + 3 * f.framePeriod → waits (.noPulseTimeout t)) ∧
    (r.st ≠ .locked ∨ exact t < r.timerFrom + f.framePeriod + f.linePeriod → waits (.latePulseTimeout t)) ∧
    (r.st = .locked ∨ exact t < r.stepAt + f.linePeriod → waits (.timerLineStep t)) ∧
    (l.rx = .hunting ∨ t < l.byteAt + ms 20 → waits (.linkGapTimeout t)) ∧
    (l.expired = true ∨ t < l.restartAt + ms l.limit → waits (.silenceTimeout t)) ∧
    (l.resetPending = false ∨ 0 < l.okAhead ∨ (∃ d ds, l.safe = some (d :: ds)) → waits (.softResetEffect t)) ∧
    ∀ d : Deck,
      let p := s.port d
      let x := s.reader d
      (x.dec = .searching ∨ (∀ i, x.pend = some i → 2 * (t - i.closedAt) ≤ 3 * x.est) → waits (.bitSyncTimeout d t)) ∧
      (p.line ≠ .sending → waits (.commandSent d t)) ∧
      (p.line ≠ .awaiting ∨ t < p.replyFrom + ms 12 → waits (.replyTimeout d t)) ∧
      (t < p.byteAt + ms 3 → waits (.deckGapTimeout d t)) ∧
      (p.line ≠ .recovering ∨ t < max p.byteAt p.replyFrom + ms 3 → waits (.recoveryQuiet d t)) ∧
      (p.presence ≠ .absent ∨ p.enabled = false ∨ (∃ a, p.attachAt = some a ∧ t < a + ms 500) → waits (.attachTimer d t))) ∧
  (∀ s : State, s.asserted = false →
    let still (c : Instr) := exec c s = .next s
    let e := s.edit
    (s.due.clock = 0 → still .houseClockFrameStart) ∧ (s.due.seq = 0 → still .sequencerFrameStart) ∧
    (s.due.seq = 0 ∨ e.abort.isSome = true ∨ 2 ≤ e.deadline → still .cueTimeout ∧ still .rollTimeout ∧ still .outTimeout) ∧
    (s.due.seq = 0 ∨ e.phase ≠ .postroll ∨ 2 ≤ e.deadline → still .postrollTimeout) ∧
    (s.due.engine = [] → still .transitionFieldStart) ∧ (s.due.mixer = [] → still .mixerFieldStart) ∧
    (s.mixer.opened = none → still .mixerSendLine) ∧
    (∀ n, s.mixer.opened = some n → s.ref.line < s.fmt.firstLine (n == 2) + s.mixer.offset → s.due.mixer = [] →
      still .mixerSendLine) ∧
    (s.due.gpi = 0 → still .gpiFrameStart) ∧
    ((∀ x ∈ s.gpi.sched, x.inFrame = false ∨ s.ref.line < x.line) → still .gpiLineFire) ∧
    (∀ o : GpiNo, (∀ p, (s.gpi.out o).pulse = some p → 0 < p.left ∨ s.ref.line < p.endLine) → still (.gpiPulseEnd o)) ∧
    (s.link.replies = [] → s.link.notices = [] → still .outboundSend) ∧
    (∀ d : Deck, (s.due.reader[d.val] = 0 → still (.readerFrameTests d)) ∧
      (s.due.reader[d.val] = 0 ∨ (s.reader d).noWord ≠ 2 → still (.stillCountReached d)) ∧
      (s.due.port[d.val] = 0 → still (.deckPortFrameStart d)) ∧ (s.due.chase[d.val] = 0 → still (.chaseSample d)) ∧
      (s.due.chase[d.val] = 0 ∨ (s.chan d).st ≠ .rolling ∨ 2 ≤ (s.chan d).roll → still (.rollCountExpired d))) ∧
    ∀ (k : Nat) (c : Instr), (k, c) ∈ [(0x01, Instr.getReference), (0x02, .setHouseTime), (0x08, .setReaderParams),
        (0x09, .getReader), (0x10, .deckCommand), (0x11, .getDeck), (0x12, .setPortEnable), (0x18, .setServoParams),
        (0x19, .setChase), (0x1A, .clearChase), (0x1B, .getChase), (0x20, .setLoadWindow), (0x21, .loadEvents),
        (0x22, .loadContinue), (0x23, .readEvent), (0x24, .deleteEvents), (0x25, .clearList), (0x26, .resetStatus),
        (0x28, .setEditTimes), (0x29, .executeEvent), (0x2A, .abortEdit), (0x2B, .allStop), (0x2C, .getEdit),
        (0x30, .startRun), (0x31, .continueRun), (0x32, .skipEvent), (0x33, .pauseRun), (0x34, .stopRun), (0x35, .getRun),
        (0x38, .setRouting), (0x39, .prepareTransition), (0x3A, .autoTake), (0x3B, .cutNow), (0x3C, .resetTransition),
        (0x3D, .lever), (0x3E, .getTransition), (0x3F, .setMixerSendLine), (0x40, .gpiSet), (0x41, .getGpi),
        (0x48, .setFormat), (0x49, .setRecorder), (0x4A, .setNoticeMask), (0x4B, .setSilenceLimit), (0x4C, .softReset),
        (0x4D, .getLinkStatus)] →
      (16 ≤ s.places ∨ (∀ r, s.link.input.head? = some r → r.kind.toNat ≠ k) → still c) ∧
        (16 ≤ s.places ∨ (∀ r, s.link.input.head? = some r → r.kind.toNat = k) → still .unknownRequest))

/-- While the reset line is asserted no command but a reset has an effect (R185, log 10). The reset line stops transmission,
puts the GPI outputs off and drops their schedule, and abandons a soft reset (R184, R185). At the release of the reset line
every block restarts; the loaded events are held only from F25, with new kept fields (R110, R185, R29). That nothing else
acts during the assertion rests on log 10, that it empties the bytes held on log 11, that the list is kept from F25 alone on
log 47, the starts owed after it on log 5. -/
def Obligations.ResetLineHoldsAndRestarts : Prop :=
  (∀ (c : Instr) (s : State), s.asserted = true → c ≠ .powerOn → c ≠ .resetLineAssert → (∀ t, c ≠ .resetLineRelease t) →
    exec c s = .next s) ∧
  (∀ s : State, exec .resetLineAssert s = .next { s with
    asserted := true
    ports := s.ports.map fun p => { p with tx := [], flight := none }
    mixer := { s.mixer with tx := [] }
    gpi := { outs := Vector.replicate 8 { on := false, pulse := none }, sched := [] }
    link := { s.link with tx := [], resetPending := false, okAhead := 0, safe := none } }) ∧
  (∀ (s : State) (t : Time), s.asserted = true →
    let events := if s.fmt = .f25 then
        s.list.events.map fun x => (x.1,
          { fields := x.2.fields, status := .pending, failure := none, warns := Warnings.empty, attempts := 0 })
      else []
    exec (.resetLineRelease t) s = .next { State.reset with
      now := max s.now t
      ref := { State.reset.ref with pulseAt := t, stepAt := exact t, timerFrom := exact t }
      list := { State.reset.list with events := events }
      link := { State.reset.link with
        restartAt := t
        notices := [
          { kind := .hello, source := 0, content := helloContent .resetLine .f25 0 events.length, stamp := 0, count := 1 },
          { kind := .referenceState, source := 0, content := refContent .acquiring none none (some .restart), stamp := 0
            count := 1 }] }
      pending := s.pending })

/-! ## Resets -/

/-- Power-on gives every block its power-on value: Tables 2-3, 3-2, 4-9, 5-5, 6-6, 7-6, 8-1, 9-4, 10-2, 11-2, and the
default settings of R45, Table 5-3 and R111. The starts owed (log 5), the serial numbers of a channel (log 16), and the
instants and first transition that nothing reads before they are set (log 13, log 14) are the model's. -/
def Obligations.PowerOnValues : Prop :=
  (∀ s : State, exec .powerOn s = .next { State.reset with pending := s.pending }) ∧
    State.reset.fmt = .f25 ∧ State.reset.now = 0 ∧ State.reset.asserted = false ∧ State.reset.pending = [] ∧
    State.reset.ref = { st := .acquiring, lineCount := 0, good := 0, pulseAt := 0, line := 1, frame := 0, stepAt := 0
                        timerFrom := 0 } ∧
    State.reset.clock = { frame := 0, offset := 0, preset := none } ∧
    State.reset.due = { clock := 0, reader := Vector.replicate 6 1, port := Vector.replicate 6 1
                        chase := Vector.replicate 6 1, seq := 1, gpi := 1, engine := [{ frame := 0, field2 := false }]
                        mixer := [{ frame := 0, field2 := false }] } ∧
    (∀ d : Deck, State.reset.reader d =
      { dec := .searching, openFrom := none, pend := none, est := 500000, half := none, run := 0, halfRun := 0, halfMax := 0
        window := [], since := 0, rev := none, chain := none, cand := none, bad := 0, noWord := 3, src := .none
        mark := none, dir := .forward, cls := .still, speed := 0, user := 0, good := 0, fly := 0 }) ∧
    (∀ d : Deck, State.reset.port d =
      { enabled := true, presence := .absent, ident := none, flags := none, age := 0, fresh := false, fails := 0
        claim := .free, standing := false, nak := none, line := .idle, flight := none, emerg := none
        seqSlot := { first := none, second := none }, servo := none, pass := none, poll := none, odd := false
        quiet := false, hold := false, attachAt := none, replyFrom := 0, byteAt := 0, rx := none, stray := none
        late := .nothing, tx := [] }) ∧
    (∀ d : Deck, State.reset.chan d =
      { st := .idle, owner := none, master := none, offset := 0, kind := none, target := none, acked := false, err := none
        speed := none, cond := none, inWin := 0, outWin := 0, seeks := 0, lead := 75, roll := 0, fault := none, gen := 0
        loc := 0, relocate := false, replay := false }) ∧
    State.reset.list = { events := [], low := 1, high := 999, ptr := 1, active := none } ∧
    State.reset.edit =
      { active := none, mode := none, phase := .idle, involved := [], srcA := none, srcB := none, preroll := 0, margin := 0
        postroll := 0, onDelay := 0, offDelay := 0, playStart := 0, cueR := none, cueA := none, cueB := none
        acked := Vector.replicate 6 false, cued := Vector.replicate 6 false, offA := none, offB := none
        syncPassed := false, stage := .notSent, deadline := 0, stops := [], warns := Warnings.empty, abort := none
        failure := none, onFrame := none, offFrame := none, abortStage := .notSent, relocate := Vector.replicate 6 false
        replay := false, offPosted := false } ∧
    State.reset.run =
      { st := .idle, first := none, last := none, dir := .forward, mode := none, loop := false, policy := .skipDone
        current := none, hold := none, started := 0, wraps := 0 } ∧
    State.reset.engine =
      { st := .idle, plan := none, prepared := none, form := .curve, k := 0, level := 0, xa := .black, xb := .black
        effect := .mix, cutMark := false, pendCut := false, lever := 0, mapped := 0, inverted := false, pickup := false
        preview := false, live := false, routing := #v[0, 1, 2, 3, 4, 5, 6, 7, 8, 9] } ∧
    State.reset.mixer = { offset := 8, pendOff := none, opened := none, tx := [] } ∧
    State.reset.gpi = { outs := Vector.replicate 8 { on := false, pulse := none }, sched := [] } ∧
    State.reset.tallies = 0 ∧
    State.reset.set =
      { glitch := 20, flyLimit := 8, coarse := 16, fine := 32, trim := 100, lead := 75, lockWin := 12, lockCount := 5
        unlockWin := 48, seekWin := 250, preroll := 125, syncMargin := 25, postroll := 50, cueTimeout := 1500 } ∧
    State.reset.link =
      { rx := .hunting, byteAt := 0, input := [], replies := [], dropped := 0
        notices := [
          { kind := .hello, source := 0, content := [.u 1 0, .u 1 3, .u 1 0, .u 1 1, .u 1 0], stamp := 0, count := 1 },
          { kind := .referenceState, source := 0, content := refContent .acquiring none none (some .restart), stamp := 0
            count := 1 }]
        mask := 0, limit := 2000, restartAt := 0, expired := false, stopTaken := false, recorder := 0
        resetPending := false, okAhead := 0, safe := none, tx := [] }

/-! ## Labels and the day circle (chapter 1) -/

/-- R6: the frame number of a legal label in F25 and F30. R7: the frame number of a legal label in F30D. -/
def Obligations.LegalLabelsGiveFrameNumbers : Prop :=
  (∀ (f : SuiteFormat) (l : Label), f ≠ .f30d → l.legal f = true →
    l.toFrame f = ((l.hh * 60 + l.mm) * 60 + l.ss) * f.rate + l.ff ∧ l.toFrame f ≤ f.dayLen - 1 ∧
      ({ hh := 0, mm := 0, ss := 0, ff := 0 } : Label).toFrame f = 0 ∧
      ({ hh := 23, mm := 59, ss := 59, ff := 24 } : Label).toFrame .f25 = SuiteFormat.dayLen .f25 - 1 ∧
      ({ hh := 23, mm := 59, ss := 59, ff := 29 } : Label).toFrame .f30 = SuiteFormat.dayLen .f30 - 1) ∧
  (∀ l : Label, l.legal .f30d = true →
    let m : Int := l.hh * 60 + l.mm
    (l.toFrame .f30d : Int) = (l.hh * 3600 + l.mm * 60 + l.ss) * 30 + l.ff - 2 * (m - m / 10) ∧
      l.toFrame .f30d ≤ 2589407 ∧ ({ hh := 0, mm := 0, ss := 0, ff := 0 } : Label).toFrame .f30d = 0 ∧
      ({ hh := 23, mm := 59, ss := 59, ff := 29 } : Label).toFrame .f30d = 2589407)

/-- Every frame number of the day has one legal label and every legal label names one frame number (R4, R8, R9). A position
names one line of one frame, and every position of the day is such a line (R14); the house instant is the position of the
house line (R25). -/
def Obligations.LabelsFramesAndPositionsAgree : Prop :=
  (∀ f : SuiteFormat,
    (∀ n, n < f.dayLen → (Label.ofFrame f n).legal f = true ∧ (Label.ofFrame f n).toFrame f = n) ∧
      (∀ l : Label, l.legal f = true → l.toFrame f < f.dayLen ∧ Label.ofFrame f (l.toFrame f) = l)) ∧
  (∀ f : SuiteFormat,
    (∀ n l, n < f.dayLen → 1 ≤ l → l ≤ f.lpf →
      f.position n l < f.dayLen * f.lpf ∧ f.position n l / f.lpf = n ∧ f.position n l % f.lpf + 1 = l) ∧
      (∀ p, p < f.dayLen * f.lpf →
        p / f.lpf < f.dayLen ∧ p % f.lpf + 1 ≤ f.lpf ∧ f.position (p / f.lpf) (p % f.lpf + 1) = p) ∧
      ∀ s : State, s.house = s.fmt.position s.ref.frame s.ref.line)

/-- R11: the signed wrapped difference of frame numbers, and of positions in lines. -/
def Obligations.WrappedDifference : Prop :=
  ∀ (f : SuiteFormat) (g : SuiteFormat → Nat → Nat → Int) (m : Nat),
    g = SuiteFormat.d ∧ m = f.dayLen ∨ g = SuiteFormat.dLines ∧ m = f.dayLen * f.lpf →
    ∀ a b : Nat, a < m → b < m →
      (((a : Int) - b) % m < (m / 2 : Nat) → g f a b = ((a : Int) - b) % m) ∧
      (¬((a : Int) - b) % m < (m / 2 : Nat) → g f a b = ((a : Int) - b) % m - m) ∧
      -((m / 2 : Nat) : Int) ≤ g f a b ∧ g f a b ≤ (m / 2 : Nat) - 1 ∧
      (((a : Int) - b) % m = (m / 2 : Nat) → g f a b = -((m / 2 : Nat) : Int) ∧ g f b a = -((m / 2 : Nat) : Int)) ∧
      (0 < g f a b ↔ ∃ k : Nat, 0 < k ∧ k < m / 2 ∧ a = (b + k) % m) ∧
      (g f a b < 0 ↔ ∃ k : Nat, 0 < k ∧ k ≤ m / 2 ∧ b = (a + k) % m) ∧ (g f a b = 0 ↔ a = b)

/-! ## House reference and house clock (chapter 2) -/

/-- In LOCKED a frame pulse that ends a frame of Lpf lines is the house frame start of the next frame; one that ends any
other frame leaves LOCKED for ABSENT and moves no house line (R21). In ABSENT a frame pulse opens ACQUIRING; in ACQUIRING
one that ends a frame of Lpf lines, not yet the fourth, counts it, one that ends any other frame leaves for ABSENT with the
cause LINE_COUNT and the good count 0 (Table 2-1), and the first after a restart opens the first frame. The house line does
not move (R19, R20, R29). The fourth good frame in a row locks: from field 1 the house goes back to line 1 of its frame with
no frame start, from field 2 on to line 1 of the next frame with a frame start; the notice carries the jump (R20, R23, R24).
Log 25 and 26 hold for the timer step and the counters, log 5 for the starts that the blocks then owe; the stamp of the
notice of a forward realignment is of log 61. -/
def Obligations.FramePulsesByState : Prop :=
  (∀ (s : State) (t : Time), s.asserted = false → s.ref.st = .locked →
    let n := s.fmt.addFrames s.ref.frame 1
    (s.ref.lineCount = s.fmt.lpf → exec (.framePulse false t) s = .next { s with
      now := max s.now t
      ref := { s.ref with lineCount := 1, pulseAt := t, line := 1, frame := n, stepAt := exact t, timerFrom := exact t }
      due := s.due.frameStart n }) ∧
    (s.ref.lineCount ≠ s.fmt.lpf → exec (.framePulse false t) s = .next ((({ s with
      now := max s.now t
      ref := { s.ref with
        st := .absent, lineCount := 1, pulseAt := t, stepAt := max s.ref.stepAt (exact t - s.fmt.linePeriod) } } :
          State).enter .referenceState 0 (refContent .absent (some .lineCount) none none)).refLost))) ∧
  (∀ (s : State) (t : Time), s.asserted = false →
    (s.ref.st = .absent → exec (.framePulse false t) s = .next (({ s with
      now := max s.now t
      ref := { s.ref with st := .acquiring, lineCount := 1, good := 0, pulseAt := t } } : State).enter .referenceState 0
        (refContent .acquiring none none (some .pulse)))) ∧
    (s.ref.st = .acquiring → s.ref.lineCount = 0 → exec (.framePulse false t) s = .next { s with
      now := max s.now t, ref := { s.ref with lineCount := 1, pulseAt := t } }) ∧
    (s.ref.st = .acquiring → s.ref.lineCount = s.fmt.lpf → s.ref.good < 3 → exec (.framePulse false t) s = .next { s with
      now := max s.now t, ref := { s.ref with lineCount := 1, good := s.ref.good + 1, pulseAt := t } }) ∧
    (s.ref.st = .acquiring → s.ref.lineCount ≠ 0 → s.ref.lineCount ≠ s.fmt.lpf → exec (.framePulse false t) s = .next
      (({ s with
        now := max s.now t, ref := { s.ref with st := .absent, lineCount := 1, good := 0, pulseAt := t } } : State).enter
          .referenceState 0 (refContent .absent (some .lineCount) none none)))) ∧
  (∀ (s : State) (t : Time), s.asserted = false → s.ref.st = .acquiring → s.ref.lineCount = s.fmt.lpf → s.ref.good = 3 →
    let n := s.fmt.addFrames s.ref.frame 1
    let r := { s.ref with
      st := .locked, lineCount := 1, good := 4, pulseAt := t, line := 1, stepAt := exact t, timerFrom := exact t }
    (s.fmt.inField2 s.ref.line = false → exec (.framePulse false t) s = .next (({ s with
      now := max s.now t, ref := r } : State).enter .referenceState 0
        (refContent .locked none (some (1 - (s.ref.line : Int))) none))) ∧
    (s.fmt.inField2 s.ref.line = true → exec (.framePulse false t) s = .next (({ s with
      now := max s.now t, ref := { r with frame := n }, due := s.due.frameStart n } : State).enter .referenceState 0
        (refContent .locked none (some ((s.fmt.lpf : Int) - s.ref.line + 1)) none))))

/-- A frame pulse with field identification showing field 2 is a line pulse (R18); in LOCKED a line pulse advances the house
line, unless it would raise the line count past Lpf: then LOCKED is left for ABSENT (R21); in ACQUIRING it is counted, or
past Lpf leaves for ABSENT with the cause LINE_COUNT and the good count 0 (Table 2-1); in ABSENT it is counted without
effect (R18, R19, R20, R29). The line count in ABSENT, and that the pulse past Lpf is not counted, are of log 26, the timer
step of log 25, the starts owed of log 5. -/
def Obligations.LinePulses : Prop :=
  ∀ (s : State) (t : Time), s.asserted = false →
    exec (.framePulse true t) s = exec (.linePulse t) s ∧
    (s.ref.st = .locked → s.ref.lineCount + 1 ≤ s.fmt.lpf → exec (.linePulse t) s = .next { s with
      now := max s.now t
      ref := { s.ref with line := s.ref.line + 1, lineCount := s.ref.lineCount + 1, stepAt := exact t }
      due := if s.ref.line = s.fmt.field1Last then s.due.field2Start s.ref.frame else s.due }) ∧
    (s.ref.st = .locked → s.fmt.lpf < s.ref.lineCount + 1 → exec (.linePulse t) s = .next ((({ s with
      now := max s.now t
      ref := { s.ref with st := .absent, stepAt := max s.ref.stepAt (exact t - s.fmt.linePeriod) } } : State).enter
        .referenceState 0 (refContent .absent (some .lineCount) none none)).refLost)) ∧
    (s.ref.st = .acquiring → 0 < s.ref.lineCount → s.ref.lineCount + 1 ≤ s.fmt.lpf → exec (.linePulse t) s = .next { s with
      now := max s.now t, ref := { s.ref with lineCount := s.ref.lineCount + 1 } }) ∧
    (s.ref.st = .acquiring → 0 < s.ref.lineCount → s.fmt.lpf < s.ref.lineCount + 1 → exec (.linePulse t) s = .next
      (({ s with now := max s.now t, ref := { s.ref with st := .absent, good := 0 } } : State).enter .referenceState 0
        (refContent .absent (some .lineCount) none none))) ∧
    (s.ref.st = .acquiring → s.ref.lineCount = 0 → exec (.linePulse t) s = .next { s with now := max s.now t }) ∧
    (s.ref.st = .absent → exec (.linePulse t) s = .next { s with
      now := max s.now t, ref := { s.ref with lineCount := s.ref.lineCount + 1 } })

/-- Three nominal frame periods without a taken frame pulse end ACQUIRING, and one frame period and one line period without
one end LOCKED: the unit is ABSENT, and the house line stays (R20, R21, R126). Outside LOCKED the frame timer steps the
house line one nominal line period after its latest step, and a step from line Lpf is a house frame start (R22, R25).
Leaving LOCKED adds REF_WARNING to the warnings of an edit in CUEING to RELEASE; outside these phases and in a safe stop it
adds nothing (R126, R184). The instants are exact (log 4); log 12 for the start of the long-frame test, log 25 for the first
step after LOCKED, log 5 for the starts owed. -/
def Obligations.MissingPulsesAndTimerSteps : Prop :=
  (∀ s : State,
    let e := s.edit
    let lasts := e.phase = .cueing ∨ e.phase = .rolling ∨ e.phase = .editing ∨ e.phase = .postroll ∨ e.phase = .release
    (lasts → s.link.safe = none → s.refLost = { s with edit := { e with warns := { e.warns with ref := true } } }) ∧
    (¬lasts ∨ s.link.safe.isSome = true → s.refLost = s)) ∧
  (∀ (s : State) (t : Time), s.asserted = false →
    (s.ref.st = .acquiring → exact s.ref.pulseAt + 3 * (s.fmt.lpf * s.fmt.linePeriod) ≤ exact t →
      exec (.noPulseTimeout t) s = .next (({ s with
        now := max s.now t, ref := { s.ref with st := .absent, good := 0 } } : State).enter .referenceState 0
          (refContent .absent (some .noPulse) none none))) ∧
    (s.ref.st = .locked → s.ref.timerFrom + s.fmt.lpf * s.fmt.linePeriod + s.fmt.linePeriod ≤ exact t →
      let e := s.edit
      exec (.latePulseTimeout t) s = .next (({ s with
        now := max s.now t
        ref := { s.ref with st := .absent, stepAt := max s.ref.stepAt (exact t - s.fmt.linePeriod) }
        edit := if (e.phase = .cueing ∨ e.phase = .rolling ∨ e.phase = .editing ∨ e.phase = .postroll ∨ e.phase = .release) ∧
            s.link.safe = none then { e with warns := { e.warns with ref := true } } else e } : State).enter
          .referenceState 0 (refContent .absent (some .latePulse) none none)))) ∧
  (∀ (s : State) (t : Time), s.asserted = false → s.ref.st ≠ .locked →
    let at' := s.ref.stepAt + s.fmt.linePeriod
    let n := s.fmt.addFrames s.ref.frame 1
    at' ≤ exact t →
    (s.ref.line < s.fmt.lpf → exec (.timerLineStep t) s = .next { s with
      now := max s.now t
      ref := { s.ref with line := s.ref.line + 1, stepAt := at' }
      due := if s.ref.line = s.fmt.field1Last then s.due.field2Start s.ref.frame else s.due }) ∧
    (s.ref.line = s.fmt.lpf → exec (.timerLineStep t) s = .next { s with
      now := max s.now t
      ref := { s.ref with line := 1, frame := n, stepAt := at', timerFrom := at' }
      due := s.due.frameStart n }))

/-- At a frame start the house frame number rises by one modulo L, or becomes a pending preset, from which the clock offset is
then made (R26, R27). Where the clock owes several, each step takes the first of them (log 5), and a preset takes effect at
the one taken next (log 63). SET_HOUSE_TIME holds the frame number of a legal label as the preset, and refuses an illegal
label (R27). -/
def Obligations.HouseClockAndItsPreset : Prop :=
  (∀ s : State, s.asserted = false → 0 < s.due.clock →
    let due := { s.due with clock := s.due.clock - 1 }
    let taken : Int := s.ref.frame + 1 - s.due.clock
    (s.clock.preset = none → exec .houseClockFrameStart s = .next { s with
      clock := { s.clock with frame := (s.clock.frame + 1) % s.fmt.dayLen }, due := due }) ∧
    ∀ p, s.clock.preset = some p → exec .houseClockFrameStart s = .next { s with
      clock := { frame := p, offset := (((p : Int) - taken) % s.fmt.dayLen).toNat, preset := none }, due := due }) ∧
  (∀ (s : State) (r : Request), Takes s 0x02 r →
    let l := labelAt r.params 0
    (l.legal s.fmt = true → exec .setHouseTime s = .next { answered s r .ok [.raw l.bytes] with
      clock := { s.clock with preset := some (l.toFrame s.fmt) } }) ∧
    (l.legal s.fmt = false → exec .setHouseTime s = .next (answered s r .timecodeInvalid [])))

/-! ## Timecode readers (chapter 3) -/

/-- A transition closes an interval. A glitch is discarded with both its transitions and merged into the interval before
it; any other interval becomes the pending one, and the one that was pending is released (R30). More than one and a half
cells without a transition lose bit sync: the window, the word in progress and the pending half are dropped, and the
chain, the candidate and the position record kept (R31). Log 13 has the discarded pair with no interval before it. It also has,
as the model's choices, that a loss declared so drops the pending interval unclassified, with no bit decoded and the estimate
unchanged, for "It is then judged at that moment" (R31) can be read otherwise; and that no loss is declared with no interval
pending. -/
def Obligations.TransitionsAndBitSync : Prop :=
  (∀ (s : State) (d : Deck) (t o : Time), s.asserted = false →
    let r := s.reader d
    let u := s.tick t
    (r.openFrom = none → exec (.tcTransition d t) s = .next (u.setReader d { r with openFrom := some t })) ∧
    (r.openFrom = some o → s.set.glitch * 1000 ≤ t - o → r.pend = none → exec (.tcTransition d t) s = .next
      (u.setReader d { r with openFrom := some t, pend := some { len := t - o, closedAt := t, house := s.house } })) ∧
    (∀ p, r.openFrom = some o → s.set.glitch * 1000 ≤ t - o → r.pend = some p → exec (.tcTransition d t) s = .next
      ((u.release d p).setReader d { (u.release d p).reader d with
        openFrom := some t, pend := some { len := t - o, closedAt := t, house := s.house } })) ∧
    (∀ p, r.openFrom = some o → t - o < s.set.glitch * 1000 → r.pend = some p → exec (.tcTransition d t) s = .next
      (u.setReader d { r with openFrom := some (p.closedAt - p.len), pend := none })) ∧
    (r.openFrom = some o → t - o < s.set.glitch * 1000 → r.pend = none → exec (.tcTransition d t) s = .next
      (u.setReader d { r with openFrom := none }))) ∧
  (∀ (s : State) (d : Deck) (t : Time) (p : Interval), s.asserted = false → (s.reader d).dec = .reading →
    (s.reader d).pend = some p → 3 * (s.reader d).est < 2 * (t - p.closedAt) →
    exec (.bitSyncTimeout d t) s = .next ((s.tick t).setReader d { s.reader d with
      dec := .searching, window := [], since := 0, rev := none, half := none, run := 0, halfRun := 0, halfMax := 0
      pend := none })) ∧
  (∀ (s : State) (d : Deck) (t : Time), s.asserted = false → (s.reader d).pend = none →
    exec (.bitSyncTimeout d t) s = .next (s.tick t))

/-- A released interval of m ns against the estimate E (R31 to R33). Over-long (m > 1.5 E): bit sync is lost, or the run
restarts, and the estimate is reseeded with m. Full: the estimate moves a quarter of the way, and with no half pending a bit 0
is decoded; with one pending it is a bit error, and the first bit 0 of a new run in SEARCHING. Half (m < 0.75 E): it becomes
the pending half, or completes a bit 1 of the pair's length; in SEARCHING the 40th of a half-run reseeds the estimate. A bit
decoded in SEARCHING lengthens the run, and the sixteenth enters READING. A bit decoded in READING enters the window, counts
against a reverse word in progress, starts one at the reversed sync pattern, or completes the 80 cells of a word, which is
taken with the stamp of the interval's closing transition (R34). That the half-run is zeroed when bit sync is gained or lost, at the
clauses that enter READING or SEARCHING, is of log 13. -/
def Obligations.IntervalsBecomeBitsAndWords : Prop :=
  ∀ (s : State) (d : Deck) (t o : Time) (p : Interval), s.asserted = false → (s.reader d).openFrom = some o →
    s.set.glitch * 1000 ≤ t - o → (s.reader d).pend = some p →
    let r := s.reader d
    let m := p.len
    let quarter (n : Nat) := max 40000 (min 5000000 ((3 * r.est + n) / 4))
    let next (x : Reader) : Host.Outcome State Fault Refusal := .next ((s.tick t).setReader d { x with
      openFrom := some t, pend := some { len := t - o, closedAt := t, house := s.house } })
    let dropped := { r with
      dec := DecState.searching, window := [], since := 0, rev := none, half := none, run := 0, halfRun := 0, halfMax := 0 }
    let full := 3 * r.est ≤ 4 * m ∧ 2 * m ≤ 3 * r.est
    (3 * r.est < 2 * m → 3 * r.est ≤ 4 * m →
      exec (.tcTransition d t) s = next { dropped with est := max 40000 (min 5000000 m) }) ∧
    (∀ h, full → r.half = some h →
      exec (.tcTransition d t) s = next { dropped with est := quarter m, run := 1, window := [false] }) ∧
    (4 * m < 3 * r.est → r.dec = .reading → r.halfRun < 40 → r.half = none →
      exec (.tcTransition d t) s = next { r with half := some m }) ∧
    (4 * m < 3 * r.est → r.dec = .searching → r.halfRun + 1 < 40 → r.half = none →
      exec (.tcTransition d t) s = next { r with half := some m, halfRun := r.halfRun + 1, halfMax := max r.halfMax m }) ∧
    (4 * m < 3 * r.est → r.dec = .searching → 40 ≤ r.halfRun + 1 →
      exec (.tcTransition d t) s = next { dropped with est := max 40000 (min 5000000 (max r.halfMax m)) }) ∧
    ∀ (b : Bool) (r' : Reader),
      (b = false ∧ full ∧ r.half = none ∧ r' = { r with est := quarter m, halfRun := 0, halfMax := 0 } ∨
        b = true ∧ 4 * m < 3 * r.est ∧ r.dec = .reading ∧ r.halfRun < 40 ∧
          (∃ h, r.half = some h ∧ r' = { r with est := quarter (h + m), half := none }) ∨
        b = true ∧ 4 * m < 3 * r.est ∧ r.dec = .searching ∧ r.halfRun + 1 < 40 ∧
          (∃ h, r.half = some h ∧ r' = { r with
            est := quarter (h + m), half := none, halfRun := r.halfRun + 1, halfMax := max r.halfMax m })) →
      let w := (b :: r.window).take 80
      let n := min 80 (r.since + 1)
      let forward := [true, false] ++ List.replicate 12 true ++ [false, false]
      let reversed := [false, false] ++ List.replicate 12 true ++ [false, true]
      let word (x : Reader) (c : TakenWord) : Host.Outcome State Fault Refusal :=
        let u := ((s.tick t).setReader d { x with window := w, rev := none, since := 0 }).takeWord d c p.house
        .next (u.setReader d { u.reader d with
          openFrom := some t, pend := some { len := t - o, closedAt := t, house := s.house } })
      (r.dec = .searching → r.run + 1 < 16 → exec (.tcTransition d t) s = next { r' with window := w, run := r.run + 1 }) ∧
      (r.dec = .searching → 16 ≤ r.run + 1 → exec (.tcTransition d t) s = next { r' with
        dec := .reading, window := w.take 16, since := 16, rev := none, run := 0, halfRun := 0, halfMax := 0 }) ∧
      (∀ k, r.dec = .reading → r.rev = some k → 2 ≤ k →
        exec (.tcTransition d t) s = next { r' with window := w, since := n, rev := some (k - 1) }) ∧
      (r.dec = .reading → r.rev = some 1 → exec (.tcTransition d t) s = word r' { cells := w, dir := .reverse }) ∧
      (r.dec = .reading → r.rev = none → w.take 16 = forward → 80 ≤ n →
        exec (.tcTransition d t) s = word r' { cells := w.reverse, dir := .forward }) ∧
      (r.dec = .reading → r.rev = none → w.take 16 = reversed →
        exec (.tcTransition d t) s = next { r' with window := w, since := n, rev := some 64 }) ∧
      (r.dec = .reading → r.rev = none → ¬(w.take 16 = forward ∧ 80 ≤ n) → w.take 16 ≠ reversed →
        exec (.tcTransition d t) s = next { r' with window := w, since := n })

/-- A word is good when its digits are those of a legal label and its drop-frame flag that of the format; a bad word is
counted and breaks the count of good words (R35). A good word sets speed, class and the count of frames without a word
(R36). It is accepted when it follows the chain, or replaces the flywheel's word, or follows the candidate; any other
becomes the candidate (R37). An accepted word updates the position record of a PRESENT deck, with a READER_STATE entry where
the source was another (R38). The record's position is extrapolated along its direction, and line time while the deck moves
(R39). That a word is compared with chain and candidate in its own direction, that one in place of the flywheel's word makes
a chain that is not synthesised, and that R37 does not ask for presence, are of log 13; that R39 is followed where the
worked example of 3.10.2 adds fewer lines, of log 49. -/
def Obligations.WordsAreCheckedAndAccepted : Prop :=
  (∀ (f : SuiteFormat) (c : List Bool), wordOk f c = true ↔ ∃ l : Label, l.legal f = true ∧ wordLabel c = l ∧
    cellNat c 0 4 = l.ff % 10 ∧ cellNat c 4 2 = l.ff / 10 ∧ cellNat c 8 4 = l.ss % 10 ∧ cellNat c 12 3 = l.ss / 10 ∧
    cellNat c 16 4 = l.mm % 10 ∧ cellNat c 20 3 = l.mm / 10 ∧ cellNat c 24 4 = l.hh % 10 ∧ cellNat c 28 2 = l.hh / 10 ∧
    c.getD 6 false = (f == .f30d)) ∧
  (∀ (s : State) (d : Deck) (w : TakenWord) (stamp : Nat),
    let f := s.fmt
    let r := s.reader d
    let n := (wordLabel w.cells).toFrame f
    let user : BitVec 32 := BitVec.ofNat 32 (cellNat w.cells 32 32)
    let v := (2 * (1000 * f.nominalCell) + r.est) / (2 * r.est)
    let heard := { r with
      speed := if w.dir = Direction.forward then (v : Int) else -v
      cls := if v < 900 then SpeedClass.slow else if v ≤ 1100 then .play else .fast
      noWord := 0 }
    let on (m : Nat) := if w.dir = Direction.forward then f.addFrames m 1 else f.addFrames m (-1)
    let follows := ∃ c, r.chain = some c ∧ n = on c.frame
    let corrects := ∃ c, r.chain = some c ∧ c.synth = true ∧ n = c.frame ∧ w.dir = c.dir
    let confirms := ∃ c, r.cand = some c ∧ n = on c.frame
    let chained (good : Nat) := { heard with
      chain := some { frame := n, dir := w.dir, synth := false }, cand := none, good := good }
    let taken (good : Nat) : State :=
      let new := { chained good with
        mark := some { frame := n, stamp := stamp }, dir := w.dir, user := user, fly := 0, src := .ltc }
      if (s.port d).presence ≠ .present then s.setReader d (chained good)
      else if r.src = .ltc then s.setReader d new
      else (s.setReader d new).enter .readerState (Deck.num d) (new.noticeContent r.src .word)
    (wordOk f w.cells = false → s.takeWord d w stamp = s.setReader d { r with bad := min 65535 (r.bad + 1), good := 0 }) ∧
    (wordOk f w.cells = true →
      (follows ∨ corrects → s.takeWord d w stamp = taken (min 65535 (r.good + 1))) ∧
      (¬follows → ¬corrects → confirms → s.takeWord d w stamp = taken 2) ∧
      (¬follows → ¬corrects → ¬confirms → s.takeWord d w stamp =
        s.setReader d { heard with cand := some { frame := n, dir := w.dir, stamp := stamp, user := user }, good := 0 }))) ∧
  (∀ (s : State) (d : Deck) (t : Nat), (s.reader d).src = .none ∨ (s.reader d).mark = none → s.extrap d t = none) ∧
  (∀ (s : State) (d : Deck) (m : Mark) (t : Nat), (s.reader d).mark = some m →
    let f := s.fmt
    let day : Int := f.dayLen * f.lpf
    let gone : Int := f.dLines t m.stamp
    ((s.reader d).src = .ltc ∨ (s.reader d).src = .flywheel → (s.reader d).dir = .forward →
      s.extrap d t = some (((m.frame + 1) * f.lpf + gone) % day).toNat) ∧
    ((s.reader d).src = .ltc ∨ (s.reader d).src = .flywheel → (s.reader d).dir = .reverse →
      s.extrap d t = some ((m.frame * f.lpf - gone) % day).toNat) ∧
    ((s.reader d).src = .line → (s.port d).flag 3 = true ∨ (s.port d).flag 4 = true →
      s.extrap d t = some ((m.frame * f.lpf + gone) % day).toNat) ∧
    ((s.reader d).src = .line → (s.port d).flag 3 = false → (s.port d).flag 4 = false →
      s.extrap d t = some (m.frame * f.lpf)))

/-- At a frame start, a record at play speed that is more than Lpf + 64 lines old gets one synthesised word from the
flywheel, while its limit lasts (R40). Past the limit LTC is lost with the cause LIMIT, and a flywheel's record at another
speed with NOT_PLAY; the third frame start without a word makes the class STILL and loses LTC with the cause STILL. A record
on LINE or with no source takes that count and its class alone (R40). A lost record goes to LINE at the extrapolated frame
where a PRESENT deck gives its time, else to no source, with its notice (R41). That the count of consecutive good words is
kept is of log 66. The lost record's frame follows R39 and R41, and not the worked example of 3.10.2, by log 49; the starts
owed and their instants are of log 5, the row of the third count of log 7. -/
def Obligations.ReaderFrameStartTests : Prop :=
  (∀ (s : State) (d : Deck) (m : Mark), s.asserted = false → 0 < s.due.reader[d.val] →
    let r := s.reader d
    let k := s.due.reader[d.val]
    (r.src = .ltc ∨ r.src = .flywheel) → r.cls = .play → r.mark = some m →
    (s.fmt.lpf : Int) + 64 < s.fmt.dLines (s.startInstant k) m.stamp → r.fly < s.set.flyLimit →
    let n := match r.dir with
      | .forward => s.fmt.addFrames m.frame 1
      | .reverse => s.fmt.addFrames m.frame (-1)
    let new : Reader := { r with
      mark := some { frame := n, stamp := s.fmt.addLines m.stamp s.fmt.lpf }
      chain := some { frame := n, dir := r.dir, synth := true }, fly := r.fly + 1, noWord := 0, src := .flywheel }
    let u : State := ({ s with due := { s.due with reader := s.due.reader.set d.val (k - 1) } } : State).setReader d new
    exec (.readerFrameTests d) s = .next
      (if r.src = .flywheel then u else u.enter .readerState (Deck.num d) (new.noticeContent .ltc .flywheel))) ∧
  (∀ (s : State) (d : Deck) (p : Nat) (m : Mark), s.asserted = false → 0 < s.due.reader[d.val] →
    let r := s.reader d
    let k := s.due.reader[d.val]
    let at' := s.startInstant k
    let old := (s.fmt.lpf : Int) + 64 < s.fmt.dLines at' m.stamp
    let n := min 3 (r.noWord + 1)
    let u : State := { s with due := { s.due with reader := s.due.reader.set d.val (k - 1) } }
    let lost (x : Reader) : Reader :=
      if (s.port d).hasLineTime = true then { x with
        src := .line, dir := .forward
        mark := some { frame := p / s.fmt.lpf, stamp := s.fmt.addLines at' (-((p % s.fmt.lpf : Nat) : Int)) } }
      else { x with src := .none }
    let still : Reader := { r with noWord := n, cls := if n = 3 then .still else r.cls }
    let loses (c : ReaderCause) : Host.Outcome State Fault Refusal := .next
      (((u.setReader d (lost r)).enter .readerState (Deck.num d) ((lost r).noticeContent r.src c)).setReader d
        { lost r with noWord := still.noWord, cls := still.cls })
    r.mark = some m → s.extrap d at' = some p → r.src = .ltc ∨ r.src = .flywheel →
    (r.cls = .play → old → s.set.flyLimit ≤ r.fly → exec (.readerFrameTests d) s = loses .limit) ∧
    (r.cls ≠ .play → r.src = .flywheel → exec (.readerFrameTests d) s = loses .notPlay) ∧
    (¬(r.cls = .play ∧ old) → ¬(r.src = .flywheel ∧ r.cls ≠ .play) →
      (n < 3 → exec (.readerFrameTests d) s = .next (u.setReader d still)) ∧
      (n = 3 → exec (.readerFrameTests d) s = .next ((u.setReader d (lost still)).enter .readerState (Deck.num d)
        ((lost still).noticeContent r.src .still))))) ∧
  (∀ (s : State) (d : Deck), s.asserted = false → 0 < s.due.reader[d.val] →
    (s.reader d).src = .line ∨ (s.reader d).src = .none →
    let r := s.reader d
    let n := min 3 (r.noWord + 1)
    let u : State := { s with due := { s.due with reader := s.due.reader.set d.val (s.due.reader[d.val] - 1) } }
    exec (.readerFrameTests d) s = .next (u.setReader d { r with noWord := n, cls := if n = 3 then .still else r.cls })) ∧
  (∀ (s : State) (d : Deck), s.asserted = false → 0 < s.due.reader[d.val] → (s.reader d).noWord = 2 →
    let r := s.reader d
    let k := s.due.reader[d.val]
    let u : State := { s with due := { s.due with reader := s.due.reader.set d.val (k - 1) } }
    (r.src = .line ∨ r.src = .none → exec (.stillCountReached d) s = .next
      (u.setReader d { r with noWord := 3, cls := .still })) ∧
    (r.src = .ltc → s.overdue d (s.startInstant k) = false → (s.port d).hasLineTime = false →
      let new : Reader := { r with noWord := 3, cls := .still, src := .none }
      exec (.stillCountReached d) s = .next
        ((u.setReader d new).enter .readerState (Deck.num d) (new.noticeContent .ltc .still))))

/-! ## Deck ports (chapter 4) -/

/-- A command whose last byte is out awaits its reply from then (R50); one left by a soft reset frees the line (R72, log
44). After 3 ms without a byte RECOVERING ends and the next command is handed (R52, R61). A late reply and a stray frame
form from their bytes: a whole one, or one with a bad length byte, is discarded and counted against a PRESENT deck; bytes
after that late reply are discarded; a part is kept, which the 3 ms gap breaks and counts (R52, R55). That bytes in
RECOVERING go to an open stray frame, and that the quiet time runs from the later of entry and latest byte, is of log 29.
The attach timer posts IDENTIFY on an enabled ABSENT port 500 ms after the last posting, or at once with none made, and
hands it if the line is free (R57, R61); that any waiting poll keeps it out, the timer counting from that attempt, is of log
31. At a frame start (log 5) a PRESENT deck with window closed and slot empty gets a poll, a TIME_SENSE at odd parity on
line time, and the parity flips (R54, R65, R66). Bytes come in chunks cut anywhere (log 8). The hand (R61 to R66, R68, R120,
R122, R129): an IDLE line takes the first command of the first slot it may serve, in the order EMERGENCY, SEQUENCER, SERVO,
PASS, POLL; of an item RECORD_OFF and then STOP; on a DISABLED port EMERGENCY alone; PASS and POLL not while the quiet
window is open or its hold lasts. A VARISPEED goes at the nearest speed of the deck's range, 500 to 1500 where none is
stored. RECORD_ON makes record stand, RECORD_OFF ends that and closes the window, and every command but a sense clears the
fresh mark. The sequencer is told of its RECORD_ON and RECORD_OFF and, with an abort taken in EDITING, of the item's
RECORD_OFF, at which the phase is RELEASE; a channel of the speed it has sent. A busy line takes nothing. With the timer
expired and record standing: O36. That the item's RECORD_OFF sets OFF_HANDED and the hand frame is of log 33; a hand with no
position, of 58; which frame start ends the hold, of 56. -/
def Obligations.DeckLineStatesAndPolls : Prop :=
  (∀ (s : State) (d : Deck) (t : Time), s.asserted = false → (s.port d).line = .sending →
    ((s.port d).flight.isSome = true →
      exec (.commandSent d t) s = .next ((s.tick t).setPort d { s.port d with line := .awaiting, replyFrom := t })) ∧
    ((s.port d).flight = none →
      exec (.commandSent d t) s = .next (((s.tick t).setPort d { s.port d with line := .idle }).hand d))) ∧
  (∀ (s : State) (d : Deck) (t : Time), s.asserted = false →
    let p := s.port d
    let begun : Bool := match p.late with
      | .reply f => !f.bytes.isEmpty
      | .nothing => false
    let n := (if p.stray.isSome then 1 else 0) + if begun then 1 else 0
    let cut : Port := { p with
      stray := none, late := if begun then .nothing else p.late
      fails := if p.presence = .present then p.fails + n else p.fails }
    (p.presence = .present → p.fails + n < 3) → p.byteAt + ms 3 ≤ t →
    (p.line ≠ .receiving → exec (.deckGapTimeout d t) s = .next ((s.tick t).setPort d cut)) ∧
    (p.line = .recovering → p.replyFrom + ms 3 ≤ t → exec (.recoveryQuiet d t) s = .next
      (((s.tick t).setPort d { cut with line := .idle, late := .nothing }).hand d))) ∧
  (∀ (s : State) (d : Deck) (t : Time) (cs rest : List LineChar) (f : RxFrame), s.asserted = false →
    let p := s.port d
    let got : RxFrame := { bytes := f.bytes ++ cs.map LineChar.byte, bad := f.bad || cs.any LineChar.bad }
    let n := byteN got.bytes 0
    let open' := f.bytes = [] ∨ 2 ≤ byteN f.bytes 0 ∧ byteN f.bytes 0 ≤ 18 ∧ f.bytes.length ≤ byteN f.bytes 0
    let whole := (n < 2 ∨ 18 < n) ∧ f.bytes = [] ∧ cs.length = 1 ∨ 2 ≤ n ∧ n ≤ 18 ∧ got.bytes.length = n + 1
    let part := 2 ≤ n ∧ n ≤ 18 ∧ got.bytes.length ≤ n
    let fails := if p.presence = .present then p.fails + 1 else p.fails
    let takes (c : Deck → List LineChar → Time → Instr) (xs : List LineChar) (q : Port) :=
      exec (c d xs t) s = .next ((s.tick t).setPort d q)
    p.presence ≠ .disabled → (p.presence = .present → p.fails < 2) → open' → cs ≠ [] →
    (p.line = .recovering → p.stray = none → p.late = .reply f →
      (whole → takes .lateReplyReceived (cs ++ rest) { p with late := .nothing, byteAt := t, fails := fails }) ∧
      (part → takes .lateReplyReceived cs { p with late := .reply got, byteAt := t })) ∧
    (p.line = .recovering → p.stray = none → p.late = .nothing → takes .lateReplyReceived cs { p with byteAt := t }) ∧
    (p.line ≠ .receiving → (p.line = .awaiting ∨ p.line = .recovering → p.stray.isSome = true) →
      p.stray.getD { bytes := [], bad := false } = f →
      (whole → takes .strayFrameReceived cs { p with stray := none, byteAt := t, fails := fails }) ∧
      (part → takes .strayFrameReceived cs { p with stray := some got, byteAt := t }))) ∧
  (∀ (s v : State) (d : Deck) (t : Time) (cs rest : List LineChar) (c : Deck → List LineChar → Time → Instr),
    c = .deckReplyReceived ∨ c = .lateReplyReceived ∨ c = .strayFrameReceived → exec (c d cs t) s = .next v →
    exec (c d (cs ++ rest) t) s = exec (c d rest t) v) ∧
  (∀ (s : State) (d : Deck) (t : Time), s.asserted = false →
    let p := s.port d
    p.presence = .absent → p.enabled = true → (∀ a, p.attachAt = some a → a + ms 500 ≤ t) →
    exec (.attachTimer d t) s = .next
      (((s.tick t).setPort d { p with attachAt := some (max s.now t), poll := some (p.poll.getD .identify) }).hand d)) ∧
  (∀ (s : State) (d : Deck), s.asserted = false → 0 < s.due.port[d.val] →
    let p := s.port d
    let u : State := { s with due := { s.due with port := s.due.port.set d.val (s.due.port[d.val] - 1) } }
    let aged := if p.flags.isSome then min 255 (p.age + 1) else p.age
    (p.presence = .present → p.quiet = false → p.poll = none → exec (.deckPortFrameStart d) s = .next
      ((u.setPort d { p with
        age := aged, hold := false, odd := !p.odd
        poll := some (if p.odd && (s.reader d).src == .line then .timeSense else .statusSense) }).hand d)) ∧
    (p.presence ≠ .present ∨ p.quiet = true ∨ p.poll.isSome = true → exec (.deckPortFrameStart d) s = .next
      ((u.setPort d { p with age := aged, hold := false }).hand d))) ∧
  (∀ (s : State) (d : Deck), s.link.expired = false ∨ s.link.stopTaken = true ∨ s.safeStop = true →
    ((s.port d).line ≠ .idle → s.hand d = s) ∧ ((s.port d).line = .idle →
    let p := s.port d
    let e := s.edit
    let range := (p.ident.bind Identity.range).getD (500, 1500)
    let clamped (c : DeckCmd) : DeckCmd := match c with
      | .varispeed v => .varispeed (max range.1 (min range.2 v))
      | c => c
    let sends (q : Port) (c : DeckCmd) (o : Origin) : Port := { q with
      line := .sending, flight := some ⟨c, o⟩, tx := c.frame s.fmt, fresh := q.fresh && c.isSense }
    let off (q : Port) : Port := { q with standing := false, quiet := false, hold := q.quiet || q.hold }
    let free := p.emerg = none ∧ p.presence ≠ .disabled
    let below := free ∧ p.seqSlot = { first := none, second := none }
    let low := below ∧ p.servo = none
    let barred := p.quiet = true ∨ p.hold = true
    (∀ a b, p.emerg = some { recordOff := true, toSeq := a, toSafe := b } →
      let v := s.setPort d (sends (off { p with emerg := some { recordOff := false, toSeq := a, toSafe := b } }) .recordOff
        .emergencyOff)
      (e.phase = .editing → e.abort.isSome = true → s.safeStop = false →
        s.hand d = ({ v with edit := { e with stage := .offHanded, offFrame := s.recNow } } : State).setPhase .release) ∧
      (e.phase ≠ .editing ∨ e.abort = none ∨ s.safeStop = true → s.hand d = v)) ∧
    (∀ a b, p.emerg = some { recordOff := false, toSeq := a, toSafe := b } →
      s.hand d = s.setPort d (sends { p with emerg := none } .stop (.emergencyStop a b))) ∧
    (p.emerg = none → p.presence = .disabled → s.hand d = s) ∧
    (∀ c x, free → p.seqSlot.first = some c ∧ p.seqSlot.second = x ∨
        p.seqSlot.first = none ∧ p.seqSlot.second = some c ∧ x = none →
      let q := { p with seqSlot := { first := none, second := x } }
      (c.isRecord = false → s.hand d = s.setPort d (sends q (clamped c) .sequencer)) ∧
      (∀ tracks kind, c = .recordOn tracks kind →
        let v := s.setPort d { sends q c .sequencer with standing := true }
        ((e.phase = .rolling ∨ e.phase = .editing) ∧ s.safeStop = false →
          s.hand d = { v with edit := { e with stage := .onHanded, onFrame := s.recNow } }) ∧
        (¬((e.phase = .rolling ∨ e.phase = .editing) ∧ s.safeStop = false) → s.hand d = v)) ∧
      (c = .recordOff →
        let v := s.setPort d (sends (off q) .recordOff .sequencer)
        let late := s.recNow.any fun y => e.active.any fun x =>
          2 ≤ s.fmt.d y (s.fmt.addFrames x.2.recOut (-(e.offDelay : Int)))
        (e.phase = .editing → s.safeStop = false → s.hand d = ({ v with edit := { e with
          stage := .offHanded, offFrame := s.recNow, deadline := e.postroll + 25
          warns := { e.warns with lateOut := e.warns.lateOut || late } } } : State).setPhase .postroll) ∧
        (e.phase ≠ .editing ∨ s.safeStop = true → s.hand d = v))) ∧
    (∀ x, below → p.servo = some x → x.cmd.isRecord = false →
      let c := s.chan d
      let own := c.gen = x.gen ∧ c.st ≠ .idle ∧ c.st ≠ .fault ∧ s.safeStop = false
      let v := s.setPort d (sends { p with servo := none } (clamped x.cmd) (.servo x.gen x.loc))
      (own → x.cmd = .play → s.hand d = v.setChan d { c with speed := some 1000 }) ∧
      (∀ n, own → clamped x.cmd = .varispeed n → s.hand d = v.setChan d { c with speed := some n }) ∧
      (¬own ∨ (x.cmd ≠ .play ∧ ∀ n, x.cmd ≠ .varispeed n) → s.hand d = v)) ∧
    (∀ x, low → ¬barred → p.pass = some x → x.cmd.isRecord = false →
      s.hand d = s.setPort d (sends { p with pass := none } (clamped x.cmd) (.pass x.kind x.tag))) ∧
    (∀ c, low → ¬barred → p.pass = none → p.poll = some c → c.isRecord = false →
      s.hand d = s.setPort d (sends { p with poll := none } (clamped c) .poll)) ∧
    (low → barred ∨ (p.pass = none ∧ p.poll = none) → s.hand d = s)))

/-- An undamaged reply, to a poll or to a command passed through, frees the line for the next command; it clears the failure
count of a PRESENT deck, and a command passed through is answered to the host (R50, R55, R70). A STATUS_REPLY of a PRESENT
deck sets the flags and the fresh mark, clears the age, and enters DECK_STATUS where the flags changed; of an ABSENT one it
changes no field (R54). An IDENT_REPLY, with or without VARISPEED, RECORD and a model text, attaches an ABSENT deck and
replaces a PRESENT one's identity where it differs: the speed range is stored within 500 to 1500 with play speed in it, the
other figures are clamped, and INSERT is dropped without RECORD (R57, Table 4-7, Table 12-7). A TIME_REPLY with a legal
label gives a record on LINE its frame, and a record with no source the source LINE where a PRESENT deck gives its time; LTC
and the flywheel ignore it, and an illegal label is not taken (R42, R59). A NAK stores its reason, whatever the presence
(R55). The host is answered OK with the data as received, or for an ACK as sent; TIMECODE_INVALID for the illegal label;
NAKED with the reason (R53, R70). The contents of DECK_PRESENCE with the cause IDENTITY, of DECK_STATUS and of the ACKED
reply are of log 30. That the record and the reader take a reply before the host is answered, and the line is served last,
is of log 19. -/
def Obligations.DeckRepliesAreTaken : Prop :=
  ∀ (s : State) (d : Deck) (t : Time) (o : Origin), s.asserted = false → o = .poll ∨ o.isPass = true →
    let p := s.port d
    let kept : Port := { p with line := .idle, flight := none, rx := none, byteAt := t }
    let well : Port := { kept with fails := if p.presence = .present then 0 else p.fails }
    let frame (code : Byte) (data : List Byte) : List LineChar :=
      let body := BitVec.ofNat 8 (data.length + 2) :: code :: data
      (body ++ [body.foldl (· ^^^ ·) 0]).map fun b => ⟨b, false⟩
    let taken (code : Byte) (data : List Byte) (u : State) (vals : List Val) :=
      exec (.deckReplyReceived d (frame code data) t) s = .next ((passAnswered u o vals).hand d)
    p.line = .awaiting → p.stray = none → p.rx = none → p.presence ≠ .disabled →
    (∀ hi lo : Byte, p.flight = some ⟨.statusSense, o⟩ →
      let flags : BitVec 10 := BitVec.ofNat 10 (hi.toNat * 256 + lo.toNat)
      let u := (s.tick t).setPort d { well with flags := some flags, age := 0, fresh := true }
      (p.presence = .present → taken 0x82 [hi, lo] (if p.flags = some flags then u
        else u.enter .deckStatus (Deck.num d) [.u 2 flags.toNat, .u 2 (flags ^^^ p.flags.getD 0).toNat])
        [.u 1 Result.ok.code, .raw [hi, lo]]) ∧
      (p.presence = .absent → taken 0x82 [hi, lo] ((s.tick t).setPort d kept) [.u 1 Result.ok.code, .raw [hi, lo]])) ∧
    (∀ (ty caps hi lo start minHi minLo maxHi maxLo on off : Byte) (text : List Byte), p.flight = some ⟨.identify, o⟩ →
      let speeds := caps.getLsbD 0
      let records := caps.getLsbD 1
      let data := [ty, caps, hi, lo, start] ++ (if speeds then [minHi, minLo, maxHi, maxLo] else []) ++
        (if records then [on, off] else []) ++ text
      let within (v : Nat) := max 500 (min 1500 v)
      let i : Identity :=
        { typeCode := ty.toNat, model := text, minPreroll := min 750 (hi.toNat * 256 + lo.toNat)
          caps := { varispeed := speeds, record := records, insert := caps.getLsbD 2 && records, ltcOut := caps.getLsbD 3
                    timeSense := caps.getLsbD 4 }
          range := if speeds then some (min 1000 (within (minHi.toNat * 256 + minLo.toNat)),
            max 1000 (within (maxHi.toNat * 256 + maxLo.toNat))) else none
          delays := if records then some (min 15 on.toNat, min 15 off.toNat) else none
          playStart := min 60 start.toNat }
      let ok := [.u 1 Result.ok.code, .raw data]
      let shows (why : PresenceCause) (u : State) := u.enter .deckPresence (Deck.num d)
        [.u 1 Presence.present.code, .u 1 why.code, .u 1 i.typeCode, .u 1 i.caps.code]
      data.length ≤ 16 →
      (p.presence = .absent → taken 0x84 data (shows .attached ((s.tick t).setPort d { kept with
        presence := .present, ident := some i, fails := 0, attachAt := none })) ok) ∧
      (p.presence = .present → p.ident ≠ some i →
        taken 0x84 data (shows .identity ((s.tick t).setPort d { well with ident := some i })) ok) ∧
      (p.presence = .present → p.ident = some i → taken 0x84 data ((s.tick t).setPort d well) ok)) ∧
    (∀ c : DeckCmd, o.isPass = true → p.flight = some ⟨c, o⟩ → c.isSense = false →
      taken 0x80 [] ((s.tick t).setPort d well) [.u 1 Result.ok.code, .u 1 0, .raw ((p.tx.drop 2).dropLast)]) ∧
    (∀ hh mm ss ff : Byte, p.flight = some ⟨.timeSense, o⟩ →
      let l : Label := { hh := hh.toNat, mm := mm.toNat, ss := ss.toNat, ff := ff.toNat }
      let r := s.reader d
      let u := (s.tick t).setPort d well
      let marked := { r with mark := some { frame := l.toFrame s.fmt, stamp := s.house } }
      let found : Reader := { marked with dir := .forward, src := .line }
      let takes (v : State) := taken 0x83 [hh, mm, ss, ff] v
      let ok := [.u 1 Result.ok.code, .raw [hh, mm, ss, ff]]
      (l.legal s.fmt = true → r.src = .line → takes (u.setReader d marked) ok) ∧
      (l.legal s.fmt = true → r.src = .none → p.hasLineTime = true →
        takes ((u.setReader d found).enter .readerState (Deck.num d) (found.noticeContent .none .timeReply)) ok) ∧
      (l.legal s.fmt = true → r.src = .ltc ∨ r.src = .flywheel ∨ (r.src = .none ∧ p.hasLineTime = false) → takes u ok) ∧
      (l.legal s.fmt = false → takes u [.u 1 Result.timecodeInvalid.code])) ∧
    (∀ (c : DeckCmd) (why : Byte), p.flight = some ⟨c, o⟩ →
      let reason := NakReason.ofByte why.toNat
      taken 0x81 [why] ((s.tick t).setPort d { well with nak := some reason }) [.u 1 Result.naked.code, .u 1 reason.code])

/-- A poll or a command passed through that gets no reply for 12 ms, or whose reply breaks off for 3 ms, counts one failure
of a PRESENT deck, and the line recovers; the command passed through is answered TIMEOUT or LINE_ERROR, and its late reply
makes no second reply (R50, R51, R52, R55, R70). So it is with a damaged reply that arrives whole: one with a bad length
byte at that byte; one with a parity or framing error, an exclusive-or other than 0, no reply code, a data count not allowed
for it or a kind that does not fit the command at its check byte (R49, R51, R190). The bytes after it are discarded, and
nothing of it is used (R51, R52). The third failure in a row makes a deck ABSENT: identity, flags, NAK reason and record-
standing are cleared, its reader loses its source, IDENTIFY is posted, and DECK_PRESENCE is entered with presence and cause
(R55, R56, R57). Its own active channel enters FAULT with SLAVE_LOST and every active channel that follows it with
MASTER_LOST, each posting STOP to its slave and entering CHASE_STATE (R88, R89), and an edit that involves it is aborted
with DECK_LOST: its EMERGENCY item is STOP alone, whether it stood on record or not, the recorder's open window is closed,
and without record standing the phase is RELEASE (R128, R129, R62). An IDLE line has no item of EMERGENCY or SEQUENCER
waiting, for the arbiter would have handed it. The model's own: that the TIMEOUT reply stands ahead of the ABORTED replies
is of log 19, that these stand in the order recorder, source A, source B, of log 55; that Port.replyFrom then holds the
entry into RECOVERING, of log 29; that IDENTIFY is posted only on an empty POLL slot, of log 31. The layout of CHASE_STATE
is of log 30, the serial numbers of a STOP of log 16. -/
def Obligations.DeckFailuresAreCounted : Prop :=
  (∀ (s : State) (d : Deck) (x : Flight) (t : Time), s.asserted = false →
    let p := s.port d
    let failed : Port := { p with
      flight := none, rx := none, fails := if p.presence = .present then p.fails + 1 else p.fails, line := .recovering
      replyFrom := t }
    p.flight = some x → x.origin = .poll ∨ x.origin.isPass = true → (p.presence = .present → p.fails < 2) →
    (p.line = .awaiting → p.replyFrom + ms 12 ≤ t → exec (.replyTimeout d t) s = .next (passAnswered
      ((s.tick t).setPort d { failed with late := .reply { bytes := [], bad := false } }) x.origin [.u 1 Result.timeout.code])) ∧
    (p.line = .receiving → p.presence ≠ .disabled → p.byteAt + ms 3 ≤ t → exec (.deckGapTimeout d t) s = .next (passAnswered
      ((s.tick t).setPort d { failed with late := .nothing, byteAt := t }) x.origin [.u 1 Result.lineError.code])) ∧
    (∀ u v cs t', p.line = .awaiting → p.replyFrom + ms 12 ≤ t → p.stray = none → (p.presence = .present → p.fails = 0) →
      exec (.replyTimeout d t) s = .next u → exec (.lateReplyReceived d cs t') u = .next v → v.link = u.link)) ∧
  (∀ (s : State) (d : Deck) (c : DeckCmd) (o : Origin) (n : Byte) (bad : Bool) (cs rest : List LineChar) (t : Time),
    s.asserted = false → o = .poll ∨ o.isPass = true →
    let p := s.port d
    let bytes := n :: cs.map LineChar.byte
    let count := n.toNat - 2
    let code := byteN bytes 1
    let speeds := (bytes.getD 3 0).getLsbD 0
    let records := (bytes.getD 3 0).getLsbD 1
    let sense := c = .identify ∨ c = .statusSense ∨ c = .timeSense
    let fits := code = 0x80 ∧ count = 0 ∧ ¬sense ∨ code = 0x81 ∧ count = 1 ∨ code = 0x82 ∧ count = 2 ∧ c = .statusSense ∨
      code = 0x83 ∧ count = 4 ∧ c = .timeSense ∨
      code = 0x84 ∧ 5 + (if speeds then 4 else 0) + (if records then 2 else 0) ≤ count ∧ count ≤ 16 ∧ c = .identify
    p.presence ≠ .disabled → (p.presence = .present → p.fails < 2) → p.flight = some ⟨c, o⟩ → p.line = .awaiting →
    p.stray = none → p.rx = none →
    ((n.toNat < 2 ∨ 18 < n.toNat) ∧ cs = [] ∨
      2 ≤ n.toNat ∧ n.toNat ≤ 18 ∧ cs.length = n.toNat ∧
        (bad = true ∨ (∃ x ∈ cs, x.bad = true) ∨ bytes.foldl (· ^^^ ·) 0 ≠ 0 ∨ ¬fits)) →
    exec (.deckReplyReceived d (⟨n, bad⟩ :: cs ++ rest) t) s = .next (passAnswered ((s.tick t).setPort d { p with
      flight := none, rx := none, fails := if p.presence = .present then p.fails + 1 else p.fails, line := .recovering
      late := .nothing, replyFrom := t, byteAt := t }) o [.u 1 Result.lineError.code])) ∧
  (∀ (s : State) (d : Deck) (x : Flight) (t : Time), s.asserted = false → x.origin = .poll ∨ x.origin.isPass = true →
    let p := s.port d
    p.presence = .present → p.flight = some x → p.fails = 2 → p.line = .awaiting → p.poll = none →
    p.replyFrom + ms 12 ≤ t → s.edit.phase = .idle → (∀ e, (s.chan e).st = .idle) →
    ∃ u, exec (.replyTimeout d t) s = .next u ∧
      u.port d = { p with
        flight := none, rx := none, fails := 3, line := .recovering, late := .reply { bytes := [], bad := false }
        replyFrom := t, presence := .absent, ident := none, flags := none, nak := none, standing := false
        attachAt := some (max s.now t), poll := some .identify } ∧
      (∀ e, e ≠ d → u.port e = s.port e) ∧ (u.reader d).src = .none ∧ (u.reader d).chain = none ∧
      Told s u .deckPresence (Deck.num d) [.u 1 Presence.absent.code, .u 1 PresenceCause.failures.code] 1 ∧
      u.chase = s.chase ∧ u.edit = s.edit ∧
      u.link.replies = (passAnswered s x.origin [.u 1 Result.timeout.code]).link.replies) ∧
  (∀ (s : State) (d : Deck) (f : Flight) (t : Time), s.asserted = false → s.safeStop = false → s.link.expired = false →
    f.origin = .poll ∨ f.origin.isPass = true →
    let p := s.port d
    let e := s.edit
    let hit (x : Deck) := (s.chan x).st ≠ .idle ∧ (s.chan x).st ≠ .fault ∧ (x = d ∨ (s.chan x).master = some (.deck d))
    let stopping (x : Deck) (q : Port) : Port := { q with
      servo := some { cmd := .stop, gen := (s.chan x).gen, loc := (s.chan x).loc } }
    let told := (passAnswered s f.origin [.u 1 Result.timeout.code]).link.replies
    p.presence = .present → p.flight = some f → p.fails = 2 → p.line = .awaiting → p.poll = none → p.emerg = none →
    p.replyFrom + ms 12 ≤ t →
    (∀ x, (s.port x).line = .idle → (s.port x).emerg = none ∧ (s.port x).seqSlot = { first := none, second := none }) →
    let lost := { p with
      flight := none, rx := none, fails := 3, line := .recovering, late := .reply { bytes := [], bad := false }
      replyFrom := t, presence := .absent, ident := none, flags := none, nak := none, standing := false
      attachAt := some (max s.now t), poll := some .identify }
    ((∀ x, hit x → (s.chan x).owner = some .link) → d ∉ e.involved → ∃ u, exec (.replyTimeout d t) s = .next u ∧
      (∀ x, (hit x → u.chan x = { s.chan x with
          st := .fault, fault := some (if x = d then .slaveLost else .masterLost), speed := none, relocate := false
          replay := false } ∧ ChaseTold s u x (s.chan x).st .fault 1) ∧
        (¬hit x → u.chan x = s.chan x) ∧
        (x ≠ d → hit x → (s.port x).line ≠ .idle → (s.port x).presence ≠ .disabled →
          u.port x = stopping x (s.port x)) ∧
        (x ≠ d → hit x → (s.port x).line = .idle → (s.port x).presence ≠ .disabled → u.port x = { s.port x with
          servo := none, line := .sending, flight := some ⟨.stop, .servo (s.chan x).gen (s.chan x).loc⟩, tx := [2, 0x20, 0x22]
          fresh := false }) ∧
        (x ≠ d → hit x → (s.port x).presence = .disabled → u.port x = s.port x) ∧
        (x ≠ d → ¬hit x → u.port x = s.port x)) ∧
      u.port d = (if (s.chan d).st ≠ .idle ∧ (s.chan d).st ≠ .fault then stopping d lost else lost) ∧ u.edit = e ∧
      u.link.replies = told ∧ u.list = s.list ∧ u.engine = s.engine ∧ u.gpi = s.gpi) ∧
    (d ∈ e.involved → e.phase.abortable = true → e.abort = none → s.recorder ∈ e.involved →
      ∃ u, exec (.replyTimeout d t) s = .next u ∧ u.edit.abort = some .deckLost ∧ u.edit.stops = e.involved ∧
        u.gpi = { s.gpi with sched := [] } ∧ u.list = s.list ∧
        u.edit.abortStage = e.stage ∧ (e.involved.Nodup → u.link.replies = told ++ passAborted s e.involved) ∧
        (let shut := p.quiet && d == s.recorder;
          u.port d = { itemWaits lost true false with quiet := p.quiet && !shut, hold := p.hold || shut }) ∧
        (d = s.recorder ∨ (s.port s.recorder).standing = false → u.edit.phase = .release)))

/-- DECK_COMMAND: a command that passes the checks waits in the PASS slot with its reply deferred, a SHUTTLE speed clamped
to -30,000 to 30,000 and a VARISPEED speed to the deck's range, 500 to 1500 where none is stored, and is handed if the line
is free, a SENSE command on an ABSENT deck too (R64); a RECORD command is refused whatever the deck's presence and claim
(R69, R70, R68). The checks of R69 in their order, the first that fails refusing: NO_DECK for a number outside 1 to 6,
UNKNOWN_REQUEST for a code that names no command, BAD_LENGTH, RECORD_PROTECTED, NO_DECK for a DISABLED port and for a
TRANSPORT command on a deck that is not PRESENT, DECK_OWNED for one on a claimed deck, TIMECODE_INVALID for the label of a
LOCATE, LINE_BUSY with the slot occupied. That RECORD_PROTECTED is answered whatever the edit kind byte of a RECORD_ON holds
is of log 23. -/
def Obligations.DeckCommandWaitsInThePassSlot : Prop :=
  (∀ (s : State) (r : Request) (d : Deck) (c : DeckCmd), Takes s 0x10 r → byteN r.params 0 = Deck.num d →
    let p := s.port d
    let code := byteN r.params 1
    let data := r.params.drop 2
    let word := byteN data 0 * 256 + byteN data 1
    let signed : Int := if word < 32768 then word else word - 65536
    let range := (p.ident.bind Identity.range).getD (500, 1500)
    let commands : List (Nat × Nat × DeckCmd) := [(0x10, 0, .identify), (0x11, 0, .statusSense), (0x12, 0, .timeSense),
      (0x20, 0, .stop), (0x21, 0, .play), (0x22, 2, .shuttle (max (-30000) (min 30000 signed))),
      (0x23, 4, .locate ((labelAt data 0).toFrame s.fmt)), (0x24, 2, .varispeed (max range.1 (min range.2 word)))]
    (code = 0x30 ∧ data.length = 2 ∨ code = 0x31 ∧ data.length = 0 →
      exec .deckCommand s = .next (answered s r .recordProtected [])) ∧
    ((code, data.length, c) ∈ commands → (code < 0x20 → p.presence ≠ .disabled) →
      (0x20 ≤ code → p.presence = .present ∧ p.claim = .free) →
      (code = 0x23 → (labelAt data 0).legal s.fmt = true) → p.pass = none →
      exec .deckCommand s = .next
        ((s.dropHead.setPort d { p with pass := some { cmd := c, kind := r.kind, tag := r.tag } }).hand d))) ∧
  (∀ (s : State) (r : Request), Takes s 0x10 r →
    let n := byteN r.params 0
    let code := byteN r.params 1
    let data := r.params.drop 2
    let lengths : List (Nat × Nat) := [(0x10, 0), (0x11, 0), (0x12, 0), (0x20, 0), (0x21, 0), (0x22, 2), (0x23, 4), (0x24, 2),
      (0x30, 2), (0x31, 0)]
    let refused (x : Result) := exec .deckCommand s = .next (answered s r x [])
    (n < 1 ∨ 6 < n → refused .noDeck) ∧
    (∀ d : Deck, n = Deck.num d →
      let p := s.port d
      let known := (code, data.length) ∈ lengths ∧ code ≠ 0x30 ∧ code ≠ 0x31
      let transport := 0x20 ≤ code
      let reached := known ∧ p.presence ≠ .disabled ∧ (transport → p.presence = .present ∧ p.claim = .free)
      ((∀ x ∈ lengths, code ≠ x.1) → refused .unknownRequest) ∧
      ((∃ x ∈ lengths, code = x.1 ∧ data.length ≠ x.2) → refused .badLength) ∧
      ((code, data.length) ∈ lengths → code = 0x30 ∨ code = 0x31 → refused .recordProtected) ∧
      (known → p.presence = .disabled ∨ (transport ∧ p.presence ≠ .present) → refused .noDeck) ∧
      (known → transport → p.presence = .present → p.claim ≠ .free → refused .deckOwned) ∧
      (reached → code = 0x23 → (labelAt data 0).legal s.fmt = false → refused .timecodeInvalid) ∧
      (reached → (code = 0x23 → (labelAt data 0).legal s.fmt = true) → p.pass.isSome = true → refused .lineBusy)))

/-- SET_PORT_ENABLE: a disabled port is enabled, ABSENT and attaching; an ABSENT or PRESENT port is disabled with its slots
below EMERGENCY emptied, a waiting PASS command answered ABORTED, and a PRESENT deck's record and reader cleared, with its
notice; the active channels of the link on it and after it enter FAULT with SLAVE_LOST and MASTER_LOST (R88, R89); a port
the sequencer has claimed is not disabled, and a deck number outside 1 to 6 is refused with NO_DECK. Every reply carries the
presence that results (R56, R60, R70). That a nonzero second byte enables, and the content of DECK_PRESENCE with the cause
ENABLED, are of log 30; disabling an ABSENT port is of log 20. That the request's own reply stands ahead of the ABORTED
reply of the PASS command is of log 35; that DECK_PRESENCE comes ahead of READER_STATE, of log 67; that a waiting poll keeps
the first IDENTIFY out, of log 31; the layout of CHASE_STATE is of log 30, the serial numbers of a STOP of log 16. -/
def Obligations.PortEnableAndDisable : Prop :=
  (∀ (s : State) (r : Request), Takes s 0x12 r → byteN r.params 0 = 0 ∨ 6 < byteN r.params 0 →
    exec .setPortEnable s = .next (answered s r .noDeck [])) ∧
  (∀ (s : State) (r : Request) (d : Deck), Takes s 0x12 r → byteN r.params 0 = Deck.num d →
    let p := s.port d
    let x := s.reader d
    let u := answered s r .ok [.u 1 0]
    let emptied : State := { u with link := { u.link with replies := u.link.replies ++ match p.pass with
      | some c => [{ kind := c.kind ||| 0x80, tag := c.tag, vals := [.u 1 0x12] }]
      | none => [] } }
    let off := { p with
      enabled := false, presence := Presence.disabled, attachAt := none, seqSlot := { first := none, second := none }
      servo := none, pass := none, poll := none }
    let lost := { x with chain := none, cand := none, src := Source.none }
    let shows (new : Presence) (why : PresenceCause) (v : State) :=
      v.enter .deckPresence (Deck.num d) [.u 1 new.code, .u 1 why.code]
    (byteN r.params 1 ≠ 0 → p.presence = .disabled → exec .setPortEnable s = .next
      ((shows .absent .enabled ((answered s r .ok [.u 1 1]).setPort d { p with
        enabled := true, presence := .absent, attachAt := some s.now, poll := some (p.poll.getD .identify) })).hand d)) ∧
    (byteN r.params 1 ≠ 0 → p.presence ≠ .disabled → exec .setPortEnable s = .next
      (answered s r .ok [.u 1 p.presence.code])) ∧
    (byteN r.params 1 = 0 → p.claim = .sequencer → exec .setPortEnable s = .next
      (answered s r .deckOwned [.u 1 p.presence.code])) ∧
    (byteN r.params 1 = 0 → p.claim ≠ .sequencer → p.presence = .disabled → exec .setPortEnable s = .next
      (answered s r .ok [.u 1 0])) ∧
    (byteN r.params 1 = 0 → p.claim ≠ .sequencer → p.presence = .absent → exec .setPortEnable s = .next
      (shows .disabled .disabled (emptied.setPort d off))) ∧
    (byteN r.params 1 = 0 → p.claim ≠ .sequencer → p.presence = .present → d ∉ s.edit.involved →
      let v := (shows .disabled .disabled (emptied.setPort d { off with
        ident := none, flags := none, nak := none, standing := false })).setReader d lost
      let w := if x.src = .none then v else v.enter .readerState (Deck.num d) (lost.noticeContent x.src .deckAbsent)
      let hit (e : Deck) := (s.chan e).st ≠ .idle ∧ (s.chan e).st ≠ .fault ∧ (e = d ∨ (s.chan e).master = some (.deck d))
      ((∀ e, ¬hit e) → exec .setPortEnable s = .next w) ∧
      (s.safeStop = false → s.link.expired = false → (∀ e, hit e → (s.chan e).owner = some .link) →
        (∀ e, (s.port e).line = .idle → (s.port e).emerg = none ∧ (s.port e).seqSlot = { first := none, second := none }) →
        ∃ t, exec .setPortEnable s = .next t ∧ t.port d = w.port d ∧ t.readers = w.readers ∧
          t.link.replies = w.link.replies ∧ t.edit = s.edit ∧ t.list = s.list ∧ t.engine = s.engine ∧
          ∀ e, (hit e → t.chan e = { s.chan e with
              st := .fault, fault := some (if e = d then .slaveLost else .masterLost), speed := none, relocate := false
              replay := false } ∧ ChaseTold s t e (s.chan e).st .fault 1) ∧
            (¬hit e → t.chan e = s.chan e ∧ (e ≠ d → t.port e = s.port e)) ∧
            (e ≠ d → hit e → (s.port e).presence = .disabled → t.port e = s.port e) ∧
            (e ≠ d → hit e → (s.port e).presence ≠ .disabled →
              ((s.port e).line ≠ .idle → t.port e = { s.port e with
                servo := some { cmd := .stop, gen := (s.chan e).gen, loc := (s.chan e).loc } }) ∧
              ((s.port e).line = .idle → t.port e = { s.port e with
                servo := none, line := .sending, flight := some ⟨.stop, .servo (s.chan e).gen (s.chan e).loc⟩
                tx := [2, 0x20, 0x22], fresh := false })))))

/-- Every deck command frame is its length byte, the code and the data bytes of Table 12-5 and the check byte, the exclusive-or of
all before it, which makes that of the whole frame 0; the length counts the bytes after it, from 2 to 18 (R48, R49). Every
control link frame is A5h, its length byte, kind, tag, parameters and a check byte with which the bytes sum to 0 from the length
on; with the at most 247 parameter bytes of a frame the length byte is their number and 3 (R188, Table 12-1). Every field record
has ten bytes with exclusive-or 0: 5Ah, the field, the inputs of A and B, the level, the type, the pattern byte, the preview
flag and the check byte (R191, Table 12-9). -/
def Obligations.FramesCarryTheirChecks : Prop :=
  (∀ (f : SuiteFormat) (c : DeckCmd),
    let two (v : Int) : List Byte := [BitVec.ofInt 8 (v / 256), BitVec.ofInt 8 v]
    let sent : Byte × List Byte := match c with
      | .identify => (0x10, [])
      | .statusSense => (0x11, [])
      | .timeSense => (0x12, [])
      | .stop => (0x20, [])
      | .play => (0x21, [])
      | .shuttle v => (0x22, two v)
      | .locate n =>
        let l := Label.ofFrame f n
        (0x23, [BitVec.ofNat 8 l.hh, BitVec.ofNat 8 l.mm, BitVec.ofNat 8 l.ss, BitVec.ofNat 8 l.ff])
      | .varispeed v => (0x24, two v)
      | .recordOn tracks kind => (0x30, [tracks.setWidth 8, if kind = .insert then 1 else 0])
      | .recordOff => (0x31, [])
    let len : Byte := BitVec.ofNat 8 (sent.2.length + 2)
    c.frame f = len :: sent.1 :: sent.2 ++ [sent.2.foldl (· ^^^ ·) (len ^^^ sent.1)] ∧ (c.frame f).foldl (· ^^^ ·) 0 = 0 ∧
      (c.frame f).length = len.toNat + 1 ∧ 2 ≤ len.toNat ∧ len.toNat ≤ 18) ∧
  (∀ (k g : Byte) (ps : List Byte),
    let len : Byte := BitVec.ofNat 8 (ps.length + 3)
    ∃ check : Byte, linkFrame k g ps = 0xA5 :: len :: k :: g :: ps ++ [check] ∧
      ps.foldl (· + ·) (len + k + g) + check = 0 ∧ ((linkFrame k g ps).drop 1).foldl (· + ·) 0 = 0 ∧
      (ps.length ≤ 247 → len.toNat = ps.length + 3 ∧ (linkFrame k g ps).length = len.toNat + 2)) ∧
  (∀ (n a b m kind pattern : Nat) (preview : Bool),
    let sent := [0x5A, BitVec.ofNat 8 n, BitVec.ofNat 8 a, BitVec.ofNat 8 b, BitVec.ofNat 8 (m / 256), BitVec.ofNat 8 m,
      BitVec.ofNat 8 kind, BitVec.ofNat 8 pattern, if preview then 1 else 0]
    fieldRecord n a b m kind pattern preview = sent ++ [sent.foldl (· ^^^ ·) 0]) ∧
  (∀ (e : Engine) (n : Nat), xorAll (e.record n) = 0 ∧ (e.record n).length = 10)

/-! ## Chase synchronizer (chapter 5) -/

/-- SET_CHASE takes a PRESENT slave with VARISPEED for the link and sets its channel afresh in SEEK, on the house clock or on a
PRESENT deck that chases nothing itself and is no source of the edit; the checks refuse in their order, and a slave that a
chase follows already, or its own master, is a loop (R91). CLEAR_CHASE: a channel of the link goes to IDLE and its slave is
freed, the sequencer's channel is kept, an IDLE channel answers OK with no change, and a deck number outside 1 to 6 is refused
(R92). Either change enters CHASE_STATE (R89, in the layout of log 30). The serial number gen is the
model's (log 16), as are the frame starts a channel owes (log 5) and what the entry of a cleared channel shows (log 64). -/
def Obligations.ChaseIsSetAndCleared : Prop :=
  (∀ (s : State) (r : Request), Takes s 0x19 r → byteN r.params 0 = 0 ∨ 6 < byteN r.params 0 ∨ 6 < byteN r.params 1 →
    exec .setChase s = .next (answered s r .noDeck [])) ∧
  (∀ (s : State) (r : Request) (d : Deck) (m : Master), Takes s 0x19 r → byteN r.params 0 = Deck.num d →
    byteN r.params 1 = m.code →
    let p := s.port d
    let free := p.presence = .present ∧ p.claim ≠ .sequencer ∧ p.hasVarispeed = true
    let followed := ∃ e : Deck, (s.chan e).st ≠ .idle ∧ (s.chan e).follows d = true
    let o := clampInt (-(s.fmt.halfDay : Int)) (s.fmt.halfDay - 1) (intAt r.params 2 3)
    (p.presence ≠ .present → exec .setChase s = .next (answered s r .noDeck [])) ∧
    (p.presence = .present → p.claim = .sequencer → exec .setChase s = .next (answered s r .deckOwned [])) ∧
    (p.presence = .present → p.claim ≠ .sequencer → p.hasVarispeed = false →
      exec .setChase s = .next (answered s r .notChaseable [])) ∧
    (free → m = .deck d ∨ (m = .house ∧ followed) → exec .setChase s = .next (answered s r .chaseLoop [])) ∧
    (∀ x, free → m = .deck x → x ≠ d →
      ((s.port x).presence ≠ .present → exec .setChase s = .next (answered s r .noDeck [])) ∧
      ((s.port x).presence = .present → (s.chan x).st ≠ .idle ∨ followed ∨ x ∈ s.edit.sources →
        exec .setChase s = .next (answered s r .chaseLoop []))) ∧
    (free → ¬followed →
      (∀ x, m = .deck x → x ≠ d ∧ (s.port x).presence = .present ∧ (s.chan x).st = .idle ∧ x ∉ s.edit.sources) →
      ∃ u, exec .setChase s = .next u ∧
        u.chan d = { Channel.idle s.set.lead ((s.chan d).gen + 1) (s.chan d).loc with
          st := .seek, owner := some .link, master := some m, offset := o } ∧
        ChaseTold s u d (s.chan d).st .set 1 ∧ (∀ e, e ≠ d → u.chan e = s.chan e) ∧
        u.port d = { p with claim := .link, servo := p.servo.filter fun c => c.cmd == .stop } ∧
        (∀ e, e ≠ d → u.port e = s.port e) ∧ u.link.replies = (answered s r .ok [.i 3 o]).link.replies ∧
        u.due = { s.due with chase := s.due.chase.set d.val (if (s.chan d).active then s.due.chase[d.val] else 0) } ∧
        u.link.input = s.link.input.tail ∧ u.readers = s.readers ∧ u.list = s.list ∧ u.edit = s.edit ∧ u.run = s.run ∧
        u.engine = s.engine ∧ u.mixer = s.mixer ∧ u.gpi = s.gpi ∧ u.set = s.set ∧ u.ref = s.ref ∧ u.clock = s.clock)) ∧
  (∀ (s : State) (r : Request), Takes s 0x1A r → byteN r.params 0 = 0 ∨ 6 < byteN r.params 0 →
    exec .clearChase s = .next (answered s r .noDeck [])) ∧
  (∀ (s : State) (r : Request) (d : Deck), Takes s 0x1A r → byteN r.params 0 = Deck.num d →
    ((s.chan d).owner = some .sequencer → exec .clearChase s = .next (answered s r .deckOwned [])) ∧
    ((s.chan d).owner = none → exec .clearChase s = .next (answered s r .ok [])) ∧
    ((s.chan d).owner = some .link → (s.chan d).st ≠ .idle →
      let c := Channel.idle s.set.lead ((s.chan d).gen + 1) (s.chan d).loc
      exec .clearChase s = .next ((((answered s r .ok []).setPort d { s.port d with
        claim := .free, servo := (s.port d).servo.filter fun c => c.cmd == .stop }).setChan d c).enter .chaseState
          (Deck.num d) (c.noticeContent (s.chan d).st .cleared))))

/-- The locates of a channel at a sample. A STOPPED master calls a channel of the link to FOLLOW: LOCATE to the target
frame, made again only when the target has moved more than 25 frames (R77). A running master calls for a LEAD seek: ahead of
the target by the lead, doubled at each re-seek, the fifth of which is a fault CANNOT_CATCH (R78); in SEEK while no LEAD
seek is made or the target has passed its goal, in PARKED when the target has passed the park frame (R80), and in VARISPEED
and LOCKED when the error leaves the seek window (R84, R85). A LOCATE that is acknowledged, with CUE_DONE reported since,
parks the channel (R79), which then waits for its roll point, or locates again at the same sample. Each change of state
enters CHASE_STATE with its cause, and a move through PARKED enters it twice (R89, in the layout of log 30). A command is
handed at once on an IDLE line, and waits in the SERVO slot else (R61). With no locate called for a sample leaves SEEK and
PARKED as they are, but for what it reads; in IDLE, in FAULT and in a safe stop it does nothing (R74, R184). The serial
numbers are the model's (log 16), as are the order of completion and locates (log 21) and the starts owed with their
instants (log 5). -/
def Obligations.SeeksFollowLeadAndPark : Prop :=
  (∀ (s : State) (d : Deck), s.asserted = false → 0 < s.due.chase[d.val] →
    (s.chan d).st = .idle ∨ (s.chan d).st = .fault ∨ s.safeStop = true → exec (.chaseSample d) s = .next { s with
      due := { s.due with chase := s.due.chase.set d.val (s.due.chase[d.val] - 1) } }) ∧
  (∀ (s : State) (d : Deck), s.asserted = false → 0 < s.due.chase[d.val] → s.safeStop = false →
    let c := s.chan d
    let x := s.sampleOf d s.due.chase[d.val]
    let cued := c.acked = true ∧ (s.port d).fresh = true ∧ (s.port d).flag 6 = true
    (c.st = .parked ∧ x.cond = .noPosition) ∨ (c.st = .seek ∧ ¬cued ∧ c.relocate = false ∧
      (x.cond = .noPosition ∨ (x.cond = .atPlay ∧ c.kind = some .lead ∧
        ∃ n g, x.frame s.fmt = some n ∧ c.target = some g ∧ s.fmt.d n g < 1))) →
    exec (.chaseSample d) s = .next (({ s with
      due := { s.due with chase := s.due.chase.set d.val (s.due.chase[d.val] - 1) } } : State).setChan d { c with
        cond := some x.cond, err := x.err.orElse fun _ => c.err, relocate := false, replay := false })) ∧
  ∀ (s : State) (d : Deck), s.asserted = false → 0 < s.due.chase[d.val] → s.safeStop = false → s.link.expired = false →
    ServoFirst (s.port d) → (s.port d).presence ≠ .disabled →
    let c := s.chan d
    let f := s.fmt
    let x := s.sampleOf d s.due.chase[d.val]
    let seen := { c with cond := some x.cond, err := x.err.orElse fun _ => c.err }
    let cued := c.acked = true ∧ (s.port d).fresh = true ∧ (s.port d).flag 6 = true
    let located (kind : LocateKind) (n seeks lead : Nat) := { seen with
      st := ChaseState.seek, kind := some kind, target := some n, acked := false, seeks := seeks, lead := lead, speed := none
      inWin := 0, outWin := 0, loc := c.loc + 1, relocate := false, replay := false }
    let keeps (u : State) := (∀ e, e ≠ d → u.port e = s.port e ∧ u.chan e = s.chan e) ∧ u.readers = s.readers ∧
      u.list = s.list ∧ u.run = s.run ∧ u.engine = s.engine ∧ u.gpi = s.gpi ∧ u.set = s.set ∧
      u.link.replies = s.link.replies ∧ (c.owner = some .link → u.edit = s.edit)
    let posts (u : State) (n : Nat) := u.port d = servoPosted (s.port d) f (.locate n) c.gen (c.loc + 1)
    let parks := c.st = .seek ∧ cued
    let old := if parks then ChaseState.parked else c.st
    let times := if parks then 2 else 1
    let called (n : Nat) := (c.st = .seek ∧ ¬cued ∧ ∀ g, c.kind = some .lead → c.target = some g → 1 ≤ f.d n g) ∨
      ((c.st = .parked ∨ parks) ∧ ∃ p g, x.target = some p ∧ c.target = some g ∧
        (f.lpf : Int) ≤ f.dLines p (g * f.lpf)) ∨
      ((c.st = .varispeed ∨ (c.st = .locked ∧ (s.reader d).src ≠ .line)) ∧
        ∃ e, x.err = some e ∧ s.set.seekWin * f.lpf < e.natAbs)
    (∀ n, c.active = true → c.owner = some .link → x.cond = .stopped → x.frame f = some n →
      (∀ g, c.kind = some .follow → c.target = some g → 25 < (f.d n g).natAbs) →
      ∃ u, exec (.chaseSample d) s = .next u ∧ u.chan d = located .follow n 0 s.set.lead ∧ posts u n ∧ keeps u ∧
        (c.st ≠ .seek ∨ parks → ChaseTold s u d old .masterStopped times) ∧
        (c.st = .seek → ¬parks → u.link = s.link)) ∧
    (∀ n g, c.active = true → c.owner = some .link → x.cond = .stopped → x.frame f = some n →
      c.kind = some .follow → c.target = some g → (f.d n g).natAbs ≤ 25 → c.relocate = false → c.replay = false →
      ∃ u, exec (.chaseSample d) s = .next u ∧ u.port d = s.port d ∧ keeps u ∧
        (parks → u.chan d = { seen with st := .parked } ∧ ChaseTold s u d .seek .cueDone 1) ∧
        (¬parks → u.chan d = seen ∧ u.link = s.link)) ∧
    (∀ n, x.cond = .atPlay → x.frame f = some n → called n → c.seeks < 4 →
      let lead := if c.seeks = 0 then s.set.lead else 2 * c.lead
      let goal := f.addFrames n lead
      ∃ u, exec (.chaseSample d) s = .next u ∧ u.chan d = located .lead goal (c.seeks + 1) lead ∧ posts u goal ∧
        keeps u ∧ ChaseTold s u d old (if c.seeks = 0 then .seek else .reseek) times) ∧
    (∀ n, x.cond = .atPlay → x.frame f = some n → called n → 4 ≤ c.seeks → c.owner = some .link →
      ∃ u, exec (.chaseSample d) s = .next u ∧
        u.chan d = { seen with
          st := .fault, fault := some .cannotCatch, speed := none, relocate := false, replay := false } ∧
        u.port d = servoPosted (s.port d) f .stop c.gen c.loc ∧ keeps u ∧
        ChaseTold s u d old .fault times) ∧
    (c.st = .seek → cued →
      x.cond = .noPosition ∨ (x.cond = .atPlay ∧ ∃ p g, x.target = some p ∧ c.target = some g ∧
        f.dLines p (g * f.lpf) < -(((s.port d).playStart * f.lpf : Nat) : Int)) →
      ∃ u, exec (.chaseSample d) s = .next u ∧ u.chan d = { seen with st := .parked, relocate := false, replay := false } ∧
        u.port d = s.port d ∧ keeps u ∧ ChaseTold s u d .seek .cueDone 1)

/-- A driven channel from ROLLING to LOCKED and back. ROLLING counts its roll count down, and passes to VARISPEED when the
slave's reader shows play speed and a position; the rule of VARISPEED follows at that sample, and may lock (R81). In
VARISPEED a sample within the lock window, on LTC or the flywheel, counts, and the count of the lock setting locks (R84); in
LOCKED two samples in a row beyond the unlock window unlock, as do a slave on line time and a master without a position
(R85). A slave without a position goes back to ROLLING with a new roll count and no PLAY (R86). Each change of state enters
CHASE_STATE with its cause, and no other sample does (R89, in the layout of log 30). A channel of the sequencer that leaves
LOCKED in any of these ways, past the sync point in ROLLING or EDITING, adds SYNC_WARNING to the edit's warnings; else the
edit is as before (R126). The sample posts the speed of the law (R82, R83), which an IDLE line takes at once; no other
command is posted. The notices of AT_SPEED and of the loss of the slave's source are entered ahead of the speed, those of
lock and error behind it. That a LOCKED slave on line time with a master without a position unlocks with UNLOCK_SOURCE is of
log 48; the starts owed and their instants are of log 5, the roll of a deck with no identity of log 17. -/
def Obligations.ChannelLocksAndUnlocks : Prop :=
  ∀ (s : State) (d : Deck), s.asserted = false → 0 < s.due.chase[d.val] → s.safeStop = false → s.link.expired = false →
    ServoFirst (s.port d) →
    let c := s.chan d
    let x := s.sampleOf d s.due.chase[d.val]
    let seen := { c with cond := some x.cond, err := x.err.orElse fun _ => c.err, relocate := false, replay := false }
    let ltc := (s.reader d).src = .ltc ∨ (s.reader d).src = .flywheel
    let near (e : Int) := x.err = some e ∧ e.natAbs ≤ s.set.seekWin * s.fmt.lpf
    let n := min 25 (c.inWin + 1)
    let moves (shown : Channel) (old : ChaseState) (why : ChaseCause) (times : Nat) (u : State) :=
      Told s u .chaseState (Deck.num d) (shown.noticeContent old why) times
    let stays (u : State) := u.link = s.link
    let becomes (new : Channel) (port : Port) (tells : State → Prop) := ∃ u, exec (.chaseSample d) s = .next u ∧
      u.chan d = new ∧ u.port d = port ∧ tells u ∧
      (∀ e, e ≠ d → u.port e = s.port e ∧ u.chan e = s.chan e) ∧ u.readers = s.readers ∧ u.list = s.list ∧
      u.run = s.run ∧ u.engine = s.engine ∧ u.gpi = s.gpi ∧ u.set = s.set ∧ u.link.replies = s.link.replies ∧
      (s.edit.syncGuarded = false → u.edit = s.edit) ∧
      u.edit = (if c.st = .locked ∧ new.st ≠ .locked ∧ c.owner = some .sequencer ∧ s.edit.syncPassed = true ∧
          (s.edit.phase = .rolling ∨ s.edit.phase = .editing) then
        { s.edit with warns := { s.edit.warns with sync := true } } else s.edit)
    c.owner = some .sequencer ∨ x.cond ≠ .stopped →
    let p := s.port d
    let speeds := c.st = .rolling ∧ s.atSpeed d = true
    let slow := { seen with st := ChaseState.varispeed }
    let rolls := { seen with st := ChaseState.rolling, roll := (s.port d).playStart + 25, inWin := 0, outWin := 0 }
    (c.st = .rolling → s.atSpeed d = false → 2 ≤ c.roll → c.replay = false →
      becomes { seen with roll := c.roll - 1 } p stays) ∧
    (∀ e,
      let port := (driven s d e).1
      let new := { seen with speed := (driven s d e).2 }
      let out := s.set.lockWin < e.natAbs ∨ ¬ltc
      let hit := e.natAbs ≤ s.set.lockWin ∧ ltc
      let locked := { new with st := ChaseState.locked, inWin := n, outWin := 0, seeks := 0, lead := s.set.lead }
      (speeds → near e →
        (out → becomes { new with st := .varispeed, inWin := 0 } port (moves slow .rolling .atSpeed 1)) ∧
        (hit → n < s.set.lockCount →
          becomes { new with st := .varispeed, inWin := n } port (moves slow .rolling .atSpeed 1)) ∧
        (hit → s.set.lockCount ≤ n → becomes locked port (moves locked .varispeed .lock 2))) ∧
      (c.st = .varispeed → near e →
        (out → becomes { new with inWin := 0 } port stays) ∧
        (hit → n < s.set.lockCount → becomes { new with inWin := n } port stays) ∧
        (hit → s.set.lockCount ≤ n → becomes locked port (moves locked .varispeed .lock 1))) ∧
      (c.st = .locked → near e → (s.reader d).src ≠ .line →
        (e.natAbs ≤ s.set.unlockWin → becomes { new with outWin := 0 } port stays) ∧
        (s.set.unlockWin < e.natAbs → c.outWin = 0 → becomes { new with outWin := 1 } port stays) ∧
        (s.set.unlockWin < e.natAbs → 1 ≤ c.outWin →
          let unlocked := { new with st := ChaseState.varispeed, inWin := 0, outWin := 0 }
          becomes unlocked port (moves unlocked .locked .unlockError 1))) ∧
      (c.st = .locked → x.err = some e → (s.reader d).src = .line →
        becomes { new with st := .varispeed, inWin := 0 } port (moves slow .locked .unlockSource 1))) ∧
    (x.slave.isSome = true → x.target = none →
      (speeds → becomes { slow with inWin := 0 } p (moves slow .rolling .atSpeed 1)) ∧
      (c.st = .locked → becomes { slow with inWin := 0 } p
        (moves slow .locked (if (s.reader d).src = .line then .unlockSource else .noMaster) 1)) ∧
      (c.st = .varispeed → becomes { seen with inWin := 0 } p stays)) ∧
    (x.slave = none →
      (c.st = .varispeed ∨ c.st = .locked → becomes rolls p (moves rolls c.st .positionLost 1)) ∧
      (speeds → becomes rolls p (moves rolls .varispeed .positionLost 2)))

/-- A parked channel, or one that parks at this sample, whose master is AT_PLAY, the house clock, a deck at play speed, or
in a chase of the sequencer any deck that gives a position, rolls when its target is at most the play start before the park
position: PLAY is posted, on an IDLE line handed, with its speed told, and the roll count is the play start and 25; before
that it stays PARKED (R75, R80, R81; the layout of the CHASE_STATE entry is of log 30). A rolling channel whose roll count
runs out before its slave shows play speed enters FAULT with NO_MOTION and posts STOP (R81, R88). Of a channel of the
sequencer the edit hears of NO_MOTION, and of CANNOT_CATCH when a fifth LEAD seek is called for in any state: before the
sync point it is aborted with NO_LOCK, which clears the channel of a source; past it SYNC_WARNING is added in ROLLING and
EDITING, and POSTROLL adds nothing; the channel stays in FAULT (R78, R127). Each change enters CHASE_STATE (R89); the speed
that the entry of a roll shows is of log 68. That the entry of a source's channel which the abort clears shows it after the
clearing, with owner and master absent and offset 0, is of log 64; that it comes after the entry of the fault, of log 67.
The roll-count row is a sample (log 7); serial numbers: log 16. -/
def Obligations.ChannelRollsOrFaults : Prop :=
  (∀ (s : State) (d : Deck) (q g : Nat), s.asserted = false → 0 < s.due.chase[d.val] → s.safeStop = false →
    s.link.expired = false → ServoFirst (s.port d) →
    let c := s.chan d
    let f := s.fmt
    let k := s.due.chase[d.val]
    let plays (m : Deck) := ((s.reader m).src = .ltc ∨ (s.reader m).src = .flywheel) ∧ (s.reader m).cls = .play ∧
        (s.reader m).dir = .forward ∨
      (s.reader m).src = .line ∧ ((s.port m).flag 3 = true ∨ (s.port m).flag 4 = true)
    let p := f.addLines q (c.offset * f.lpf)
    let e := f.dLines p (g * f.lpf)
    let seen := { c with
      cond := some MasterCond.atPlay, relocate := false, replay := false
      err := match s.extrap d (s.startInstant k) with
        | some v => some (f.dLines p v)
        | none => c.err }
    let keeps (u : State) := (∀ x, x ≠ d → u.port x = s.port x ∧ u.chan x = s.chan x) ∧ u.readers = s.readers ∧
      u.edit = s.edit ∧ u.engine = s.engine ∧ u.list = s.list ∧ u.link.replies = s.link.replies
    let parks := c.st = .seek ∧ c.acked = true ∧ (s.port d).fresh = true ∧ (s.port d).flag 6 = true
    c.st = .parked ∨ parks → c.target = some g → e < f.lpf →
    (c.master = some .house ∧ q = s.clockAt k * f.lpf) ∨
      (∃ m, c.master = some (.deck m) ∧ s.extrap m (s.startInstant k) = some q ∧ (c.owner = some .sequencer ∨ plays m)) →
    (-e ≤ ((s.port d).playStart * f.lpf : Nat) → ∃ u, exec (.chaseSample d) s = .next u ∧
      u.chan d = { seen with
        st := .rolling, kind := none, roll := (s.port d).playStart + 25
        speed := if (s.port d).line = .idle then some 1000 else c.speed } ∧
      u.port d = servoPosted (s.port d) f .play c.gen c.loc ∧
      ChaseTold s u d .parked .roll (if parks then 2 else 1) ∧ keeps u) ∧
    (((s.port d).playStart * f.lpf : Nat) < -e → ∃ u, exec (.chaseSample d) s = .next u ∧
      u.chan d = { seen with st := .parked } ∧ (parks → ChaseTold s u d .seek .cueDone 1) ∧
      (¬parks → u.link = s.link) ∧ u.port d = s.port d ∧ keeps u)) ∧
  (∀ (s : State) (d : Deck), s.asserted = false → 0 < s.due.chase[d.val] → s.safeStop = false → s.link.expired = false →
    ServoFirst (s.port d) → (s.port d).presence ≠ .disabled →
    let c := s.chan d
    let x := s.sampleOf d s.due.chase[d.val]
    c.st = .rolling → c.roll ≤ 1 → s.atSpeed d = false → c.owner = some .link → x.cond ≠ .stopped →
    ∀ i, i = .rollCountExpired d ∨ i = .chaseSample d → ∃ u, exec i s = .next u ∧
      u.chan d = { c with
        st := .fault, fault := some .noMotion, cond := some x.cond, err := x.err.orElse fun _ => c.err, speed := none
        relocate := false, replay := false, roll := 0 } ∧
      u.port d = servoPosted (s.port d) s.fmt .stop c.gen c.loc ∧
      ChaseTold s u d .rolling .fault 1 ∧
      (∀ e, e ≠ d → u.port e = s.port e ∧ u.chan e = s.chan e) ∧ u.edit = s.edit ∧ u.readers = s.readers) ∧
  (∀ (s : State) (d : Deck) (i : Instr) (why : ChaseFault), s.asserted = false → 0 < s.due.chase[d.val] →
    s.safeStop = false → s.link.expired = false → ServoFirst (s.port d) → (s.port d).presence ≠ .disabled →
    let c := s.chan d
    let e := s.edit
    let x := s.sampleOf d s.due.chase[d.val]
    c.owner = some .sequencer →
    (i = .rollCountExpired d ∧ why = .noMotion ∧ c.st = .rolling ∧ c.roll ≤ 1 ∧ s.atSpeed d = false ∨
      i = .chaseSample d ∧ why = .cannotCatch ∧ 4 ≤ c.seeks ∧
        ((c.st = .varispeed ∨ (c.st = .locked ∧ (s.reader d).src ≠ .line)) ∧
            (∃ n, x.err = some n ∧ s.set.seekWin * s.fmt.lpf < n.natAbs) ∨
          x.cond = .atPlay ∧ ∃ p g, x.target = some p ∧ c.target = some g ∧
            (c.st = .parked ∧ (s.fmt.lpf : Int) ≤ s.fmt.dLines p (g * s.fmt.lpf) ∨
              c.st = .seek ∧ ¬(c.acked = true ∧ (s.port d).fresh = true ∧ (s.port d).flag 6 = true) ∧
                (c.kind = some .lead → 1 ≤ s.fmt.d (p / s.fmt.lpf) g)))) →
    let faulted := { c with
      st := ChaseState.fault, fault := some why, cond := some x.cond, err := x.err.orElse fun _ => c.err, speed := none
      relocate := false, replay := false, roll := if why = .noMotion then 0 else c.roll }
    (e.syncPassed = false → e.phase.abortable = true → e.abort = none → s.recorder ∈ e.involved →
      ∃ u, exec i s = .next u ∧ u.edit.abort = some .noLock ∧ u.edit.stops = e.involved ∧ u.edit.abortStage = e.stage ∧
        (d ∉ e.sources → u.chan d = faulted ∧ ChaseTold s u d c.st .fault 1) ∧
        (d ∈ e.sources → (u.chan d).st = .idle ∧ ChaseTold s u d .fault .released 2) ∧ u.list = s.list) ∧
    (e.syncPassed = true → ∃ u, exec i s = .next u ∧ u.chan d = faulted ∧ ChaseTold s u d c.st .fault 1 ∧
      u.port d = servoPosted (s.port d) s.fmt .stop c.gen c.loc ∧
      u.edit = (if e.phase = .rolling ∨ e.phase = .editing then { e with warns := { e.warns with sync := true } } else e) ∧
      (∀ y, y ≠ d → u.port y = s.port y ∧ u.chan y = s.chan y) ∧ u.list = s.list))

/-- A driven channel posts the speed 1000 + round(G × e / Lpf), within the trim limit and the deck's range (R82 to R85). The
error e is the target less the slave's position, the target the master's position and the offset (R75, R76). The house clock
is a master AT_PLAY; a deck is one in a chase of the sequencer, and else at play speed, forward, on LTC or the flywheel, or
on line time while it plays or records; with a position but otherwise it is STOPPED, and with none NO_POSITION (Table 5-4).
A speed is posted only where it differs from a VARISPEED that waits in the SERVO slot, else from the last speed sent (R83);
a slave on line time is driven in VARISPEED, and in LOCKED too, which it leaves (R84, R85). An IDLE line takes the speed at
once, within the deck's range, and it is then the last speed sent (R64, R83). The starts owed and their instants are of log
5, the serial numbers of log 16. -/
def Obligations.DrivenChannelPostsItsSpeed : Prop :=
  (∀ (s : State) (d : Deck) (p : Nat), s.asserted = false → 0 < s.due.chase[d.val] → s.safeStop = false →
    s.link.expired = false → (s.port d).line ≠ .idle → (s.port d).servo = none →
    let c := s.chan d
    let k := s.due.chase[d.val]
    let e := s.fmt.dLines (s.fmt.addLines (s.clockAt k * s.fmt.lpf) (c.offset * s.fmt.lpf)) p
    let gain : Int := if s.fmt.lpf ≤ e.natAbs then s.set.coarse else s.set.fine
    let v := 1000 + roundHalfAway (gain * e) s.fmt.lpf
    let lo := max (s.port d).range.1 (1000 - s.set.trim)
    let hi := min (s.port d).range.2 (1000 + s.set.trim)
    let speed := (max (lo : Int) (min hi v)).toNat
    (c.st = .varispeed ∨ c.st = .locked) → c.master = some .house → s.extrap d (s.startInstant k) = some p →
    e.natAbs ≤ s.set.seekWin * s.fmt.lpf → (s.reader d).src ≠ .line → c.speed ≠ some speed →
    ∃ u, exec (.chaseSample d) s = .next u ∧ (u.chan d).err = some e ∧
      (u.port d).servo.map ServoCmd.cmd = some (.varispeed speed) ∧ (lo ≤ hi → lo ≤ speed ∧ speed ≤ hi) ∧
      (∀ x, x ≠ d → u.port x = s.port x ∧ u.chan x = s.chan x) ∧ u.readers = s.readers ∧ u.list = s.list) ∧
  (∀ (s : State) (d : Deck) (k : Nat),
    let c := s.chan d
    let f := s.fmt
    let x := s.sampleOf d k
    let aim (p : Nat) := f.addLines p (c.offset * f.lpf)
    (c.master = some .house → x.cond = .atPlay ∧ x.target = some (aim (s.clockAt k * f.lpf))) ∧
    (∀ m, c.master = some (.deck m) →
      let r := s.reader m
      let plays := (r.src = .ltc ∨ r.src = .flywheel) ∧ r.cls = .play ∧ r.dir = .forward ∨
        r.src = .line ∧ ((s.port m).flag 3 = true ∨ (s.port m).flag 4 = true)
      (s.extrap m (s.startInstant k) = none → x.cond = .noPosition ∧ x.target = none) ∧
      ∀ p, s.extrap m (s.startInstant k) = some p → x.target = some (aim p) ∧
        (c.owner = some .sequencer ∨ plays → x.cond = .atPlay) ∧
        (c.owner ≠ some .sequencer → ¬plays → x.cond = .stopped)) ∧
    (c.master = none → x.cond = .noPosition ∧ x.target = none) ∧ x.slave = s.extrap d (s.startInstant k) ∧
    (x.target = none ∨ x.slave = none → x.err = none) ∧
    (∀ p q, x.target = some p → x.slave = some q → x.err = some (f.dLines p q))) ∧
  (∀ (s : State) (d : Deck) (e : Int), s.asserted = false → 0 < s.due.chase[d.val] → s.safeStop = false →
    s.link.expired = false → ServoFirst (s.port d) →
    let c := s.chan d
    let p := s.port d
    let x := s.sampleOf d s.due.chase[d.val]
    let gain : Int := if s.fmt.lpf ≤ e.natAbs then s.set.coarse else s.set.fine
    let range := (p.ident.bind Identity.range).getD (500, 1500)
    let lo := max range.1 (1000 - s.set.trim)
    let hi := min range.2 (1000 + s.set.trim)
    let speed := (max (lo : Int) (min hi (1000 + roundHalfAway (gain * e) s.fmt.lpf))).toNat
    let onLine := (s.reader d).src = .line
    let sent := if p.line = .idle then max range.1 (min range.2 speed) else speed
    let posts (u : State) := u.port d = servoPosted p s.fmt (.varispeed sent) c.gen c.loc ∧
      (u.chan d).speed = (if p.line = .idle then some sent else c.speed)
    c.owner = some .sequencer ∨ x.cond ≠ .stopped → x.err = some e →
    (c.st = .locked ∧ onLine ∨ (c.st = .varispeed ∨ c.st = .locked ∧ ¬onLine) ∧ e.natAbs ≤ s.set.seekWin * s.fmt.lpf) →
    ∃ u, exec (.chaseSample d) s = .next u ∧ (u.chan d).cond = some x.cond ∧ (u.chan d).err = some e ∧
      (∀ v, (p.servo.map ServoCmd.cmd = some (.varispeed v) ∨
          (∀ w, p.servo.map ServoCmd.cmd ≠ some (.varispeed w)) ∧ c.speed = some v) →
        (v = speed → u.port d = p ∧ (u.chan d).speed = c.speed) ∧ (v ≠ speed → posts u)) ∧
      ((∀ w, p.servo.map ServoCmd.cmd ≠ some (.varispeed w)) → c.speed = none → posts u) ∧
      (onLine → (u.chan d).st = .varispeed) ∧ (∀ y, y ≠ d → u.port y = s.port y ∧ u.chan y = s.chan y))

/-! ## The event list (chapter 6) -/

/-- A load of one record: it is stored at the pointer as a PENDING event, or counted as invalid with its reason, or
ignored outside the window; in each case the pointer advances (R97, R102, R103, R104). A load of any number of whole records
takes them in the order carried, each at the number the pointer then shows and against the list as the records before it have
left it; it adds up the stored, invalid and ignored ones, and its code and the number and reason reported are those of the
first invalid one, OK and none where there is none, as with no records at all. A stored record takes the place of its number
alone (R100). A valid record at the active event's
number is invalid with ACTIVE_EVENT, and one at a new number of a list of 250 with LIST_FULL (R103). The reason of a record is
that of the first check of Table 6-4 that it fails: its labels, its fields, its triggers, the span, source B against A, the
recorder against both, source B of a MIX or WIPE, the transition within the span, the triggers' offsets, the track mask of
an INSERT (R98, Table 6-1, Table 6-2, Table 12-4). The layout of the reply is of log 30. -/
def Obligations.LoadTakesARecordAtThePointer : Prop :=
  (∀ (s : State) (r : Request) (c : Instr) (n : Nat),
    (c = .loadEvents ∧ Takes s 0x21 r ∧ n = s.list.low ∨ c = .loadContinue ∧ Takes s 0x22 r ∧ n = s.list.ptr) →
    r.params.length = 29 + 8 * byteN r.params 28 → n ≤ 1000 →
    let l := s.list
    let moved : EventList := { l with ptr := min 1000 (n + 1) }
    let window : List Val := [.u 2 l.low, .u 2 l.high, .u 2 moved.ptr]
    (l.low ≤ n → n ≤ l.high → n < 1000 → invalidReason s.fmt s.recorder r.params = none → l.active ≠ some n →
      ((l.get n).isSome = true ∨ l.events.length < 250) →
      let events := putEvent n { fields := fieldsOf s.fmt r.params, status := .pending, failure := none
                                 warns := Warnings.empty, attempts := 0 } l.events
      exec c s = .next { answered s r .ok
          (vCat [[.u 1 1, .u 1 0, .u 1 0, .u 1 0, .raw [0, 0, 0]], window, [.u 1 events.length]]) with
        list := { moved with events := events } }) ∧
    (∀ why, l.low ≤ n → n ≤ l.high → n < 1000 → invalidReason s.fmt s.recorder r.params = some why →
      exec c s = .next { answered s r (if why = .timecodeInvalid then .timecodeInvalid else .eventInvalid)
          (vCat [[.u 1 0, .u 1 1, .u 1 0, .u 1 1, .u 2 n, .u 1 why.code], window, [.u 1 l.events.length]]) with
        list := moved }) ∧
    (n < l.low ∨ l.high < n ∨ n = 1000 → exec c s = .next { answered s r .ok
        (vCat [[.u 1 0, .u 1 0, .u 1 1, .u 1 0, .raw [0, 0, 0]], window, [.u 1 l.events.length]]) with
      list := moved }) ∧
    (∀ (why : Invalid) (code : Result), l.low ≤ n → n ≤ l.high → n < 1000 → invalidReason s.fmt s.recorder r.params = none →
      (why = .activeEvent ∧ code = .activeEvent ∧ l.active = some n ∨
        why = .listFull ∧ code = .listFull ∧ l.active ≠ some n ∧ l.get n = none ∧ 250 ≤ l.events.length) →
      exec c s = .next { answered s r code
          (vCat [[.u 1 0, .u 1 1, .u 1 0, .u 1 1, .u 2 n, .u 1 why.code], window, [.u 1 l.events.length]]) with
        list := moved })) ∧
  (∀ (s : State) (r : Request) (c : Instr) (n : Nat) (rs : List (List Byte)),
    (c = .loadEvents ∧ Takes s 0x21 r ∧ n = s.list.low ∨ c = .loadContinue ∧ Takes s 0x22 r ∧ n = s.list.ptr) →
    r.params = rs.flatten → (∀ x ∈ rs, x.length = 29 + 8 * byteN x 28) → n ≤ 1000 →
    let outside (l : EventList) : Bool := l.ptr == 1000 || l.ptr < l.low || l.high < l.ptr
    let reason (l : EventList) (x : List Byte) : Option Invalid :=
      match invalidReason s.fmt s.recorder x with
      | some why => some why
      | none => if l.active = some l.ptr then some .activeEvent
        else if l.get l.ptr = none ∧ 250 ≤ l.events.length then some .listFull else none
    let next (l : EventList) (x : List Byte) : EventList := { l with
      ptr := min 1000 (l.ptr + 1)
      events := if outside l || (reason l x).isSome then l.events else putEvent l.ptr
        { fields := fieldsOf s.fmt x, status := .pending, failure := none, warns := Warnings.empty, attempts := 0 } l.events }
    let before (i : Nat) : EventList := (rs.take i).foldl next { s.list with ptr := n }
    let ignored (i : Nat) : Bool := outside (before i)
    let invalid (i : Nat) : Bool := !ignored i && (reason (before i) (rs.getD i [])).isSome
    let count (p : Nat → Bool) : Val := .u 1 ((List.range rs.length).countP p)
    let l := before rs.length
    let answers (code : Result) (first : List Val) := exec c s = .next { answered s r code
        (vCat [[count fun i => !ignored i && !invalid i, count invalid, count ignored], first, [.u 2 l.low, .u 2 l.high, .u 2 l.ptr],
          [.u 1 l.events.length]]) with
      list := l }
    (∀ i, i ≤ rs.length → (before i).ptr = min 1000 (n + i)) ∧
    ((∀ i, i < rs.length → invalid i = false) → answers .ok [.u 1 0, .raw [0, 0, 0]]) ∧
    (∀ i why, i < rs.length → invalid i = true → (∀ j, j < i → invalid j = false) →
      reason (before i) (rs.getD i []) = some why →
      answers (if why = .timecodeInvalid then .timecodeInvalid else if why = .activeEvent then .activeEvent
        else if why = .listFull then .listFull else .eventInvalid) [.u 1 1, .u 2 (before i).ptr, .u 1 why.code])) ∧
  (∀ (l : EventList) (n : Nat) (e : Event),
    let u : EventList := { l with events := putEvent n e l.events }
    u.get n = some e ∧ ∀ m, m ≠ n → u.get m = l.get m) ∧
  (∀ (f : SuiteFormat) (d : Deck) (r : List Byte),
    let b (i : Nat) := byteN r i
    let recIn := labelAt r 1
    let recOut := labelAt r 5
    let t := natAt r 19 3
    let dur := natAt r 22 2
    let day : Int := f.dayLen
    let span := ((recOut.toFrame f : Int) - recIn.toFrame f) % day
    let output (i : Nat) := b (29 + 8 * i)
    let offset (i : Nat) := intAt r (30 + 8 * i) 3
    let line (i : Nat) := natAt r (33 + 8 * i) 2
    let action (i : Nat) := b (35 + 8 * i)
    let length (i : Nat) := b (36 + 8 * i)
    let check1 := recIn.legal f = true ∧ recOut.legal f = true ∧ (labelAt r 10).legal f = true ∧
      (b 14 ≠ 0 → (labelAt r 15).legal f = true)
    let check2 := b 0 ≤ 2 ∧ 1 ≤ b 9 ∧ b 9 ≤ 6 ∧ b 14 ≤ 6 ∧ t ≤ f.dayLen / 2 ∧ dur ≤ 999 ∧ b 24 ≤ 1 ∧ b 27 ≤ 1
    let check3 := b 28 ≤ 4 ∧ ∀ i, i < b 28 → 1 ≤ output i ∧ output i ≤ 8 ∧ 1 ≤ line i ∧ line i ≤ f.lpf ∧ action i ≤ 2 ∧
      (action i = 0 → 1 ≤ length i ∧ length i ≤ 25)
    let check4 := 1 ≤ span ∧ span ≤ f.dayLen / 2
    let check5 := b 14 ≠ 0 → b 14 ≠ b 9
    let check6 := b 9 ≠ Deck.num d ∧ b 14 ≠ Deck.num d
    let check7 := b 0 ≠ 0 → b 14 ≠ 0
    let check8 := b 14 ≠ 0 → if b 0 = 0 then (t : Int) ≤ span else (t : Int) + dur ≤ span
    let check9 := ∀ i, i < b 28 → -750 ≤ offset i ∧ offset i ≤ span + 750
    let check10 := b 27 = 1 → b 26 % 32 ≠ 0
    invalidReason f d r =
      if ¬check1 then some .timecodeInvalid
      else if ¬check2 then some .fieldRange
      else if ¬check3 then some .triggerRange
      else if ¬check4 then some .spanRange
      else if ¬check5 then some .sameSource
      else if ¬check6 then some .sourceIsRecorder
      else if ¬check7 then some .noBSource
      else if ¬check8 then some .transitionRange
      else if ¬check9 then some .triggerRange
      else if ¬check10 then some .noTracks
      else none)

/-- The layout of a record and its reading agree: the fields read from the bytes that READ_EVENT gives for a record are that
record's (R96, R105, Table 12-4, section 12.2). -/
def Obligations.RecordLayoutRoundTrips : Prop :=
  ∀ (f : SuiteFormat) (e : EventFields), FieldsFit f e → fieldsOf f (e.bytes f) = e ∧
    (e.bytes f).length = 29 + 8 * byteN (e.bytes f) 28 ∧ splitRecords (e.bytes f).length (e.bytes f) = some [e.bytes f]

/-- SET_LOAD_WINDOW sets a window within 1 to 999 and leaves the pointer; any other is refused (R101). DELETE_EVENTS and
RESET_STATUS act on every event of the range but the active one, and CLEAR_LIST on the whole list unless an event is
active (R106, R107, R108). The optional number in the replies is of log 30. -/
def Obligations.ListWindowAndPruning : Prop :=
  (∀ (s : State) (r : Request), Takes s 0x20 r →
    let low := natAt r.params 0 2
    let high := natAt r.params 2 2
    (1 ≤ low ∧ low ≤ high ∧ high ≤ 999 → exec .setLoadWindow s = .next
      { answered s r .ok [.u 2 low, .u 2 high] with list := { s.list with low := low, high := high } }) ∧
    (¬(1 ≤ low ∧ low ≤ high ∧ high ≤ 999) → exec .setLoadWindow s = .next (answered s r .noEvent []))) ∧
  (∀ (s : State) (r : Request),
    let low := natAt r.params 0 2
    let high := natAt r.params 2 2
    let inRange (n : Nat) := decide (low ≤ n ∧ n ≤ high ∧ s.list.active ≠ some n)
    let left := s.list.events.filter fun x => !inRange x.1
    let renew (x : Nat × Event) : Nat × Event :=
      (x.1, { x.2 with status := .pending, failure := none, warns := Warnings.empty })
    let renewed := s.list.events.map fun x => if inRange x.1 then renew x else x
    let kept : List Val := match s.list.active with
      | some n => if low ≤ n ∧ n ≤ high then [.u 1 1, .u 2 n] else [.u 1 0, .raw [0, 0]]
      | none => [.u 1 0, .raw [0, 0]]
    (Takes s 0x24 r → 1 ≤ low ∧ low ≤ high ∧ high ≤ 999 → exec .deleteEvents s = .next
      { answered s r .ok (vCat [[.u 1 (s.list.events.length - left.length)], kept, [.u 1 left.length]]) with
        list := { s.list with events := left } }) ∧
    (Takes s 0x26 r → 1 ≤ low ∧ low ≤ high ∧ high ≤ 999 → exec .resetStatus s = .next
      { answered s r .ok (vCat [[.u 1 (s.list.events.length - left.length)], kept]) with
        list := { s.list with events := renewed } }) ∧
    (Takes s 0x24 r → ¬(1 ≤ low ∧ low ≤ high ∧ high ≤ 999) → exec .deleteEvents s = .next (answered s r .noEvent [])) ∧
    (Takes s 0x26 r → ¬(1 ≤ low ∧ low ≤ high ∧ high ≤ 999) → exec .resetStatus s = .next (answered s r .noEvent [])) ∧
    (Takes s 0x25 r → s.list.active = none → exec .clearList s = .next
      { answered s r .ok [] with list := { s.list with events := [] } }) ∧
    (Takes s 0x25 r → s.list.active.isSome = true → exec .clearList s = .next (answered s r .activeEvent [])))

/-! ## Executing an edit (chapter 7) -/

/-- EXECUTE of an event that passes the checks of CLAIM: the event is active, its decks are claimed for the sequencer, the
figures are fixed, and the edit is CUEING (R112 to R114). The LOCATE to its cue point is posted to every involved deck, and
handed at once on an IDLE line; play start and delays are those of the recorder's identity. The LINK chases of the involved
decks, and those that follow a source, are CANCELLED; the slave that only follows becomes FREE (R92, R93, R114; serial
numbers: log 16; the layout of the entries: log 30; that they show the channel after the clearing, owner and master absent
and offset 0: log 64). EXECUTE of an event that fails a check of CLAIM ends the edit at once: the event is FAILED with the
reason and its attempts rise by one; no deck is claimed and no chase touched (log 32; R112, R113, R124, R130, R97), with
EDIT_PHASE for CLAIM, RELEASE and IDLE and with EDIT_END; an edit that passes has EDIT_PHASE for CLAIM and CUEING (R134; log
57). EXECUTE's refusals in the order of its checks (R112); a mode code that names none is refused first, with
UNKNOWN_REQUEST (R189, log 23). The reason is that of the first check of Table 7-3 that fails: no source the recorder, every
involved deck PRESENT, every source with VARISPEED, and in PERFORM a recorder with RECORD, and with INSERT for an INSERT; a
REVIEW involves no source (R113). The absent figures of REVIEW are of log 34. -/
def Obligations.ExecuteClaimsFailsOrIsRefused : Prop :=
  (∀ (s : State) (r : Request) (m : EditMode) (x : Event), Takes s 0x29 r →
    let n := natAt r.params 0 2
    let e := x.fields
    EditMode.ofCode (byteN r.params 2) = some m → s.edit.phase = .idle → s.run.active = false →
    (m = .perform → s.ref.st = .locked) → 1 ≤ n → n ≤ 999 → s.list.get n = some x → s.claimCheck e m = none →
    s.link.expired = false →
    let involved := involvedDecks s.recorder e m
    let p := involved.foldl (fun p d => max p (s.port d).minPreroll) s.set.preroll
    ∃ u, exec .executeEvent s = .next u ∧
      u.list = { s.list with active := some n } ∧ u.edit.active = some (n, e) ∧ u.edit.mode = some m ∧
      u.edit.phase = .cueing ∧ u.edit.involved = involved ∧ u.edit.preroll = p ∧
      u.edit.margin = min s.set.syncMargin (p - 1) ∧ u.edit.postroll = s.set.postroll ∧
      u.edit.deadline = s.set.cueTimeout ∧ u.edit.cueR = some (s.fmt.addFrames e.recIn (-(p : Int))) ∧
      (m ≠ .review → u.edit.cueA = some (s.fmt.addFrames e.aIn (-(p : Int))) ∧
        u.edit.offA = some (s.fmt.d e.aIn e.recIn)) ∧
      (m ≠ .review → ∀ b, e.b = some b → u.edit.cueB = some (s.fmt.addFrames b.inAt (-(e.t : Int) - p)) ∧
        u.edit.offB = some (s.fmt.d b.inAt (s.fmt.addFrames e.recIn e.t))) ∧
      u.edit.stage = .notSent ∧ u.edit.abort = none ∧
      u.edit.warns = { Warnings.empty with ref := s.ref.st != RefState.locked } ∧
      u.edit.srcA = (if m = .review then none else some e.a) ∧
      u.edit.srcB = (if m = .review then none else e.b.map BSource.deck) ∧
      u.edit.acked = Vector.replicate 6 false ∧ u.edit.cued = Vector.replicate 6 false ∧
      (∀ i, (s.port s.recorder).ident = some i → u.edit.playStart = i.playStart ∧
        (∀ on off, i.delays = some (on, off) → u.edit.onDelay = on ∧ u.edit.offDelay = off) ∧
        (i.delays = none → u.edit.onDelay = 0 ∧ u.edit.offDelay = 0)) ∧
      (∀ d ∈ involved, (u.port d).claim = .sequencer) ∧
      (let cues : List (Deck × Nat) := (s.recorder, s.fmt.addFrames e.recIn (-(p : Int))) ::
          if m = .review then [] else (e.a, s.fmt.addFrames e.aIn (-(p : Int))) ::
            match e.b with
            | some b => [(b.deck, s.fmt.addFrames b.inAt (-(e.t : Int) - p))]
            | none => []
        (cues.map Prod.fst).Nodup → ∀ (d : Deck) (cue : Nat), (d, cue) ∈ cues → (s.port d).seqSlot = { first := none, second := none } →
          let q : Port := { s.port d with
            claim := .sequencer
            servo := if (s.chan d).owner = some .link ∧ (s.chan d).st ≠ .idle then
              (s.port d).servo.filter fun c => c.cmd == .stop else (s.port d).servo }
          ((s.port d).line ≠ .idle → u.port d = { q with seqSlot := { first := some (.locate cue), second := none } }) ∧
          ((s.port d).line = .idle → (s.port d).emerg = none → u.port d = { q with
            line := .sending, flight := some ⟨.locate cue, .sequencer⟩, tx := (DeckCmd.locate cue).frame s.fmt
            fresh := false })) ∧
      (∀ x : Deck,
        let follows := ∃ y ∈ involved.tail, (s.chan x).master = some (.deck y)
        ((s.chan x).owner = some .link → (s.chan x).st ≠ .idle → x ∈ involved ∨ follows →
          u.chan x = Channel.idle s.set.lead ((s.chan x).gen + 1) (s.chan x).loc ∧
          (x ∉ involved → u.port x = { s.port x with
            claim := .free, servo := (s.port x).servo.filter fun c => c.cmd == .stop }) ∧
          ChaseTold s u x (s.chan x).st .cancelled 1) ∧
        ((s.chan x).owner ≠ some .link ∨ (x ∉ involved ∧ ¬follows) → u.chan x = s.chan x ∧
          (x ∉ involved → u.port x = s.port x))) ∧
      u.link.replies = (answered s r .ok [.u 2 n, .u 1 m.code]).link.replies ∧ PhaseTold s u n m .cueing .claim 2 ∧
      u.run = s.run ∧ u.engine = s.engine ∧ u.gpi = s.gpi ∧ u.readers = s.readers ∧ u.set = s.set) ∧
  (∀ (s : State) (r : Request) (m : EditMode) (x : Event) (why : Reason), Takes s 0x29 r →
    let n := natAt r.params 0 2
    EditMode.ofCode (byteN r.params 2) = some m → s.edit.phase = .idle → s.run.active = false →
    (m = .perform → s.ref.st = .locked) → 1 ≤ n → n ≤ 999 → s.list.get n = some x → s.claimCheck x.fields m = some why →
    ∃ u, exec .executeEvent s = .next u ∧
      u.edit = Edit.idle ∧ u.ports = s.ports ∧ u.chase = s.chase ∧ u.run = s.run ∧ u.list = { s.list with
        active := none
        events := s.list.events.map fun y => if y.1 = n then (n, { y.2 with
          status := .failed, failure := some why, warns := { Warnings.empty with ref := s.ref.st != RefState.locked }
          attempts := min 255 (y.2.attempts + 1) }) else y } ∧
      u.link.replies = (answered s r .ok [.u 2 n, .u 1 m.code]).link.replies ∧
      ClaimFailTold s u n m why (min 255 (x.attempts + 1)) 0 0) ∧
  (∀ (s : State) (r : Request), Takes s 0x29 r → 2 < byteN r.params 2 →
    exec .executeEvent s = .next (answered s r .unknownRequest [])) ∧
  (∀ (s : State) (r : Request) (m : EditMode), Takes s 0x29 r →
    let n := natAt r.params 0 2
    EditMode.ofCode (byteN r.params 2) = some m →
    (s.edit.phase ≠ .idle ∨ s.run.active = true → exec .executeEvent s = .next (answered s r .wrongState [])) ∧
    (s.edit.phase = .idle → s.run.active = false → m = .perform → s.ref.st ≠ .locked →
      exec .executeEvent s = .next (answered s r .noReference [])) ∧
    (s.edit.phase = .idle → s.run.active = false → (m = .perform → s.ref.st = .locked) →
      (n < 1 ∨ 999 < n ∨ s.list.get n = none) → exec .executeEvent s = .next (answered s r .noEvent []))) ∧
  (∀ (s : State) (ev : EventFields) (m : EditMode),
    let sources : List Deck := if m = .review then [] else match ev.b with
      | some b => [ev.a, b.deck]
      | none => [ev.a]
    let able (d : Deck) (q : Caps → Bool) := (s.port d).ident.any fun i => q i.caps
    s.claimCheck ev m =
      if s.recorder ∈ sources then some .sourceIsRecorder
      else if ¬∀ d ∈ s.recorder :: sources, (s.port d).presence = .present then some .deckAbsent
      else if ¬∀ d ∈ sources, able d Caps.varispeed = true then some .notChaseable
      else if m = .perform ∧ ¬(able s.recorder Caps.record = true ∧
          (ev.kind = .insert → able s.recorder Caps.insert = true)) then some .notCapable
      else none)

/-- A frame start in CUEING judges the decks cued: acknowledged, with CUE_DONE reported since (R116). While one is not, the
deadline falls. With all cued the edit is ROLLING: PLAY is posted to the recorder and the deadline is the preroll, the play
start and 25 (R117). Outside REVIEW the sources' channels start PARKED at their cue points, on the recorder as master (R93);
the engine is armed with the event's effective transition, Table 6-5, at level 0 (R99, R150); and the triggers are scheduled
in their order, each due its offset after the record in (R164). EDIT_PHASE, CHASE_STATE and TRANSITION_STATE are entered
(R134, R89, R160). No LOCATE is to be posted again; an IDLE recorder line takes the PLAY at once. The pattern of a plan
whose event has none is of log 53, the engine's mark live of log 51, the serial numbers of log 16, the layouts of the
entries of log 30. -/
def Obligations.CueingPassesToRolling : Prop :=
  ∀ (s : State) (n : Nat) (ev : EventFields) (m : EditMode), s.asserted = false → 0 < s.due.seq → s.safeStop = false →
    s.link.expired = false → s.edit.active = some (n, ev) → s.edit.mode = some m → s.edit.abort = none →
    s.edit.phase = .cueing → (∀ d : Deck, s.edit.relocate[d.val] = false) →
    let e := s.edit
    let ready (d : Deck) := e.cued[d.val] = true ∨
      (e.acked[d.val] = true ∧ (s.port d).fresh = true ∧ (s.port d).flag 6 = true)
    ((∃ d ∈ e.involved, ¬ready d) → 2 ≤ e.deadline → ∃ cued : Vector Bool 6,
      exec .sequencerFrameStart s = .next { s with
        due := { s.due with seq := s.due.seq - 1 }, edit := { e with cued := cued, deadline := e.deadline - 1 } } ∧
      ∀ d : Deck, cued[d.val] = true ↔ e.cued[d.val] = true ∨ (d ∈ e.involved ∧ ready d)) ∧
    ((∀ d ∈ e.involved, ready d) → SeqFirst (s.port s.recorder) →
      ∃ u, exec .sequencerFrameStart s = .next u ∧ u.edit.phase = .rolling ∧
        u.edit.deadline = e.preroll + e.playStart + 25 ∧ u.edit.syncPassed = false ∧ u.edit.abort = none ∧
        u.edit.active = e.active ∧ u.edit.warns = e.warns ∧
        u.port s.recorder = seqPosted (s.port s.recorder) s.fmt .play ∧
        (∀ d, d ≠ s.recorder → u.port d = s.port d) ∧ u.list = s.list ∧ u.readers = s.readers ∧ u.run = s.run ∧
        u.mixer = s.mixer ∧ u.link.replies = s.link.replies ∧ PhaseTold s u n m .rolling .cueing 1 ∧
        (∀ d, e.srcA ≠ some d → e.srcB ≠ some d → u.chan d = s.chan d) ∧
        (m = .review → u.engine = s.engine ∧ u.gpi = s.gpi ∧ u.chase = s.chase) ∧
        (m ≠ .review →
          let type : PlanType := match ev.b, ev.type with
            | none, _ => .none
            | some _, .cut => .cut
            | some _, .mix => if ev.d = 0 then .cut else .mix
            | some _, .wipe => if ev.d = 0 then .cut else .wipe
          let q := ev.pattern.getD { num := 0, rev := false }
          let b : VideoSource := match ev.b with
            | some b => .deck b.deck
            | none => .black
          let source (d : Deck) (o : Int) (cue : Nat) : Channel :=
            { Channel.idle s.set.lead ((s.chan d).gen + 1) (s.chan d).loc with
              st := .parked, owner := some .sequencer, master := some (.deck s.recorder), offset := o, kind := some .lead
              target := some cue, acked := true }
          u.engine = { s.engine with
            st := .armed, form := .curve, k := 0, level := 0, xa := .deck ev.a, xb := b, pendCut := false, pickup := false
            preview := m == .preview, live := true
            effect := match type with
              | .mix => .mix
              | .wipe => .wipe q
              | _ => s.engine.effect
            plan := some { type := type, curve := ev.curve, dur := ev.d, pattern := q, a := .deck ev.a, b := b
                           start := some (s.fmt.addFrames ev.recIn ev.t), owner := .sequencer, preview := m == .preview } } ∧
          Told s u .transitionState 0 (u.engine.noticeContent s.engine.st .armed) 1 ∧
          u.gpi.outs = s.gpi.outs ∧
          u.gpi.sched.Perm (ev.triggers.mapIdx fun i x =>
            { output := x.output, due := s.fmt.addFrames ev.recIn x.offset, offset := x.offset, line := x.line
              action := x.action, event := n, place := i + 1, inFrame := false, late := false }) ∧
          u.gpi.sched.Pairwise (fun x y => x.offset < y.offset ∨
            (x.offset = y.offset ∧ (x.line < y.line ∨ (x.line = y.line ∧ x.place < y.place)))) ∧
          (∀ d o cue, e.srcA = some d ∧ e.srcB ≠ some d ∧ e.offA = some o ∧ e.cueA = some cue ∨
              e.srcB = some d ∧ e.srcA ≠ some d ∧ e.offB = some o ∧ e.cueB = some cue →
            u.chan d = source d o cue ∧ ChaseTold s u d (s.chan d).st .sequencer 1)))

/-- In EDITING without record, a frame start at or past the record-off point makes the phase POSTROLL with its deadline; in
EDITING of any mode and in POSTROLL, one before the point, or without a recorder position, lowers the deadline (R118, R122,
R123). In IDLE and RELEASE, with an abort taken and in a safe stop a frame start tests nothing (R118, R129, R184). The frame
start at which POSTROLL reaches its end, or its deadline runs out, enters RELEASE: every involved deck's STOP is posted and
awaited, the sequencer's channels of the sources are cleared with RELEASED, the schedule is emptied, and a plan still ARMED
is withdrawn, where one RUNNING runs on (R93, R123, R154). Each change of phase enters EDIT_PHASE with the event number and
mode, new and old phase, the recorder frame or none, the preroll and the recorder cue point from CUEING on, the record stage
and the abort cause or none (R134, in the layout of log 30). The order of deadline and test is of log 39; what CHASE_STATE
shows of a cleared channel of log 64, its serial numbers of log 16; that a withdrawn plan stays in the record, of log 36. -/
def Obligations.EditEndsInPostrollAndRelease : Prop :=
  (∀ (s : State) (p : Phase),
    let e := s.edit
    (e.phase = p → s.setPhase p = s) ∧
    (∀ n ev m, e.phase ≠ p → e.active = some (n, ev) → e.mode = some m →
      s.setPhase p = ({ s with edit := { e with phase := p } } : State).enter .editPhase 0 (phaseContent s e n m p e.phase))) ∧
  (∀ s : State, s.asserted = false → 0 < s.due.seq →
    s.edit.phase = .idle ∨ s.edit.phase = .release ∨ s.edit.abort.isSome = true ∨ s.safeStop = true →
    exec .sequencerFrameStart s = .next { s with due := { s.due with seq := s.due.seq - 1 } }) ∧
  (∀ (s : State) (n : Nat) (ev : EventFields) (m : EditMode), s.asserted = false → 0 < s.due.seq → s.safeStop = false →
    let e := s.edit
    let due := { s.due with seq := s.due.seq - 1 }
    let off := s.fmt.addFrames ev.recOut (-(e.offDelay : Int))
    let r := s.recFrame (s.startInstant s.due.seq)
    let waits := exec .sequencerFrameStart s = .next { s with due := due, edit := { e with deadline := e.deadline - 1 } }
    e.active = some (n, ev) → e.mode = some m → e.abort = none →
    (∀ x, e.phase = .editing → r = some x → 0 ≤ s.fmt.d x off → m ≠ .perform → exec .sequencerFrameStart s = .next
      (({ s with due := due, edit := { e with deadline := e.postroll + 25 } } : State).setPhase .postroll)) ∧
    (e.phase = .editing → (∀ x, r = some x → s.fmt.d x off < 0) → 2 ≤ e.deadline → waits) ∧
    (e.phase = .postroll → (∀ x, r = some x → s.fmt.d x (s.fmt.addFrames ev.recOut e.postroll) < 0) → 2 ≤ e.deadline →
      waits)) ∧
  (∀ (s : State) (n : Nat) (ev : EventFields) (m : EditMode) (c : Instr), s.asserted = false → 0 < s.due.seq →
    s.safeStop = false → s.edit.active = some (n, ev) → s.edit.mode = some m → s.edit.abort = none →
    s.edit.phase = .postroll →
    (c = .postrollTimeout ∧ s.edit.deadline = 1 ∨
      c = .sequencerFrameStart ∧ (∃ x, s.recFrame (s.startInstant s.due.seq) = some x ∧
        0 ≤ s.fmt.d x (s.fmt.addFrames ev.recOut s.edit.postroll))) →
    ∃ u, exec c s = .next u ∧ u.edit.phase = .release ∧ u.edit.abort = none ∧ u.edit.stops = s.edit.involved ∧
      u.gpi = { s.gpi with sched := [] } ∧ u.list = s.list ∧ SourcesReleased s u ∧
      (∀ d, d ∉ s.edit.sources ∨ (s.chan d).owner ≠ some .sequencer → u.chan d = s.chan d) ∧
      (s.engine.st = .armed → u.engine = { s.engine with st := .idle, preview := false } ∧
        Told s u .transitionState 0 (u.engine.noticeContent .armed .withdrawn) 1) ∧
      PhaseTold s u n m .release .postroll 1 ∧
      (s.engine.st ≠ .armed → u.engine = { s.engine with preview := false }) ∧
      (s.edit.involved.Nodup → ∀ d ∈ s.edit.involved, SeqFirst (s.port d) →
        let released := d ∈ s.edit.sources ∧ (s.chan d).owner = some .sequencer ∧ (s.chan d).st ≠ .idle
        u.port d = seqPosted { s.port d with
          servo := if released then (s.port d).servo.filter fun c => c.cmd == .stop else (s.port d).servo } s.fmt .stop))

/-- In PERFORM the record-on comparison posts RECORD_ON from the record-on point until the in point, handed at once on an
IDLE line, and the phase becomes EDITING; the record-on point found already past the in point aborts the edit with
MISSED_POINT (R120). In PREVIEW and REVIEW the record-on point makes the phase EDITING without record (R121). In ROLLING the
sync point, the sync margin before the in point, aborts with NO_LOCK unless every source's channel is LOCKED (no sources in
REVIEW), and with NO_TIMECODE unless the recorder's reader is on LTC or the flywheel; passed, it opens the quiet window in
PERFORM (R66, R119). Several points can come at one frame start, each judged in turn: the sync point, the record-on point
and the record-off point, whose RECORD_OFF stands behind the RECORD_ON (R118, R63). Before the next point, and without a
recorder position, the deadline falls (R118). In EDITING of PERFORM the record-off point posts RECORD_OFF once, behind a
command that still waits in its slot (R63); at its hand the phase is POSTROLL, record no longer stands, the window closes,
and LATE_OUT is set when the recorder is two frames or more past the point (R122, R66, R68; log 58 with no position). The
stage that the EDIT_PHASE entry of EDITING shows is of log 68. An abort tells what O37 says, by logs 36 and 64. -/
def Obligations.SyncAndRecordPoints : Prop :=
  (∀ (s : State) (n x : Nat) (ev : EventFields), s.asserted = false → 0 < s.due.seq → s.safeStop = false →
    let e := s.edit
    let f := s.fmt
    let p := s.port s.recorder
    let due := { s.due with seq := s.due.seq - 1 }
    let on := f.addFrames ev.recIn (-(e.onDelay : Int))
    let heard := (s.reader s.recorder).src = .ltc ∨ (s.reader s.recorder).src = .flywheel
    let passes := e.replay = false ∧ 0 ≤ f.d x (f.addFrames ev.recIn (-(e.margin : Int))) ∧ heard ∧
      ∀ d, e.srcA = some d ∨ e.srcB = some d → (s.chan d).st = .locked
    e.active = some (n, ev) → e.mode = some .perform → e.abort = none → e.phase = .rolling → e.syncPassed = true ∨ passes →
    s.recFrame (s.startInstant s.due.seq) = some x → s.link.expired = false → e.offPosted = false →
    p.seqSlot = { first := none, second := none } →
    let q : Port := if e.syncPassed then p else { p with quiet := true, hold := false, poll := none }
    let ends : Bool := 0 ≤ f.d x (f.addFrames ev.recOut (-(e.offDelay : Int)))
    let intime := f.d x ev.recIn < 0 ∨ (e.onDelay = 0 ∧ f.d x ev.recIn = 0)
    let editing : Edit := { e with
      syncPassed := true, offPosted := ends, replay := false, deadline := f.span ev.recIn ev.recOut + 25 }
    let last : Option DeckCmd := if ends then some .recordOff else none
    (e.syncPassed = true → f.d x on < 0 → 2 ≤ e.deadline → exec .sequencerFrameStart s = .next
      { s with due := due, edit := { e with replay := false, deadline := e.deadline - 1 } }) ∧
    (0 ≤ f.d x on → intime → p.line = .idle → p.emerg = none → p.presence ≠ .disabled →
      let v : State := { s with due := due, edit := { editing with stage := .onHanded, onFrame := s.recNow } }
      exec .sequencerFrameStart s = .next ((v.setPort s.recorder { q with
        line := .sending, flight := some ⟨.recordOn ev.tracks ev.kind, .sequencer⟩
        tx := (DeckCmd.recordOn ev.tracks ev.kind).frame f, fresh := false, standing := true
        seqSlot := { first := last, second := none } }).setPhase .editing)) ∧
    (0 ≤ f.d x on → intime → p.line ≠ .idle →
      let v : State := { s with due := due, edit := editing }
      exec .sequencerFrameStart s = .next ((v.setPort s.recorder { q with
        seqSlot := { first := some (.recordOn ev.tracks ev.kind), second := last } }).setPhase .editing)) ∧
    (0 ≤ f.d x on → ¬intime → s.recorder ∈ e.involved → ∃ u, exec .sequencerFrameStart s = .next u ∧
      u.edit.abort = some .missedPoint ∧ u.edit.stops = e.involved ∧ u.edit.abortStage = e.stage ∧ AbortTold s u ∧
      u.list = s.list)) ∧
  (∀ (s : State) (n : Nat) (ev : EventFields) (m : EditMode), s.asserted = false → 0 < s.due.seq → s.safeStop = false →
    let e := s.edit
    let f := s.fmt
    let due := { s.due with seq := s.due.seq - 1 }
    let on := f.addFrames ev.recIn (-(e.onDelay : Int))
    let off := f.addFrames ev.recOut (-(e.offDelay : Int))
    let sync := f.addFrames ev.recIn (-(e.margin : Int))
    let locked := m = .review ∨ ∀ d, e.srcA = some d ∨ e.srcB = some d → (s.chan d).st = .locked
    let heard := (s.reader s.recorder).src = .ltc ∨ (s.reader s.recorder).src = .flywheel
    let passed := { e with syncPassed := true, deadline := e.deadline - 1 }
    let r := s.recFrame (s.startInstant s.due.seq)
    e.active = some (n, ev) → e.mode = some m → e.abort = none → e.phase = .rolling → e.replay = false →
    (r = none → 2 ≤ e.deadline → exec .sequencerFrameStart s = .next
      { s with due := due, edit := { e with deadline := e.deadline - 1 } }) ∧
    (∀ x, r = some x →
      (e.syncPassed = false → f.d x sync < 0 → 2 ≤ e.deadline → exec .sequencerFrameStart s = .next
        { s with due := due, edit := { e with deadline := e.deadline - 1 } }) ∧
      (e.syncPassed = false → 0 ≤ f.d x sync → ¬locked → s.recorder ∈ e.involved → ∃ u,
        exec .sequencerFrameStart s = .next u ∧ u.edit.abort = some .noLock ∧ u.edit.stops = e.involved ∧
          u.edit.abortStage = e.stage ∧ AbortTold s u ∧ u.list = s.list) ∧
      (e.syncPassed = false → 0 ≤ f.d x sync → locked → ¬heard → s.recorder ∈ e.involved → ∃ u,
        exec .sequencerFrameStart s = .next u ∧ u.edit.abort = some .noTimecode ∧ u.edit.stops = e.involved ∧
          u.edit.abortStage = e.stage ∧ AbortTold s u ∧ u.list = s.list) ∧
      (e.syncPassed = true ∨ (0 ≤ f.d x sync ∧ locked ∧ heard) → f.d x on < 0 → 2 ≤ e.deadline →
        (m ≠ .perform ∨ e.syncPassed = true → exec .sequencerFrameStart s = .next { s with due := due, edit := passed }) ∧
        (m = .perform → e.syncPassed = false → exec .sequencerFrameStart s = .next
          (({ s with due := due, edit := passed } : State).setPort s.recorder
            { s.port s.recorder with quiet := true, hold := false, poll := none }))) ∧
      (e.syncPassed = true ∨ (0 ≤ f.d x sync ∧ locked ∧ heard) → m ≠ .perform → 0 ≤ f.d x on →
        let v := ({ s with
          due := due
          edit := { e with syncPassed := true, deadline := f.span ev.recIn ev.recOut + 25 } } : State).setPhase .editing
        (f.d x off < 0 → exec .sequencerFrameStart s = .next v) ∧
        (0 ≤ f.d x off → exec .sequencerFrameStart s = .next
          (({ v with edit := { v.edit with deadline := e.postroll + 25 } } : State).setPhase .postroll))))) ∧
  (∀ (s : State) (n x : Nat) (ev : EventFields), s.asserted = false → 0 < s.due.seq → s.safeStop = false →
    s.link.expired = false →
    let e := s.edit
    let f := s.fmt
    let p := s.port s.recorder
    let due := { s.due with seq := s.due.seq - 1 }
    let off := f.addFrames ev.recOut (-(e.offDelay : Int))
    e.active = some (n, ev) → e.mode = some .perform → e.abort = none → e.phase = .editing → 2 ≤ e.deadline →
    s.recFrame (s.startInstant s.due.seq) = some x → 0 ≤ f.d x off →
    (e.offPosted = true → exec .sequencerFrameStart s = .next
      { s with due := due, edit := { e with deadline := e.deadline - 1 } }) ∧
    (∀ slot : SeqItem, e.offPosted = false → p.line ≠ .idle →
      (p.seqSlot = { first := none, second := none } ∧ slot = { first := some .recordOff, second := none } ∨
        (∃ c, p.seqSlot = { first := some c, second := none } ∧ slot = { first := some c, second := some .recordOff }) ∨
        (∃ c b, p.seqSlot = { first := c, second := some b } ∧ slot = { first := c, second := some .recordOff })) →
      exec .sequencerFrameStart s = .next
        (({ s with due := due, edit := { e with offPosted := true, deadline := e.deadline - 1 } } : State).setPort s.recorder
          { p with seqSlot := slot })) ∧
    (∀ tracks kind, e.offPosted = false → p.line = .idle → p.emerg = none → p.presence ≠ .disabled →
      p.seqSlot = { first := some (.recordOn tracks kind), second := none } →
      let v : State := { s with
        due := due
        edit := { e with offPosted := true, stage := .onHanded, onFrame := s.recNow, deadline := e.deadline - 1 } }
      exec .sequencerFrameStart s = .next (v.setPort s.recorder { p with
        line := .sending, flight := some ⟨.recordOn tracks kind, .sequencer⟩, tx := (DeckCmd.recordOn tracks kind).frame f
        fresh := false, standing := true, seqSlot := { first := none, second := some .recordOff } })) ∧
    (e.offPosted = false → p.line = .idle → p.seqSlot = { first := none, second := none } → p.emerg = none →
      p.presence ≠ .disabled →
      let v : State := { s with
        due := due
        edit := { e with
          offPosted := true, stage := .offHanded, offFrame := s.recNow, deadline := e.postroll + 25
          warns := { e.warns with lateOut := e.warns.lateOut || s.recNow.any fun y => 2 ≤ f.d y off } } }
      exec .sequencerFrameStart s = .next ((v.setPort s.recorder { p with
        line := .sending, flight := some ⟨.recordOff, .sequencer⟩, tx := [2, 0x31, 0x33], fresh := false, standing := false
        quiet := false, hold := p.quiet || p.hold }).setPhase .postroll)))

/-- What the sequencer makes of the outcomes of its commands (R115). An acknowledged LOCATE marks its deck in CUEING, and
one that fails there is posted again at the next frame start; a PLAY that fails is posted again before the sync point; a
RECORD_ON or RECORD_OFF that fails aborts the edit with RECORD_UNCONFIRMED; a NAK of any of them with DECK_NAK; an ACK or
NAK counts at any instant at which its command awaits it, a failure from 12 ms on (R50); a STOP's outcome takes its deck
from the stops awaited (Table 7-4). The re-post comes before the tests of its frame start (log 27). The RECORD_OFF of an
EMERGENCY item has its outcome told to nobody, and its STOP is handed next; the outcome of that STOP, whatever it is, takes
its deck from the stops awaited (R62, R124, R129). What a chase channel makes of the outcomes of its own commands, unless it
is IDLE or in FAULT (R87): an acknowledged LOCATE, the latest one, is marked; a NAK makes it FAULT with DECK_NAK and posts
STOP, and aborts the edit of a channel of the sequencer with DECK_NAK (R88, R127); a LOCATE or PLAY that fails is posted
again at the next sample, if its state still calls for it, and a VARISPEED that fails clears the last speed sent. Outcomes
of another LOCATE, or of an earlier chase, are ignored. An abort tells what O37 says, by logs 36 and 64; a FAULT enters
CHASE_STATE (R89), ahead of the entries of its abort (log 67). The serial numbers that tell them apart are of log 16, that
the re-post follows the state's rule of log 21; the originator is told before the line is served by log 19. -/
def Obligations.SequencerTakesItsOutcomes : Prop :=
  (∀ (s : State) (d : Deck) (t : Time), s.asserted = false → s.safeStop = false →
    let p := s.port d
    let e := s.edit
    let ack : List LineChar := [⟨2, false⟩, ⟨0x80, false⟩, ⟨0x82, false⟩]
    let done := (s.tick t).setPort d { p with line := .idle, flight := none, rx := none, byteAt := t, fails := 0 }
    let failed := (s.tick t).setPort d { p with
      flight := none, rx := none, fails := p.fails + 1, line := .recovering, late := .reply { bytes := [], bad := false }
      replyFrom := t }
    let late := p.replyFrom + ms 12 ≤ t
    p.line = .awaiting → p.stray = none → p.rx = none → p.presence = .present → p.fails < 2 →
    (∀ n, p.flight = some ⟨.locate n, .sequencer⟩ → e.phase = .cueing →
      exec (.deckReplyReceived d ack t) s = .next (({ done with edit := { e with acked := e.acked.set d.val true } } :
        State).hand d) ∧
      (late → exec (.replyTimeout d t) s = .next { failed with edit := { e with relocate := e.relocate.set d.val true } })) ∧
    (p.flight = some ⟨.play, .sequencer⟩ → e.phase ≠ .idle →
      exec (.deckReplyReceived d ack t) s = .next (done.hand d) ∧
      (late → exec (.replyTimeout d t) s = .next { failed with edit := { e with replay := true } })) ∧
    (p.flight = some ⟨.stop, .sequencer⟩ → e.phase = .release → (∃ x ∈ e.stops, x ≠ d) →
      exec (.deckReplyReceived d ack t) s = .next (({ done with edit := { e with stops := e.stops.filter (· ≠ d) } } :
        State).hand d) ∧
      (late → exec (.replyTimeout d t) s = .next { failed with edit := { e with stops := e.stops.filter (· ≠ d) } })) ∧
    (∀ c : DeckCmd, c.isRecord = true → p.flight = some ⟨c, .sequencer⟩ → e.phase.abortable = true → e.abort = none →
      s.recorder ∈ e.involved →
      exec (.deckReplyReceived d ack t) s = .next (done.hand d) ∧
      (late → ∃ u, exec (.replyTimeout d t) s = .next u ∧ u.edit.abort = some .recordUnconfirmed ∧
        u.edit.stops = e.involved ∧ AbortTold s u ∧ (u.port d).fails = p.fails + 1 ∧ (u.port d).line = .recovering ∧
        u.list = s.list)) ∧
    (∀ (c : DeckCmd) (why : Byte), c.isRecord = true ∨ c = .play ∨ (∃ n, c = .locate n) →
      p.flight = some ⟨c, .sequencer⟩ → e.phase.abortable = true → e.abort = none → s.recorder ∈ e.involved →
      s.link.expired = false →
      ∃ u, exec (.deckReplyReceived d [⟨3, false⟩, ⟨0x81, false⟩, ⟨why, false⟩, ⟨3 ^^^ 0x81 ^^^ why, false⟩] t) s = .next u ∧
        u.edit.abort = some .deckNak ∧ u.edit.stops = e.involved ∧ AbortTold s u ∧
        (u.port d).nak = some (NakReason.ofByte why.toNat) ∧ (u.port d).fails = 0 ∧ u.list = s.list)) ∧
  (∀ (s : State) (n : Nat) (ev : EventFields) (m : EditMode), s.asserted = false → 0 < s.due.seq → s.safeStop = false →
    s.link.expired = false → s.edit.active = some (n, ev) → s.edit.mode = some m → s.edit.abort = none →
    2 ≤ s.edit.deadline → s.edit.involved.Nodup →
    (∀ d ∈ s.edit.involved, SeqFirst (s.port d)) →
    (s.edit.phase = .cueing → (∃ d ∈ s.edit.involved, s.edit.cued[d.val] = false ∧ s.edit.acked[d.val] = false) →
      ∃ u, exec .sequencerFrameStart s = .next u ∧ u.edit.phase = .cueing ∧ ∀ d ∈ s.edit.involved,
        (s.edit.relocate[d.val] = false → u.port d = s.port d) ∧
        (∀ c, s.edit.relocate[d.val] = true → s.edit.cued[d.val] = false → s.edit.cueOf d = some c →
          u.port d = seqPosted (s.port d) s.fmt (.locate c) ∧ u.edit.relocate[d.val] = false)) ∧
    (s.edit.phase = .rolling → s.recorder ∈ s.edit.involved → s.edit.replay = true →
      s.recFrame (s.startInstant s.due.seq) = none →
      ∃ u, exec .sequencerFrameStart s = .next u ∧ u.edit = { s.edit with replay := false, deadline := s.edit.deadline - 1 } ∧
        u.port s.recorder = (if s.edit.syncPassed then s.port s.recorder else seqPosted (s.port s.recorder) s.fmt .play))) ∧
  (∀ (s : State) (d : Deck) (t : Time), s.asserted = false → s.safeStop = false → s.link.expired = false →
    let p := s.port d
    let e := s.edit
    let ack : List LineChar := [⟨2, false⟩, ⟨0x80, false⟩, ⟨0x82, false⟩]
    let nak (why : Byte) : List LineChar := [⟨3, false⟩, ⟨0x81, false⟩, ⟨why, false⟩, ⟨3 ^^^ 0x81 ^^^ why, false⟩]
    let ended := { p with line := .idle, flight := none, rx := none, byteAt := t, fails := 0 }
    let refused (why : Byte) := { ended with nak := some (NakReason.ofByte why.toNat) }
    let failed := { p with
      flight := none, rx := none, fails := p.fails + 1, line := .recovering, late := .reply { bytes := [], bad := false }
      replyFrom := t }
    let stopping (q : Port) (o : Origin) := { q with
      line := .sending, flight := some ⟨.stop, o⟩, tx := [2, 0x20, 0x22], fresh := false }
    let late := p.replyFrom + ms 12 ≤ t
    p.line = .awaiting → p.stray = none → p.rx = none → p.presence = .present → p.fails < 2 →
    (∀ a b, p.flight = some ⟨.recordOff, .emergencyOff⟩ →
      p.emerg = some { recordOff := false, toSeq := a, toSafe := b } →
      exec (.deckReplyReceived d ack t) s = .next
        ((s.tick t).setPort d (stopping { ended with emerg := none } (.emergencyStop a b))) ∧
      (∀ why, exec (.deckReplyReceived d (nak why) t) s = .next
        ((s.tick t).setPort d (stopping { refused why with emerg := none } (.emergencyStop a b)))) ∧
      (late → exec (.replyTimeout d t) s = .next ((s.tick t).setPort d failed))) ∧
    (p.flight = some ⟨.stop, .emergencyStop true false⟩ → e.phase = .release → (∃ x ∈ e.stops, x ≠ d) →
      let awaits (u : State) : State := { u with edit := { e with stops := e.stops.filter (· ≠ d) } }
      exec (.deckReplyReceived d ack t) s = .next ((awaits ((s.tick t).setPort d ended)).hand d) ∧
      (∀ why, exec (.deckReplyReceived d (nak why) t) s = .next ((awaits ((s.tick t).setPort d (refused why))).hand d)) ∧
      (late → exec (.replyTimeout d t) s = .next (awaits ((s.tick t).setPort d failed)))) ∧
    (∀ (k : DeckCmd) (gen loc : Nat), p.flight = some ⟨k, .servo gen loc⟩ → k.isSense = false →
      let c := s.chan d
      let own := c.gen = gen ∧ c.st ≠ .idle ∧ c.st ≠ .fault ∧ ((∃ n, k = .locate n) → c.loc = loc)
      let again (x : Channel) := late → exec (.replyTimeout d t) s = .next (((s.tick t).setPort d failed).setChan d x)
      (¬own → exec (.deckReplyReceived d ack t) s = .next (((s.tick t).setPort d ended).hand d) ∧
        (∀ why, exec (.deckReplyReceived d (nak why) t) s = .next (((s.tick t).setPort d (refused why)).hand d)) ∧
        (late → exec (.replyTimeout d t) s = .next ((s.tick t).setPort d failed))) ∧
      (own → (∃ n, k = .locate n) →
        exec (.deckReplyReceived d ack t) s = .next
          ((((s.tick t).setPort d ended).setChan d { c with acked := true }).hand d) ∧
        (c.st = .seek → again { c with relocate := true }) ∧ (c.st ≠ .seek → again c)) ∧
      (own → (∀ n, k ≠ .locate n) → exec (.deckReplyReceived d ack t) s = .next (((s.tick t).setPort d ended).hand d)) ∧
      (own → k = .play → again { c with replay := true }) ∧
      (∀ v, own → k = .varispeed v → again { c with speed := none }) ∧
      (∀ why, own → p.emerg = none → p.seqSlot = { first := none, second := none } →
        let faulted := { c with
          st := ChaseState.fault, fault := some ChaseFault.deckNak, speed := none, relocate := false, replay := false }
        (c.owner = some .link → ∃ u, exec (.deckReplyReceived d (nak why) t) s = .next u ∧ u.chan d = faulted ∧
          u.port d = stopping { refused why with servo := none } (.servo c.gen c.loc) ∧ ChaseTold s u d c.st .fault 1 ∧
          u.edit = e ∧ u.list = s.list ∧ ∀ x, x ≠ d → u.port x = s.port x ∧ u.chan x = s.chan x) ∧
        (c.owner = some .sequencer → e.phase.abortable = true → e.abort = none → s.recorder ∈ e.involved →
          ∃ u, exec (.deckReplyReceived d (nak why) t) s = .next u ∧ u.edit.abort = some .deckNak ∧
            u.edit.stops = e.involved ∧ (d ∉ e.sources → u.chan d = faulted ∧ ChaseTold s u d c.st .fault 1) ∧
            (d ∈ e.sources → (u.chan d).st = .idle ∧ ChaseTold s u d .fault .released 2) ∧
            (u.port d).nak = some (NakReason.ofByte why.toNat) ∧ u.list = s.list)))) ∧
  (∀ (s : State) (d : Deck) (g : Nat), s.asserted = false → 0 < s.due.chase[d.val] → s.safeStop = false →
    s.link.expired = false → ServoFirst (s.port d) →
    let c := s.chan d
    let x := s.sampleOf d s.due.chase[d.val]
    let seen := { c with cond := some x.cond, err := x.err.orElse fun _ => c.err, relocate := false, replay := false }
    let posts (k : DeckCmd) (new : Channel) := ∃ u, exec (.chaseSample d) s = .next u ∧ u.chan d = new ∧
      u.port d = servoPosted (s.port d) s.fmt k c.gen c.loc ∧
      (∀ y, y ≠ d → u.port y = s.port y ∧ u.chan y = s.chan y) ∧ u.edit = s.edit ∧ u.list = s.list
    (c.st = .seek → c.relocate = true → c.target = some g →
      ¬(c.acked = true ∧ (s.port d).fresh = true ∧ (s.port d).flag 6 = true) →
      x.cond = .noPosition ∨
        (x.cond = .atPlay ∧ c.kind = some .lead ∧ ∃ n, x.frame s.fmt = some n ∧ s.fmt.d n g < 1) ∨
        (x.cond = .stopped ∧ c.kind = some .follow ∧ ∃ n, x.frame s.fmt = some n ∧ (s.fmt.d n g).natAbs ≤ 25) →
      posts (.locate g) seen) ∧
    (c.st = .rolling → c.replay = true → c.owner = some .sequencer ∨ x.cond ≠ .stopped → s.atSpeed d = false →
      2 ≤ c.roll → posts .play { seen with
        roll := c.roll - 1, speed := if (s.port d).line = .idle then some 1000 else c.speed }))

/-- With the last STOP awaited of RELEASE ended, by an ACK, a NAK or a time-out, the edit ends: status and failure reason,
warnings and attempts are written to its event, the event is no longer active, its decks are free, EDIT_END is entered and
the context is IDLE (R124, R134). The status is DONE without an abort or with record off at the abort, FAILED with the cause
before record, INCOMPLETE with the cause while record was on (R130, R97). No run acts here. The layout of EDIT_END is of log
30, the engine's mark live of log 51; that the stage at the abort decides the status is of log 33. EDIT_PHASE is entered for
the move to IDLE too (R134); that it shows the context before the clearing is of log 57. -/
def Obligations.EndOfEditIsWritten : Prop :=
  ∀ (s : State) (d : Deck) (t : Time) (n : Nat) (ev : EventFields) (i : Instr), LastStop s d n ev → StopEnds s d t i →
    s.run.st ≠ .executing → s.run.st ≠ .pausing →
    let e := s.edit
    let ending := endingOf e
    ∃ u, exec i s = .next u ∧
      u.edit = Edit.idle ∧ u.list = written s n ∧ u.engine = { s.engine with live := false } ∧
      (∀ x ∈ e.involved, (u.port x).claim = .free) ∧ (∀ x, x ∉ e.involved → x ≠ d → u.port x = s.port x) ∧
      (u.port d).fails = (if i = .replyTimeout d t then (s.port d).fails + 1 else 0) ∧ u.run = s.run ∧
      u.chase = s.chase ∧ u.readers = s.readers ∧ u.gpi = s.gpi ∧ u.set = s.set ∧
      ∀ m, e.mode = some m →
        Told s u .editEnd 0 (vCat [[.u 2 n, .u 1 m.code, .u 1 ending.1.code, vReason ending.2, .u 1 e.warns.code,
          .u 1 ((((written s n).get n).map Event.attempts).getD 0)], vCause e.abort, vOptLab e.onFrame, vOptLab e.offFrame]) 1 ∧
        Told s u .editPhase 0 (phaseContent s e n m .idle .release) 1

/-- The frame start at which a phase's deadline runs out aborts the edit with the phase's reason: every involved deck's STOP
is awaited, the GPI schedule is emptied, and with no record standing the phase is RELEASE (R116, R118, R122, R129). Each
abort clears the sequencer's channels of the sources with RELEASED, withdraws an ARMED plan and sends a RUNNING plan of the
sequencer to HELD (R93, R129, R154). The deadline of EDITING can run out with record standing. The silence timer expires
when its limit has passed: with record standing the edit is aborted with SILENCE and SILENCE_STOP entered, with none
standing, or in a safe stop, nothing else happens. Where the expiry comes first, the hand of RECORD_ON brings the silence
stop, once for the expiry, at the record-on point too (R180, R133). With record standing the recorder's item is RECORD_OFF
and STOP: the phase stays EDITING while RECORD_OFF waits for the line, and is RELEASE once it is handed (R62, R129); that
its hand sets the stage OFF_HANDED and the hand frame is of log 33, the absent frame of log 58. The deadline rows are frame
starts of the sequencer (log 7). What CHASE_STATE shows of a cleared channel is of log 64; that a withdrawn plan stays in
the record of log 36; the layouts are of log 30. -/
def Obligations.DeadlinesAndSilenceAbortTheEdit : Prop :=
  (∀ (s : State) (n : Nat) (ev : EventFields) (m : EditMode) (c : Instr) (why : Reason), s.asserted = false →
    0 < s.due.seq → s.safeStop = false → s.edit.active = some (n, ev) → s.edit.mode = some m → s.edit.abort = none →
    s.edit.deadline = 1 → s.edit.replay = false → (s.port s.recorder).standing = false →
    let off := s.fmt.addFrames ev.recOut (-(s.edit.offDelay : Int))
    (c = .cueTimeout ∧ why = .cueTimeout ∧ s.edit.phase = .cueing ∧ (∀ d : Deck, s.edit.relocate[d.val] = false) ∧
        (∃ d ∈ s.edit.involved, s.edit.cued[d.val] = false ∧ s.edit.acked[d.val] = false) ∨
      c = .rollTimeout ∧ why = .rollTimeout ∧ s.edit.phase = .rolling ∧ s.recFrame (s.startInstant s.due.seq) = none ∨
      c = .outTimeout ∧ why = .outTimeout ∧ s.edit.phase = .editing ∧
        ∀ x, s.recFrame (s.startInstant s.due.seq) = some x → s.fmt.d x off < 0 ∨ (m = .perform ∧ s.edit.offPosted = true)) →
    ∃ u, exec c s = .next u ∧ u.edit.abort = some why ∧ u.edit.phase = .release ∧ u.edit.stops = s.edit.involved ∧
      u.edit.abortStage = s.edit.stage ∧ u.gpi = { s.gpi with sched := [] } ∧ AbortTold s u ∧ u.list = s.list ∧
      u.readers = s.readers ∧ u.set = s.set) ∧
  (∀ (s : State) (n : Nat) (ev : EventFields) (m : EditMode), s.asserted = false → 0 < s.due.seq → Recording s →
    s.edit.active = some (n, ev) → s.edit.mode = some m → s.edit.deadline = 1 →
    (∀ x, s.recFrame (s.startInstant s.due.seq) = some x →
      s.fmt.d x (s.fmt.addFrames ev.recOut (-(s.edit.offDelay : Int))) < 0 ∨ (m = .perform ∧ s.edit.offPosted = true)) →
    ∃ u, exec .outTimeout s = .next u ∧ RecordStopped s u .outTimeout ∧ u.gpi = { s.gpi with sched := [] } ∧
      AbortTold s u ∧ u.list = s.list ∧ u.readers = s.readers ∧ u.set = s.set) ∧
  (∀ (s : State) (t : Time), s.asserted = false → s.link.expired = false → s.link.restartAt + ms s.link.limit ≤ t →
    ((s.port s.recorder).standing = false ∨ s.safeStop = true → exec (.silenceTimeout t) s = .next
      { s with now := max s.now t, link := { s.link with expired := true } }) ∧
    ((s.port s.recorder).standing = true → s.link.stopTaken = false → s.safeStop = false →
      ¬(s.edit.phase.abortable = true ∧ s.edit.abort = none) →
      ∃ u, exec (.silenceTimeout t) s = .next u ∧ SilenceStopped s u ∧ u.edit = s.edit ∧ u.ports = s.ports) ∧
    ((s.port s.recorder).standing = true → s.link.stopTaken = false → s.safeStop = false → s.edit.phase.abortable = true →
      s.edit.abort = none →
      ∃ u, exec (.silenceTimeout t) s = .next u ∧ u.edit.abort = some .silence ∧ u.edit.stops = s.edit.involved ∧
        SilenceStopped s u ∧ u.list = s.list ∧ AbortTold s u) ∧
    (Recording s → s.link.stopTaken = false →
      ∃ u, exec (.silenceTimeout t) s = .next u ∧ RecordStopped s u .silence ∧
        SilenceStopped s u ∧ u.list = s.list ∧ AbortTold s u)) ∧
  (∀ (s : State) (d : Deck), s.link.expired = true → s.link.stopTaken = false → s.safeStop = false →
    let v := ({ s with link := { s.link with expired := false } } : State).hand d
    ((v.port s.recorder).standing = false → s.hand d = { v with link := { v.link with expired := true } }) ∧
    ((v.port s.recorder).standing = true → ¬(v.edit.phase.abortable = true ∧ v.edit.abort = none) →
      SilenceStopped v (s.hand d) ∧ (s.hand d).edit = v.edit ∧ (s.hand d).ports = v.ports) ∧
    (Recording v → SilenceStopped v (s.hand d) ∧ RecordStopped v (s.hand d) .silence ∧ AbortTold v (s.hand d) ∧
      (s.hand d).list = s.list)) ∧
  (∀ (s : State) (n x : Nat) (ev : EventFields), s.asserted = false → 0 < s.due.seq → s.link.expired = true →
    s.link.stopTaken = false → s.safeStop = false →
    let e := s.edit
    let p := s.port s.recorder
    e.active = some (n, ev) → e.mode = some .perform → e.abort = none → e.phase = .rolling → e.syncPassed = true →
    s.recorder ∈ e.involved → s.recFrame (s.startInstant s.due.seq) = some x →
    0 ≤ s.fmt.d x (s.fmt.addFrames ev.recIn (-(e.onDelay : Int))) →
    s.fmt.d x ev.recIn < 0 ∨ (e.onDelay = 0 ∧ s.fmt.d x ev.recIn = 0) →
    (∀ d, (s.port d).emerg = none ∧ (s.port d).standing = false) → p.presence ≠ .disabled →
    p.seqSlot = { first := none, second := none } →
    let on := { p with
      line := .sending, flight := some ⟨.recordOn ev.tracks ev.kind, .sequencer⟩
      tx := (DeckCmd.recordOn ev.tracks ev.kind).frame s.fmt, fresh := false, standing := true }
    p.line = .idle → ∃ u, exec .sequencerFrameStart s = .next u ∧ SilenceStopped s u ∧
      u.port s.recorder = itemWaits on true false ∧ u.edit = { e with
        phase := .editing, stage := .onHanded, onFrame := s.recNow, replay := false, abort := some .silence
        abortStage := .onHanded, stops := e.involved, deadline := s.fmt.span ev.recIn ev.recOut + 25 } ∧
      AbortTold s u ∧ u.gpi = { s.gpi with sched := [] } ∧ u.list = s.list)

/-- ABORT: the edit in CUEING, ROLLING, EDITING or POSTROLL is aborted with the slots of its decks emptied; in RELEASE, or
with an abort taken, it changes nothing; with the sequencer IDLE it is refused (R131, R129). The abort of ABORT and of
ALL_STOP clears the sequencer's channels of the sources with RELEASED, withdraws an ARMED plan, sends a RUNNING plan of the
sequencer to HELD as it stands, and clears the engine's preview flag (R93, R129, R154). ALL_STOP is answered OK; every chase
of the link ends and its slave is free, every PRESENT deck gets an EMERGENCY STOP with its lower slots emptied, and an
active run ends, with RUN_STATE (R147). During an edit ALL_STOP aborts it with ALL_STOP, and on an involved deck its STOP
joins the item the abort has posted: one STOP, that the sequencer awaits. With the sequencer IDLE, in RELEASE or with an
abort taken before, also in EDITING with RECORD_OFF still waiting, it leaves the edit as it is, and an item that waits stays
as it is (R132, R146, R62). Each PASS command that a posting removes is answered ABORTED (R62, R70). With record standing in
EDITING the recorder's item, of ABORT or ALL_STOP, is RECORD_OFF then STOP, handed at once on an IDLE line: the phase stays
EDITING while RECORD_OFF waits, and is RELEASE from its hand on; every other involved deck gets STOP alone (R62, R129). That
this hand sets the stage OFF_HANDED and the hand frame is of log 33, the absent frame of log 58. The order of the replies is
of log 35 and, among the decks, of log 55; what CHASE_STATE shows of a cleared channel is of log 64, its serial numbers of
log 16; that a withdrawn plan stays in the record of log 36, that an ended run has no hold reason of log 37; the layouts are
of log 30. -/
def Obligations.AbortAndAllStop : Prop :=
  (∀ (s : State) (r : Request), Takes s 0x2A r →
    (s.edit.phase = .idle → exec .abortEdit s = .next (answered s r .wrongState [])) ∧
    (s.edit.phase.abortable = true → s.edit.abort = none → s.safeStop = false → s.recorder ∈ s.edit.involved →
      ∃ u, exec .abortEdit s = .next u ∧ u.edit.abort = some .aborted ∧ u.edit.stops = s.edit.involved ∧
        u.edit.abortStage = s.edit.stage ∧ u.gpi = { s.gpi with sched := [] } ∧
        (∀ d ∈ s.edit.involved, (u.port d).seqSlot = { first := none, second := none } ∧ (u.port d).servo = none ∧
          (u.port d).pass = none) ∧
        (answered s r .ok []).link.replies <+: u.link.replies ∧ (s.edit.involved.Nodup →
          u.link.replies = (answered s r .ok []).link.replies ++ passAborted s s.edit.involved) ∧
        u.list = s.list ∧ AbortTold s u ∧
        ∀ d, d ∉ s.edit.involved → d ∉ s.edit.sources → u.chan d = s.chan d) ∧
    (Recording s → ∃ u, exec .abortEdit s = .next u ∧ RecordStopped s u .aborted ∧ u.gpi = { s.gpi with sched := [] } ∧
      AbortTold s u ∧
      (s.edit.involved.Nodup → ∀ d ∈ s.edit.involved, d ≠ s.recorder → u.port d = itemPosted (s.port d) true false) ∧
      ∀ d, d ∉ s.edit.involved → d ∉ s.edit.sources → u.port d = s.port d) ∧
    (s.edit.phase = .release ∨ (s.edit.phase ≠ .idle ∧ s.edit.abort.isSome = true) →
      exec .abortEdit s = .next (answered s r .ok []))) ∧
  (∀ (s : State) (r : Request), Takes s 0x2B r → s.edit.phase.abortable = true → s.edit.abort = none →
    s.safeStop = false → s.recorder ∈ s.edit.involved → s.edit.involved.Nodup →
    ∃ u, exec .allStop s = .next u ∧
      u.link.replies = (answered s r .ok []).link.replies ++ passAborted s (s.edit.involved ++ decks.filter fun d =>
        (s.port d).presence == .present && !s.edit.involved.contains d) ∧
      u.edit.abort = some .allStop ∧ u.edit.stops = s.edit.involved ∧ u.edit.abortStage = s.edit.stage ∧
      u.gpi = { s.gpi with sched := [] } ∧
      (∀ d, (s.chan d).owner = some .link → (s.chan d).st ≠ .idle → (u.port d).claim = .free ∧
        u.chan d = Channel.idle s.set.lead ((s.chan d).gen + 1) (s.chan d).loc ∧ ChaseTold s u d (s.chan d).st .cleared 1) ∧
      (∀ d, d ∈ s.edit.involved ∨ (s.port d).presence = .present →
        (u.port d).seqSlot = { first := none, second := none } ∧ (u.port d).servo = none ∧ (u.port d).pass = none ∧
        ((s.port d).line ≠ .idle → (u.port d).emerg.isSome = true)) ∧
      (∀ d ∈ s.edit.involved, (s.port d).line = .idle → (s.port d).emerg = none → (s.port d).standing = false →
        (u.port d).flight = some ⟨.stop, .emergencyStop true false⟩ ∧ (u.port d).emerg = none) ∧
      (s.run.active = true → u.run = { s.run with st := .ended, hold := none } ∧ RunTold s u u.run s.run.st .allStop 1) ∧
      (s.run.active = false → u.run = s.run) ∧
      u.list = s.list ∧ u.readers = s.readers ∧ AbortTold s u) ∧
  (∀ (s : State) (r : Request), Takes s 0x2B r → Recording s → (s.chan s.recorder).owner ≠ some .link →
    ∃ u, exec .allStop s = .next u ∧ RecordStopped s u .allStop ∧ AbortTold s u) ∧
  (∀ (s : State) (r : Request), Takes s 0x2B r →
    s.edit.phase = .idle ∨ s.edit.phase = .release ∨ s.edit.abort.isSome = true →
    (s.edit.phase = .editing → ∀ d, (s.port d).line = .idle → (s.port d).standing = false ∧ (s.port d).emerg = none) →
    let present (d : Deck) := (s.port d).presence = .present
    let claim (d : Deck) := if (s.chan d).owner = some .link then Claim.free else (s.port d).claim
    ∃ u, exec .allStop s = .next u ∧
      u.link.replies = (answered s r .ok []).link.replies ++ passAborted s (decks.filter fun d => present d) ∧
      (∀ d, present d → (s.edit.phase = .release →
          (s.port d).seqSlot.first ≠ some .stop ∧ (s.port d).seqSlot.second ≠ some .stop) →
        ((s.port d).emerg = none → u.port d = { itemPosted (s.port d) false false with claim := claim d }) ∧
        ∀ i, (s.port d).emerg = some i → (s.port d).line ≠ .idle → u.port d = { s.port d with
          seqSlot := { first := none, second := none }, servo := none, pass := none, claim := claim d }) ∧
      (∀ d, ¬present d → (s.chan d).owner ≠ some .link → u.port d = s.port d) ∧
      (∀ d, (s.chan d).owner = some .link → (s.chan d).st ≠ .idle → (u.port d).claim = .free ∧
        u.chan d = Channel.idle s.set.lead ((s.chan d).gen + 1) (s.chan d).loc ∧ ChaseTold s u d (s.chan d).st .cleared 1) ∧
      (∀ d, (s.port d).presence = .present →
        (u.port d).seqSlot = { first := none, second := none } ∧ (u.port d).servo = none ∧ (u.port d).pass = none ∧
        ((s.port d).line ≠ .idle → (u.port d).emerg.isSome = true)) ∧
      (s.run.active = true → u.run = { s.run with st := .ended, hold := none } ∧ RunTold s u u.run s.run.st .allStop 1) ∧
      (s.run.active = false → u.run = s.run) ∧
      u.list = s.list ∧ u.edit = s.edit ∧ u.engine = s.engine ∧ u.gpi = s.gpi ∧ u.readers = s.readers)

/-! ## List runs (chapter 8) -/

/-- START_RUN starts the first eligible event of the range in the run's direction, and CONTINUE of a held run activates its
current event again, in every mode (R139, R140, R143): with the decks passing CLAIM the edit is CUEING; with a check of
CLAIM failing the event is FAILED and the run HELD with EVENT_FAILED (R113, R141). RUN_STATE is entered with STARTED or
CONTINUED, and again with EVENT_FAILED (R147, in the layout of log 30, in the order of log 52). The search finds the first
event in the run's direction, from the start of the range or beyond a number, that is PENDING, FAILED or INCOMPLETE, or DONE
with the policy ALL; SKIPPED is never eligible (R138). START_RUN is refused in the order of R140: WRONG_STATE in an edit or
with a run active, NO_EVENT for the range, WRONG_STATE for a loop outside PREVIEW, NO_REFERENCE in PERFORM without LOCKED,
NO_EVENT with no event eligible. CONTINUE is refused with WRONG_STATE unless HELD, NO_EVENT with its event absent,
NO_REFERENCE in PERFORM without LOCKED (R143). That a malformed direction, mode or policy is refused first is of log 23.
What EDIT_PHASE of the failed edit shows is of log 57, that it touches no deck or chase of log 32. -/
def Obligations.RunStartsItsEvent : Prop :=
  (∀ (x : Run) (events : List (Nat × Event)) (c : Option Nat), NumbersOk (events.map Prod.fst) →
    let eligible (n : Nat) := ∃ e, (n, e) ∈ events ∧ (∃ a b, x.first = some a ∧ x.last = some b ∧ a ≤ n ∧ n ≤ b) ∧
      (e.status = .pending ∨ e.status = .failed ∨ e.status = .incomplete ∨ (e.status = .done ∧ x.policy = .all)) ∧
      ∀ k, c = some k → if x.dir = .forward then k < n else n < k
    (∀ n, x.search events c = some n ↔
      eligible n ∧ ∀ m, eligible m → if x.dir = .forward then n ≤ m else m ≤ n) ∧
    (x.search events c = none ↔ ∀ n, ¬eligible n)) ∧
  (∀ (s : State) (r : Request) (c : Instr) (x : Run) (n : Nat) (e : Event) (m : EditMode) (why : RunReason) (count : Nat),
    (c = .startRun ∧ Takes s 0x30 r ∧ s.run.active = false ∧ why = .started ∧ count = 1 ∧
        1 ≤ natAt r.params 0 2 ∧ natAt r.params 0 2 ≤ natAt r.params 2 2 ∧ natAt r.params 2 2 ≤ 999 ∧
        (∃ dir policy, Direction.ofCode (byteN r.params 4) = some dir ∧ RunPolicy.ofCode (byteN r.params 7) = some policy ∧
          EditMode.ofCode (byteN r.params 5) = some m ∧ x = { Run.initial with
            first := some (natAt r.params 0 2), last := some (natAt r.params 2 2), dir := dir, mode := some m
            loop := byteN r.params 6 != 0, policy := policy }) ∧ (x.loop = true → m = .preview) ∧
        x.search s.list.events none = some n ∨
      c = .continueRun ∧ Takes s 0x31 r ∧ s.run.st = .held ∧ s.run.mode = some m ∧ s.run.current = some n ∧ x = s.run ∧
        why = .continued ∧ count = min 65535 (s.run.started + 1)) →
    s.edit.phase = .idle → s.list.get n = some e → (m = .perform → s.ref.st = .locked) →
    let started := { x with st := RunState.executing, hold := none, current := some n, started := count }
    let held := { started with st := .held, hold := some .eventFailed }
    (s.claimCheck e.fields m = none → s.link.expired = false → ∃ u, exec c s = .next u ∧
      u.run = started ∧ RunTold s u started s.run.st why 1 ∧ u.list = { s.list with active := some n } ∧
      u.edit.phase = .cueing ∧ u.edit.active = some (n, e.fields) ∧ PhaseTold s u n m .cueing .claim 2 ∧
      u.edit.mode = some m ∧ u.edit.involved = involvedDecks s.recorder e.fields m ∧
      u.link.replies = (answered s r .ok [.u 2 n]).link.replies ∧ u.engine = s.engine) ∧
    (∀ fail, s.claimCheck e.fields m = some fail → ∃ u, exec c s = .next u ∧
      u.run = held ∧ RunTold s u held .executing .eventFailed 2 ∧
      ClaimFailTold s u n m fail (min 255 (e.attempts + 1)) 0 0 ∧ u.edit = Edit.idle ∧
      u.ports = s.ports ∧ u.chase = s.chase ∧ u.list = { s.list with
        active := none
        events := s.list.events.map fun y => if y.1 = n then (n, { y.2 with
          status := .failed, failure := some fail, warns := { Warnings.empty with ref := s.ref.st != RefState.locked }
          attempts := min 255 (y.2.attempts + 1) }) else y } ∧
      u.link.replies = (answered s r .ok [.u 2 n]).link.replies)) ∧
  (∀ (s : State) (r : Request), Takes s 0x30 r →
    let b (i : Nat) := byteN r.params i
    let first := natAt r.params 0 2
    let last := natAt r.params 2 2
    let refused (x : Result) := exec .startRun s = .next (answered s r x [])
    (1 < b 4 ∨ 2 < b 5 ∨ 1 < b 7 → refused .unknownRequest) ∧
    (∀ dir m policy, Direction.ofCode (b 4) = some dir → EditMode.ofCode (b 5) = some m → RunPolicy.ofCode (b 7) = some policy →
      let x : Run := { Run.initial with
        first := some first, last := some last, dir := dir, mode := some m, loop := b 6 != 0, policy := policy }
      let quiet := s.edit.phase = .idle ∧ s.run.active = false
      let range := 1 ≤ first ∧ first ≤ last ∧ last ≤ 999
      let loops := b 6 ≠ 0 → m = .preview
      let referred := m = .perform → s.ref.st = .locked
      (¬quiet → refused .wrongState) ∧ (quiet → ¬range → refused .noEvent) ∧
      (quiet → range → ¬loops → refused .wrongState) ∧ (quiet → range → loops → ¬referred → refused .noReference) ∧
      (quiet → range → loops → referred → x.search s.list.events none = none → refused .noEvent))) ∧
  (∀ (s : State) (r : Request), Takes s 0x31 r →
    let refused (x : Result) := exec .continueRun s = .next (answered s r x [])
    let absent := ∀ n, s.run.current = some n → s.list.get n = none
    (s.run.st ≠ .held → refused .wrongState) ∧ (s.run.st = .held → absent → refused .noEvent) ∧
    (s.run.st = .held → ¬absent → s.run.mode = some .perform → s.ref.st ≠ .locked → refused .noReference))

/-- SKIP marks the held event SKIPPED, keeping its warnings and attempts, where it is present, and advances from its number:
with no event left and no loop, or none in the whole range, the run ends with LIST_END; it goes on to the next eligible
event, or with a loop to the first again, raising the wraps: that event's edit is started, or fails in CLAIM and the run is
HELD with EVENT_FAILED, or the run is HELD at it with NO_REFERENCE in PERFORM without LOCKED (R144, R142, R139). SKIP is
refused unless HELD (R144). STOP_RUN ends an active run and leaves its edit alone; with no active run it is refused (R146).
PAUSE_RUN by the cursor's state: EXECUTING becomes PAUSING, PAUSING stays, HELD becomes IDLE with the hold reason cleared,
and IDLE and ENDED are refused. The run keeps its other fields (R145). Each change enters RUN_STATE with its reason, an edit
that fails in CLAIM NEXT or WRAP and then EVENT_FAILED (R147); its layout is of log 30, the order of log 52. That a run
which ends with LIST_END has no hold reason is of log 37; what EDIT_PHASE of the failed edit shows of log 57, that it
touches no deck of log 32. -/
def Obligations.SkipStopAndPauseRun : Prop :=
  (∀ (s : State) (r : Request), Takes s 0x32 r →
    let x := s.run
    let events := s.list.events.map fun y =>
      if x.current = some y.1 then (y.1, { y.2 with status := .skipped, failure := none }) else y
    let ended := { x with st := .ended, hold := none }
    let skips (P : State → Prop) := ∃ u, exec .skipEvent s = .next u ∧
      u.link.replies = (answered s r .ok []).link.replies ∧ P u
    (x.st ≠ .held → exec .skipEvent s = .next (answered s r .wrongState [])) ∧
    (x.st = .held → x.search events x.current = none → x.loop = false ∨ x.search events none = none →
      exec .skipEvent s = .next (({ answered s r .ok [] with list := { s.list with events := events }, run := ended } :
        State).enter .runState 0 (ended.noticeContent .held .listEnd))) ∧
    (∀ (k : Nat) (y : Run) (m : EditMode) (z : Event) (why : RunReason), x.st = .held → s.edit.phase = .idle →
      (x.search events x.current = some k ∧ y = x ∧ why = .next ∨
        x.search events x.current = none ∧ x.loop = true ∧ x.search events none = some k ∧
          y = { x with wraps := min 65535 (x.wraps + 1) } ∧ why = .wrap) →
      x.mode = some m → (k, z) ∈ events → NumbersOk (numbers s.list) →
      let started := { y with
        st := RunState.executing, hold := none, current := some k, started := min 65535 (x.started + 1) }
      let held := { y with st := RunState.held, hold := some .noReference, current := some k }
      let failed := { started with st := .held, hold := some .eventFailed }
      (m = .perform → s.ref.st ≠ .locked → exec .skipEvent s = .next (({ answered s r .ok [] with
        list := { s.list with events := events }, run := held } : State).enter .runState 0
          (held.noticeContent .held .noReference))) ∧
      ((m = .perform → s.ref.st = .locked) → s.claimCheck z.fields m = none → s.link.expired = false → skips fun u =>
        u.run = started ∧ u.list = { s.list with events := events, active := some k } ∧ u.edit.phase = .cueing ∧
        u.edit.active = some (k, z.fields) ∧ u.edit.mode = some m ∧
        u.edit.involved = involvedDecks s.recorder z.fields m ∧ RunTold s u started .held why 1 ∧
        PhaseTold s u k m .cueing .claim 2) ∧
      (∀ fail, (m = .perform → s.ref.st = .locked) → s.claimCheck z.fields m = some fail → skips fun u =>
        u.run = failed ∧ RunTold s u failed .executing .eventFailed 2 ∧
        ClaimFailTold s u k m fail (min 255 (z.attempts + 1)) 0 0 ∧ u.edit = Edit.idle ∧ u.ports = s.ports ∧ u.list = { s.list with
          active := none
          events := events.map fun w => if w.1 = k then (k, { w.2 with
            status := .failed, failure := some fail, warns := { Warnings.empty with ref := s.ref.st != RefState.locked }
            attempts := min 255 (w.2.attempts + 1) }) else w }))) ∧
  (∀ (s : State) (r : Request), Takes s 0x34 r →
    let ended := { s.run with st := .ended, hold := none }
    (s.run.st = .executing ∨ s.run.st = .held ∨ s.run.st = .pausing → exec .stopRun s = .next
      (({ answered s r .ok [] with run := ended } : State).enter .runState 0 (ended.noticeContent s.run.st .stopped))) ∧
    (s.run.st = .idle ∨ s.run.st = .ended → exec .stopRun s = .next (answered s r .wrongState []))) ∧
  (∀ (s : State) (r : Request), Takes s 0x33 r →
    let pausing := { s.run with st := .pausing }
    let idle := { s.run with st := .idle, hold := none }
    (s.run.st = .executing → exec .pauseRun s = .next (({ answered s r .ok [] with run := pausing } : State).enter .runState 0
      (pausing.noticeContent .executing .pauseRequested))) ∧
    (s.run.st = .pausing → exec .pauseRun s = .next (answered s r .ok [])) ∧
    (s.run.st = .held → exec .pauseRun s = .next (({ answered s r .ok [] with run := idle } : State).enter .runState 0
      (idle.noticeContent .held .paused))) ∧
    (s.run.st = .idle ∨ s.run.st = .ended → exec .pauseRun s = .next (answered s r .wrongState [])))

/-- The run acts on the status its edit wrote (R141). FAILED and INCOMPLETE hold it; PAUSING goes to IDLE. After DONE it
advances to the next eligible event of its range, or with a loop to the first again, raising the wraps (R142): that event's
edit is started, an edit that fails in CLAIM holds the run, and a run in PERFORM without a LOCKED reference is held with
NO_REFERENCE at that event (R139). With no event left the run ends. Each of these enters RUN_STATE with its reason,
EVENT_FAILED, EVENT_INCOMPLETE, PAUSED, NO_REFERENCE, NEXT, WRAP or LIST_END, and an edit that fails in CLAIM enters NEXT or
WRAP and then EVENT_FAILED (R147; the layout is of log 30). Started and wraps saturate at two bytes. The cursor moves before
the edit starts (log 52). That a run which ends has no hold reason is of log 37; that the stage at the abort decides the
status, of log 33; what EDIT_PHASE of a failed edit shows, of log 57. -/
def Obligations.RunActsOnTheWrittenStatus : Prop :=
  ∀ (s : State) (d : Deck) (t : Time) (n : Nat) (ev : EventFields) (i : Instr), LastStop s d n ev → StopEnds s d t i →
    let x := s.run
    let status := (endingOf s.edit).1
    let events := (written s n).events
    let runs (P : State → Prop) := ∃ u, exec i s = .next u ∧ P u
    let rests (y : Run) (why : RunReason) (u : State) :=
      u.run = y ∧ u.edit = Edit.idle ∧ u.list = written s n ∧ RunTold s u y x.st why 1
    (x.st = .executing ∨ x.st = .pausing →
      (status = .failed → runs (rests { x with st := .held, hold := some .eventFailed } .eventFailed)) ∧
      (status = .incomplete → runs (rests { x with st := .held, hold := some .eventIncomplete } .eventIncomplete))) ∧
    (x.st = .pausing → status = .done → runs (rests { x with st := .idle } .paused)) ∧
    (x.st = .executing → status = .done → x.search events x.current = none →
      x.loop = false ∨ x.search events none = none → runs (rests { x with st := .ended, hold := none } .listEnd)) ∧
    (∀ (k : Nat) (y : Run) (m : EditMode) (z : Event) (why : RunReason), x.st = .executing → status = .done →
      (x.search events x.current = some k ∧ y = x ∧ why = .next ∨
        x.search events x.current = none ∧ x.loop = true ∧ x.search events none = some k ∧
          y = { x with wraps := min 65535 (x.wraps + 1) } ∧ why = .wrap) →
      x.mode = some m → (written s n).get k = some z →
      let started := { y with
        st := RunState.executing, hold := none, current := some k, started := min 65535 (x.started + 1) }
      (m = .perform → s.ref.st ≠ .locked →
        runs (rests { y with st := .held, hold := some .noReference, current := some k } .noReference)) ∧
      ((m = .perform → s.ref.st = .locked) → s.claimCheck z.fields m = none → runs fun u => u.run = started ∧
        RunTold s u started .executing why 1 ∧ PhaseTold s u k m .cueing .claim 3 ∧
        u.list = { written s n with active := some k } ∧ u.edit.phase = .cueing ∧
        u.edit.active = some (k, z.fields) ∧
        u.edit.mode = some m ∧ u.edit.involved = involvedDecks s.recorder z.fields m) ∧
      (∀ fail, (m = .perform → s.ref.st = .locked) → s.claimCheck z.fields m = some fail → runs fun u =>
        let held := { started with st := .held, hold := some .eventFailed }
        u.run = held ∧ RunTold s u held .executing .eventFailed 2 ∧
        ClaimFailTold s u k m fail (min 255 (z.attempts + 1)) 1 1 ∧ u.edit = Edit.idle ∧
        u.list.events = events.map fun w => if w.1 = k then (k, { w.2 with
          status := .failed, failure := some fail, warns := { Warnings.empty with ref := s.ref.st != RefState.locked }
          attempts := min 255 (w.2.attempts + 1) }) else w))

/-! ## Transition engine and mixer line (chapter 9) -/

/-- The levels of field k, each rounded once, halves up: M_k = 1023 k / 2D of the LINEAR curve, 1023 k² (6D − 2k) / 8D³ of the S
curve, and M0 + (1023 − M0) k / 2D of a take (R153, R15). Both curves and the take never decrease from field to field and
reach 1023 at k = 2D; M_k and M_(2D-k) of the S curve sum to 1023 unless both quotients fall on a half (R153). -/
def Obligations.CurvesRiseToFullLevel : Prop :=
  ∀ d : Nat, 1 ≤ d →
    (∀ k, k ≤ 2 * d → curveLevel .linear d k = (1023 * k + d) / (2 * d) ∧
      curveLevel .s d k = (1023 * k ^ 2 * (6 * d - 2 * k) + 4 * d ^ 3) / (8 * d ^ 3) ∧
      ∀ m, takeLevel m d k = m + ((1023 - m) * k + d) / (2 * d)) ∧
    (∀ c : Curve, curveLevel c d (2 * d) = 1023 ∧ ∀ k, k < 2 * d → curveLevel c d k ≤ curveLevel c d (k + 1)) ∧
    (∀ m, m ≤ 1023 → takeLevel m d (2 * d) = 1023 ∧ takeLevel m d 0 = m ∧
      ∀ k, k < 2 * d → takeLevel m d k ≤ takeLevel m d (k + 1)) ∧
    ∀ k, k ≤ 2 * d → 2 * (1023 * k ^ 2 * (6 * d - 2 * k)) % (2 * (8 * d ^ 3)) ≠ 8 * d ^ 3 →
      curveLevel .s d k + curveLevel .s d (2 * d - k) = 1023

/-- A field start at the engine. RUNNING raises the field index and takes the level of its run form; the field after the
last makes the curve swap and the state IDLE (R152, R153, R155). The plan start test of ARMED, at a field 1 start, waits
before the start frame or without a recorder position, and in field 2; at or past the start frame a MIX or WIPE starts with
field 1 of its curve, a CUT makes its swap at once and is IDLE, and a NONE plan does nothing (R151, R152). Past the start
frame the cause is LATE_START, and TRANSITION_LATE is reported to the edit while the engine's reports are taken (R126, R154,
R184). In IDLE a pending cut makes its swap (R155); HELD and MANUAL do nothing. That a starting CUT enters START or
LATE_START first and then SWAP, with the contents given, is of log 24; the engine's mark live is of log 51. The field starts
owed and their frames are of log 5, the first of them as the next field start of a pending cut of log 63, the layout of the
entries of log 30. -/
def Obligations.EngineTakesAFieldStart : Prop :=
  (∀ (s : State) (x : FieldStart) (xs : List FieldStart) (d : Nat), s.asserted = false → s.due.engine = x :: xs →
    s.engine.st = .running →
    let e := s.engine
    let u : State := { s with due := { s.due with engine := xs } }
    let swapped := { e with st := .idle, xa := e.xb, xb := .black, level := 0, form := .curve, k := 0 }
    (∀ p, e.form = .curve → e.plan = some p → p.dur = d → e.k + 1 ≤ 2 * d → exec .transitionFieldStart s = .next
      { u with engine := { e with k := e.k + 1, level := curveLevel p.curve d (e.k + 1) } }) ∧
    (∀ m, e.form = .take m d → e.k + 1 ≤ 2 * d → exec .transitionFieldStart s = .next
      { u with engine := { e with k := e.k + 1, level := takeLevel m d (e.k + 1) } }) ∧
    ((∃ m, e.form = .take m d) ∨ (∃ p, e.form = .curve ∧ e.plan = some p ∧ p.dur = d) → 2 * d < e.k + 1 →
      exec .transitionFieldStart s = .next (({ u with engine := swapped } : State).enter .transitionState 0
        (swapped.noticeContent .running (.swap .curve))))) ∧
  (∀ (s : State) (x : FieldStart) (xs : List FieldStart) (p : Plan) (n : Nat), s.asserted = false →
    s.due.engine = x :: xs → s.engine.st = .armed → s.engine.plan = some p → p.start = some n →
    let u : State := { s with due := { s.due with engine := xs } }
    let f := s.recFrame (x.frame * s.fmt.lpf)
    let e := { s.engine with st := .running, k := 1, level := curveLevel p.curve p.dur 1 }
    let cut := { s.engine with
      st := .idle, xa := s.engine.xb, xb := .black, level := 0, form := .curve, k := 0, cutMark := true }
    (x.field2 = true ∨ f = none ∨ (∃ y, f = some y ∧ s.fmt.d y n < 0) ∨ p.type = .none →
      exec .transitionFieldStart s = .next u) ∧
    (∀ y, x.field2 = false → f = some y → 0 ≤ s.fmt.d y n →
      let cause : TransCause := if s.fmt.d y n = 0 then .start else .lateStart
      let told : State := if 0 < s.fmt.d y n ∧ s.engine.live = true ∧ s.edit.running = true ∧ s.safeStop = false then
          { u with edit := { s.edit with warns := { s.edit.warns with transLate := true } } }
        else u
      (p.type = .mix ∨ p.type = .wipe → exec .transitionFieldStart s = .next
        (({ told with engine := e } : State).enter .transitionState 0 (e.noticeContent .armed cause))) ∧
      (p.type = .cut → exec .transitionFieldStart s = .next
        ((({ told with engine := cut } : State).enter .transitionState 0 (cut.noticeContent .armed cause)).enter
          .transitionState 0 (cut.noticeContent .idle (.swap .cut)))))) ∧
  (∀ (s : State) (x : FieldStart) (xs : List FieldStart), s.asserted = false → s.due.engine = x :: xs →
    let e := s.engine
    let u : State := { s with due := { s.due with engine := xs } }
    let cut := { e with xa := e.xb, xb := .black, level := 0, form := .curve, k := 0, cutMark := true, pendCut := false }
    (e.st = .idle → e.pendCut = true → exec .transitionFieldStart s = .next
      (({ u with engine := cut } : State).enter .transitionState 0 (cut.noticeContent .idle (.swap .cut)))) ∧
    (e.st = .idle ∧ e.pendCut = false ∨ e.st = .held ∨ e.st = .manual → exec .transitionFieldStart s = .next u))

/-- A field start opens the field's record and drops one not yet assembled; a frame start makes the pending offset current
(R161, R162). At its send line the open record is assembled from the crosspoints, the level and the effect, or as a CUT
where the cut mark is set, and the mark is cleared (R161, R191). At or past the line: log 11. The field starts owed are of
log 5; that the first of them makes a pending offset current is of log 63. -/
def Obligations.MixerOpensAndSendsRecords : Prop :=
  (∀ (s : State) (x : FieldStart) (xs : List FieldStart), s.asserted = false → s.due.mixer = x :: xs →
    let u : State := { s with due := { s.due with mixer := xs } }
    (x.field2 = true → exec .mixerFieldStart s = .next { u with mixer := { s.mixer with opened := some 2 } }) ∧
    (x.field2 = false → exec .mixerFieldStart s = .next { u with
      mixer := { s.mixer with opened := some 1, offset := s.mixer.pendOff.getD s.mixer.offset, pendOff := none } })) ∧
  (∀ (s : State) (n : Nat), s.asserted = false → s.mixer.opened = some n → s.due.mixer = [] →
    s.fmt.firstLine (n == 2) + s.mixer.offset ≤ s.ref.line →
    let e := s.engine
    let kind := if e.cutMark then 0 else match e.effect with
      | .mix => 1
      | .wipe _ => 2
    let pattern := if e.cutMark then 0 else match e.effect with
      | .mix => 0
      | .wipe p => p.num % 32 + 128 * bit p.rev
    exec .mixerSendLine s = .next { s with
      mixer := { s.mixer with
        opened := none
        tx := fieldRecord n (e.routing.toList.getD e.xa.code 0) (e.routing.toList.getD e.xb.code 0) e.level kind pattern
          e.preview }
      engine := { e with cutMark := false } })

/-- PREPARE_TRANSITION replaces the prepared plan and clears a pending cut; in IDLE it sets the crosspoints and, for MIX or
WIPE, the effect (R149, R155). A type, curve or source code that names none of its values is refused with UNKNOWN_REQUEST
(R149, R189). AUTO_TAKE: from MANUAL or HELD a take from the level; in IDLE the prepared MIX or WIPE runs, or a prepared CUT
is pending for the next field start; otherwise it is refused (R155). CUT_NOW puts B on line at once with the cut mark set,
and RESET_TRANSITION returns the level to 0. An ARMED plan refuses CUT_NOW; RESET_TRANSITION abandons an ARMED or RUNNING
plan of the sequencer. Where they end the sequencer's plan MANUAL_TRANSITION is reported to the edit, while the engine's
reports are taken (R152, R154, R158, R159, R126). The owner of a taken plan is of log 24, its preview flag of log 54, what
else of a plan a take keeps of log 69, the engine's mark live of log 51. That an abandoned plan leaves the record, and any
other plan stays in it after RESET_TRANSITION, is of log 36. The layout of TRANSITION_STATE is of log 30. -/
def Obligations.PanelTransitions : Prop :=
  (∀ (s : State) (r : Request) (t : TransType) (c : Curve) (a b : VideoSource), Takes s 0x39 r →
    TransType.ofCode (byteN r.params 0) = some t → Curve.ofCode (byteN r.params 1) = some c →
    VideoSource.ofCode (byteN r.params 4) = some a → VideoSource.ofCode (byteN r.params 5) = some b →
    let q : Pattern := { num := min 31 (byteN r.params 2), rev := byteN r.params 3 != 0 }
    let p : Prepared := { type := t, curve := c, pattern := q, a := a, b := b }
    let e := { s.engine with prepared := some p, pendCut := false }
    let u := answered s r .ok [.u 1 t.code, .u 1 c.code, .u 1 q.num, .u 1 (bit q.rev), .u 1 a.code, .u 1 b.code]
    (s.engine.st ≠ .idle → exec .prepareTransition s = .next { u with engine := e }) ∧
    (s.engine.st = .idle → exec .prepareTransition s = .next { u with engine := { e with
      xa := a, xb := b, effect := match t with
        | .cut => s.engine.effect
        | .mix => .mix
        | .wipe => .wipe q } })) ∧
  (∀ (s : State) (r : Request), Takes s 0x39 r →
    2 < byteN r.params 0 ∨ 1 < byteN r.params 1 ∨ 9 < byteN r.params 4 ∨ 9 < byteN r.params 5 →
    exec .prepareTransition s = .next (answered s r .unknownRequest [])) ∧
  (∀ (s : State) (r : Request), Takes s 0x3A r →
    let d := max 1 (min 999 (natAt r.params 0 2))
    let e := s.engine
    let u := answered s r .ok [.u 2 d]
    let take := { e with
      st := .running, form := .take e.level d, k := 0, pickup := false, plan := e.plan.map fun p => { p with owner := .link } }
    let made (p : Prepared) (t : PlanType) : Plan :=
      { type := t, curve := p.curve, dur := d, pattern := p.pattern, a := p.a, b := p.b, start := none, owner := .link
        preview := false }
    (e.st = .manual ∨ e.st = .held → exec .autoTake s = .next (({ u with engine := take } : State).enter .transitionState 0
      (take.noticeContent e.st .take))) ∧
    (e.st = .armed ∨ e.st = .running ∨ e.st = .idle ∧ (e.prepared = none ∨ e.pendCut = true) →
      exec .autoTake s = .next (answered s r .wrongState [])) ∧
    (∀ p t x, e.st = .idle → e.prepared = some p → e.pendCut = false →
      p.type = .mix ∧ t = PlanType.mix ∧ x = Effect.mix ∨ p.type = .wipe ∧ t = PlanType.wipe ∧ x = Effect.wipe p.pattern →
      let new := { e with
        st := .running, xa := p.a, xb := p.b, effect := x, level := 0, form := .curve, k := 0, plan := some (made p t) }
      exec .autoTake s = .next (({ u with engine := new } : State).enter .transitionState 0 (new.noticeContent .idle .take))) ∧
    (∀ p, e.st = .idle → e.prepared = some p → e.pendCut = false → p.type = .cut → exec .autoTake s = .next { u with
      engine := { e with
        pendCut := true, xa := p.a, xb := p.b, level := 0, form := .curve, k := 0, plan := some (made p .cut) } })) ∧
  (∀ (s : State) (r : Request),
    let e := s.engine
    let u : State := answered s r .ok []
    let told (c : Bool) : Edit :=
      if c = true ∧ e.seqPlan = true ∧ e.live = true ∧ s.edit.running = true ∧ s.safeStop = false then
        { s.edit with warns := { s.edit.warns with manual := true } }
      else s.edit
    let cut := { e with
      st := .idle, xa := e.xb, xb := .black, level := 0, form := .curve, k := 0, cutMark := true, pickup := false
      pendCut := false }
    let reset := { e with
      st := .idle, level := 0, form := .curve, k := 0, pickup := false, pendCut := false
      plan := if (e.st = .armed ∨ e.st = .running) ∧ e.seqPlan = true then none else e.plan }
    (Takes s 0x3B r → e.st = .armed → exec .cutNow s = .next (answered s r .wrongState [])) ∧
    (Takes s 0x3B r → e.st ≠ .armed → exec .cutNow s = .next
      (({ u with engine := cut, edit := told (e.st == .running) } : State).enter .transitionState 0
        (cut.noticeContent e.st (.swap .cut)))) ∧
    (Takes s 0x3C r → e.st = .idle → exec .resetTransition s = .next { u with engine := reset }) ∧
    (Takes s 0x3C r → e.st ≠ .idle → exec .resetTransition s = .next
      (({ u with engine := reset, edit := told (e.st == .armed || e.st == .running) } : State).enter .transitionState 0
        (reset.noticeContent e.st .reset))))

/-- LEVER: outside ARMED and MANUAL a message that crosses, arrives at or leaves the level picks it up; a pick-up from a RUNNING
plan of the sequencer reports MANUAL_TRANSITION to the edit, while the engine's reports are taken (R126, R154); in MANUAL the
level follows, and at 1023 the manual swap is made, with its TRANSITION_STATE entry, and the sense flips (R152, R157, R160);
in ARMED it is only stored (R156). That the entry shows the sense before the flip is of log 24, its layout of log 30; log 46
holds for the swap too, log 51 for the engine's mark live. -/
def Obligations.LeverPicksUpAndFollows : Prop :=
  ∀ (s : State) (r : Request), Takes s 0x3D r →
    let p := min 1023 (natAt r.params 0 2)
    let e := s.engine
    let v := if e.inverted then 1023 - p else p
    let v0 := e.mapped
    let m := e.level
    let u (v m : Nat) (st : EngineState) := answered s r .ok [.u 2 p, .u 2 v, .u 2 m, .u 1 st.code]
    let moved := { e with lever := p, mapped := v }
    let picks := v0 < m ∧ m < v ∨ v < m ∧ m < v0 ∨ v = m ∧ v0 ≠ m ∨ v0 = m ∧ v ≠ m
    let picked := { moved with st := .manual, pickup := true, level := v, k := 0, pendCut := false }
    let told : Edit :=
      if e.st = .running ∧ e.seqPlan = true ∧ e.live = true ∧ s.edit.running = true ∧ s.safeStop = false then
        { s.edit with warns := { s.edit.warns with manual := true } }
      else s.edit
    let swapped := { moved with xa := e.xb, xb := .black, level := 0, form := .curve, k := 0 }
    (e.st = .idle ∨ e.st = .held ∨ e.st = .running → picks → exec .lever s = .next
      (({ u v v .manual with engine := picked, edit := told } : State).enter .leverPickup 0
        [.u 1 e.st.code, .u 2 v, .u 2 m])) ∧
    (e.st = .armed ∨ (e.st ≠ .manual ∧ ¬picks) → exec .lever s = .next { u v m e.st with engine := moved }) ∧
    (e.st = .manual → v ≠ 1023 → exec .lever s = .next { u v v .manual with engine := { moved with level := v } }) ∧
    (e.st = .manual → v = 1023 → exec .lever s = .next
      { ({ u 0 0 .manual with engine := swapped } : State).enter .transitionState 0
          (swapped.noticeContent .manual (.swap .manual)) with
        engine := { swapped with inverted := !e.inverted, mapped := 0 } })

/-! ## GPI and tally outputs (chapter 10) -/

/-- GPI_SET acts on its output at once: ON, OFF, or a pulse of its length that ends at the house line of now (R168, R169).
An output outside 1 to 8, or an action code that names none, is refused with UNKNOWN_REQUEST (R169, R189). At a frame start
a running pulse counts down, and one whose count reaches 0 at or past its end line ends; with no entry scheduled nothing
else happens (R165, R168). A marked entry fires when the house line reaches its line, the first such one in schedule order:
its action is applied, and it leaves the schedule with a notice FIRED; a pulse that has counted out ends at its end line
(R166 to R168). A tally is lit for a deck that stands on record, or is on line outside preview: A below level 512, B from
512 on (R171); none is lit while the reset line is asserted (R185). The skipped starts are of log 22; that a FIRED entry
marked in its frame names its due frame, of log 45; at or past the line: log 11. That a PULSE of GPI_SET takes its length
byte whatever its presence byte holds, and that a level travels as a flag, is of log 30. -/
def Obligations.OutputsActPulseAndTally : Prop :=
  (∀ (s : State) (r : Request) (o : GpiNo), Takes s 0x40 r → byteN r.params 0 = o.val + 1 →
    let len := max 1 (min 25 (byteN r.params 3))
    let u (x : GpiOut) (vals : List Val) : State :=
      { answered s r .ok vals with gpi := { s.gpi with outs := s.gpi.outs.set o.val x } }
    (byteN r.params 1 = 0 → exec .gpiSet s = .next (u
      { on := true, pulse := some { left := len, endLine := s.ref.line, skip := s.due.gpi } }
      [.u 1 1, .u 1 1, .u 1 len, .u 2 s.ref.line])) ∧
    (byteN r.params 1 = 1 → exec .gpiSet s = .next (u { on := true, pulse := none } [.u 1 1, .u 1 0, .raw [0, 0, 0]])) ∧
    (byteN r.params 1 = 2 → exec .gpiSet s = .next (u { on := false, pulse := none } [.u 1 0, .u 1 0, .raw [0, 0, 0]]))) ∧
  (∀ (s : State) (r : Request), Takes s 0x40 r → byteN r.params 0 = 0 ∨ 8 < byteN r.params 0 ∨ 2 < byteN r.params 1 →
    exec .gpiSet s = .next (answered s r .unknownRequest [])) ∧
  (∀ s : State, s.asserted = false → 0 < s.due.gpi → s.gpi.sched = [] →
    let line := if s.due.gpi = 1 then s.ref.line else 1
    ∃ u, exec .gpiFrameStart s = .next u ∧ u.gpi.sched = [] ∧ u.due.gpi = s.due.gpi - 1 ∧ u.edit = s.edit ∧
      u.link = s.link ∧
      ∀ o : GpiNo, ((s.gpi.out o).pulse = none → u.gpi.out o = s.gpi.out o) ∧
        ∀ p, (s.gpi.out o).pulse = some p →
          (0 < p.skip → u.gpi.out o = { (s.gpi.out o) with pulse := some { p with skip := p.skip - 1 } }) ∧
          (p.skip = 0 → 2 ≤ p.left ∨ (p.left = 1 ∧ line < p.endLine) →
            u.gpi.out o = { (s.gpi.out o) with pulse := some { p with left := p.left - 1 } }) ∧
          (p.skip = 0 → p.left = 0 ∨ (p.left = 1 ∧ p.endLine ≤ line) → u.gpi.out o = { on := false, pulse := none })) ∧
  (∀ s : State, s.asserted = false → s.due.gpi = 0 →
    (∀ (x : GpiEntry) (before after : List GpiEntry), s.gpi.sched = before ++ x :: after →
      (∀ y ∈ before, y.inFrame = true → s.ref.line < y.line) → x.inFrame = true → x.late = false → x.line ≤ s.ref.line →
      let out : GpiOut := match x.action with
        | .on => { on := true, pulse := none }
        | .off => { on := false, pulse := none }
        | .pulse n => { on := true, pulse := some { left := n, endLine := s.ref.line, skip := 0 } }
      exec .gpiLineFire s = .next (({ s with gpi := { outs := s.gpi.outs.set x.output.val out, sched := before ++ after } } :
        State).enter .gpiTrigger (x.output.val + 1) (x.noticeContent .fired x.due))) ∧
    (∀ (o : GpiNo) (p : Pulse), (s.gpi.out o).pulse = some p → p.left = 0 → p.endLine ≤ s.ref.line →
      exec (.gpiPulseEnd o) s = .next { s with
        gpi := { s.gpi with outs := s.gpi.outs.set o.val { on := false, pulse := none } } })) ∧
  (∀ (s : State) (d : Deck), (s.tally d = true ↔ s.asserted = false ∧ ((s.port d).standing = true ∨
    (s.engine.preview = false ∧
      (s.engine.level < 512 ∧ s.engine.xa = .deck d ∨ 512 ≤ s.engine.level ∧ s.engine.xb = .deck d)))))

/-- The GPI unit judges an entry at a frame start while its edit is in ROLLING, EDITING or POSTROLL: by d(f, due) it waits
before its due frame and without a position, is marked in it, fires in it at a line reached, fires late one or two frames
on, and is missed from three on (R165, R166). Firing applies its action, ON, OFF or PULSE, after every running pulse has
taken the frame start (R168); it leaves the schedule with its notice (R167). A late entry sets GPI_LATE in the edit's
warnings and a missed one GPI_MISSED (R165, R167, R126). Of several entries each is judged so, in schedule order: those that
fire act on the outputs one after another, so that the later decides an output that both act on, the reports are entered in
that order, and those that wait stay in theirs (R165, R166). An entry marked in an earlier frame fires late whatever f is
(R165); without a position too, and with its due frame in the notice, by log 45, as is the order of pulses and entries at
one frame start. A frame start taken late is judged at line 1, by log 11, and a pulse then skips the starts still owed, by
log 22. -/
def Obligations.EntryIsJudgedAtAFrameStart : Prop :=
  (∀ (s : State) (x : GpiEntry), s.asserted = false → 0 < s.due.gpi → s.gpi.sched = [x] → x.late = false →
    s.edit.phase = .rolling ∨ s.edit.phase = .editing ∨ s.edit.phase = .postroll → s.safeStop = false →
    let k := s.due.gpi
    let line := if k = 1 then s.ref.line else 1
    let f := s.recFrame (s.startInstant k)
    let outs := s.gpi.outs.map (GpiOut.frameStart line)
    let out : GpiOut := match x.action with
      | .on => { on := true, pulse := none }
      | .off => { on := false, pulse := none }
      | .pulse n => { on := true, pulse := some { left := n, endLine := line, skip := k - 1 } }
    let u : State := { s with due := { s.due with gpi := k - 1 }, gpi := { outs := outs, sched := [] } }
    let stays (y : GpiEntry) : Host.Outcome State Fault Refusal := .next { u with gpi := { outs := outs, sched := [y] } }
    let fired : State := { u with gpi := { outs := outs.set x.output.val out, sched := [] } }
    let warns (v : State) (w : Warnings) : State := { v with edit := { s.edit with warns := w } }
    let reports (v : State) (g : GpiResult) (n : Nat) : Host.Outcome State Fault Refusal :=
      .next (v.enter .gpiTrigger (x.output.val + 1) (x.noticeContent g n))
    let late := warns fired { s.edit.warns with gpiLate := true }
    let missed := warns u { s.edit.warns with gpiMissed := true }
    (x.inFrame = true → exec .gpiFrameStart s = reports late .late x.due) ∧
    (x.inFrame = false → f = none → exec .gpiFrameStart s = stays x) ∧
    (∀ n, x.inFrame = false → f = some n →
      (s.fmt.d n x.due < 0 → exec .gpiFrameStart s = stays x) ∧
      (s.fmt.d n x.due = 0 → line < x.line → exec .gpiFrameStart s = stays { x with inFrame := true }) ∧
      (s.fmt.d n x.due = 0 → x.line ≤ line → exec .gpiFrameStart s = reports fired .fired n) ∧
      (1 ≤ s.fmt.d n x.due → s.fmt.d n x.due ≤ 2 → exec .gpiFrameStart s = reports late .late n) ∧
      (3 ≤ s.fmt.d n x.due → exec .gpiFrameStart s = reports missed .missed n))) ∧
  (∀ s : State, s.asserted = false → 0 < s.due.gpi → (∀ x ∈ s.gpi.sched, x.late = false) →
    s.edit.phase = .rolling ∨ s.edit.phase = .editing ∨ s.edit.phase = .postroll → s.safeStop = false →
    let w := s.edit.warns
    let k := s.due.gpi
    let line := if k = 1 then s.ref.line else 1
    let f := s.recFrame (s.startInstant k)
    let verdict (x : GpiEntry) : Option (GpiResult × Nat) :=
      if x.inFrame then some (.late, x.due)
      else f.bind fun n =>
        if s.fmt.d n x.due < 0 ∨ (s.fmt.d n x.due = 0 ∧ line < x.line) then none
        else some (if s.fmt.d n x.due = 0 then .fired else if s.fmt.d n x.due ≤ 2 then .late else .missed, n)
    let waits (x : GpiEntry) : Option GpiEntry :=
      if verdict x = none then
        some { x with inFrame := f.any fun n => s.fmt.d n x.due == 0 }
      else none
    let acts (outs : Vector GpiOut 8) (x : GpiEntry) : Vector GpiOut 8 :=
      if verdict x = none ∨ (verdict x).map Prod.fst = some .missed then outs
      else outs.set x.output.val (match x.action with
        | .on => { on := true, pulse := none }
        | .off => { on := false, pulse := none }
        | .pulse n => { on := true, pulse := some { left := n, endLine := line, skip := k - 1 } })
    let tells (v : State) (x : GpiEntry) : State := match verdict x with
      | some (g, n) => v.enter .gpiTrigger (x.output.val + 1) (x.noticeContent g n)
      | none => v
    let any (g : GpiResult) : Bool := s.gpi.sched.any fun x => (verdict x).map Prod.fst == some g
    exec .gpiFrameStart s = .next (s.gpi.sched.foldl tells { s with
      due := { s.due with gpi := k - 1 }
      gpi := {
        outs := s.gpi.sched.foldl acts (s.gpi.outs.map (GpiOut.frameStart line))
        sched := s.gpi.sched.filterMap waits }
      edit := { s.edit with warns := { w with
        gpiLate := w.gpiLate || any .late, gpiMissed := w.gpiMissed || any .missed } } }))

/-! ## Control link (chapter 11) -/

/-- A frame of a request taken whole: it restarts the silence timer and joins the input queue, or is answered BUSY with its
tag when four wait or a soft reset is pending (R173, R174, R180, R188). -/
def Obligations.ValidFrameJoinsTheQueue : Prop :=
  ∀ (s : State) (k g : Byte) (ps : List Byte) (t : Time), s.asserted = false → s.link.rx = .hunting → g ≠ 0 →
    ps.length ≤ 247 →
    let l := { s.link with rx := .hunting, byteAt := t, restartAt := t, expired := false, stopTaken := false }
    (s.link.resetPending = false → s.link.input.length < 4 → exec (.frameReceived (linkFrame k g ps) t) s = .next
      { s with now := max s.now t, link := { l with input := s.link.input ++ [{ kind := k, tag := g, params := ps }] } }) ∧
    (s.link.resetPending = true ∨ 4 ≤ s.link.input.length → s.places < 16 →
      exec (.frameReceived (linkFrame k g ps) t) s = .next { s with now := max s.now t, link := { l with
        replies := s.link.replies ++ [{ kind := k ||| 0x80, tag := g, vals := [.u 1 1] }] } }) ∧
    (s.link.resetPending = true ∨ 4 ≤ s.link.input.length → 16 ≤ s.places →
      exec (.frameReceived (linkFrame k g ps) t) s = .next { s with now := max s.now t, link := { l with
        dropped := min 65535 (s.link.dropped + 1) } })

/-- A byte other than A5h between frames is discarded. A frame that breaks off for 20 ms, one whose length byte lies outside
3 to 250, and a whole one whose bytes do not sum to 0 or whose tag is 0 is damaged: the receive side hunts, and FRAME_ERROR
is made with tag 0, or counted as dropped with no place free (R173, R176). A request of a kind that names none is answered
UNKNOWN_REQUEST. One whose parameter count is not that of its kind, as R187 and Table 12-3 make up the parameters of the
codes of Table 12-2, is answered BAD_LENGTH with no other effect, as is a load whose bytes are no whole records and a
DECK_COMMAND of less than two bytes (R175, R102). The model's choices of log 30: that such a load is answered by the code
BAD_LENGTH alone, where R101 has the window and the pointer in the reply to every load request; that GPI_SET always has four
bytes, its pulse length after a presence byte; the answer to so short a DECK_COMMAND. The line sends the oldest reply first,
and with no reply waiting the first notice in sending order, which leaves the table (R176, R178), in one step (log 11), its
labels made then (log 41). A notice that is entered takes the last place with count 1, or renews content and stamp of its
pair's entry in place with the count one higher, at most 255; a masked kind is not entered (R177, R179). -/
def Obligations.LinkErrorsAndOutboundOrder : Prop :=
  (∀ (s : State) (t : Time), s.asserted = false →
    let l := { s.link with rx := .hunting }
    let damaged (l : Link) : Host.Outcome State Fault Refusal := .next { s with
      now := max s.now t
      link := if s.places < 16 then { l with replies := s.link.replies ++ [{ kind := 0x80, tag := 0, vals := [.u 1 2] }] }
        else { l with dropped := min 65535 (s.link.dropped + 1) } }
    (∀ bs, s.link.rx = .frame bs → s.link.byteAt + ms 20 ≤ t → exec (.linkGapTimeout t) s = damaged l) ∧
    (∀ b : Byte, s.link.rx = .hunting → b ≠ 0xA5 → exec (.frameReceived [b] t) s = .next { s with now := max s.now t }) ∧
    (∀ n : Byte, s.link.rx = .hunting → n.toNat < 3 ∨ 250 < n.toNat →
      exec (.frameReceived [0xA5, n] t) s = damaged { l with byteAt := t }) ∧
    (∀ (n : Byte) (bs : List Byte), s.link.rx = .hunting → 3 ≤ n.toNat → n.toNat ≤ 250 → bs.length = n.toNat →
      (n :: bs).foldl (· + ·) 0 ≠ 0 ∨ bs.getD 1 0 = 0 →
      exec (.frameReceived (0xA5 :: n :: bs) t) s = damaged { l with byteAt := t })) ∧
  (∀ (s : State) (r : Request), s.asserted = false → s.places < 16 → s.link.input.head? = some r →
    (paramCount r.kind.toNat = none → exec .unknownRequest s = .next (answered s r .unknownRequest [])) ∧
    (∀ (k : Nat) (c : Instr) (n : Nat), (k, c, n) ∈ [(0x01, Instr.getReference, 0), (0x02, .setHouseTime, 4),
        (0x08, .setReaderParams, 2), (0x09, .getReader, 2), (0x11, .getDeck, 1), (0x12, .setPortEnable, 2),
        (0x18, .setServoParams, 12), (0x19, .setChase, 5), (0x1A, .clearChase, 1), (0x1B, .getChase, 1),
        (0x20, .setLoadWindow, 4), (0x23, .readEvent, 3), (0x24, .deleteEvents, 4), (0x25, .clearList, 0),
        (0x26, .resetStatus, 4), (0x28, .setEditTimes, 7), (0x29, .executeEvent, 3), (0x2A, .abortEdit, 0),
        (0x2B, .allStop, 0), (0x2C, .getEdit, 0), (0x30, .startRun, 8), (0x31, .continueRun, 0), (0x32, .skipEvent, 0),
        (0x33, .pauseRun, 0), (0x34, .stopRun, 0), (0x35, .getRun, 0), (0x38, .setRouting, 10),
        (0x39, .prepareTransition, 6), (0x3A, .autoTake, 2), (0x3B, .cutNow, 0), (0x3C, .resetTransition, 0),
        (0x3D, .lever, 2), (0x3E, .getTransition, 0), (0x3F, .setMixerSendLine, 1), (0x40, .gpiSet, 4), (0x41, .getGpi, 0),
        (0x48, .setFormat, 1), (0x49, .setRecorder, 1), (0x4A, .setNoticeMask, 2), (0x4B, .setSilenceLimit, 2),
        (0x4C, .softReset, 0), (0x4D, .getLinkStatus, 0)] →
      r.kind.toNat = k → r.params.length ≠ n → exec c s = .next (answered s r .badLength [])) ∧
    (∀ (k : Nat) (c : Instr), (k, c) ∈ [(0x21, Instr.loadEvents), (0x22, .loadContinue)] → r.kind.toNat = k →
      (∀ rs : List (List Byte), rs.flatten = r.params → ∃ x ∈ rs, x.length ≠ 29 + 8 * byteN x 28) →
      exec c s = .next (answered s r .badLength [])) ∧
    (r.kind.toNat = 0x10 → r.params.length < 2 → exec .deckCommand s = .next (answered s r .badLength []))) ∧
  (∀ s : State, s.asserted = false →
    (∀ r rs, s.link.replies = r :: rs → exec .outboundSend s = .next { s with link := { s.link with
      replies := rs, tx := [r.frame s.fmt s.clock.offset], okAhead := s.link.okAhead - 1 } }) ∧
    (∀ n ns, s.link.replies = [] → s.link.notices = n :: ns → exec .outboundSend s = .next { s with link := { s.link with
      notices := ns, tx := [n.frame s.fmt s.clock.offset] } }) ∧
    (s.link.replies = [] → s.link.notices = [] → exec .outboundSend s = .next s)) ∧
  (∀ (s : State) (kind : NoticeKind) (source : Nat) (content : List Val),
    let l := s.link.notices
    let table (x : List Notice) : State := { s with link := { s.link with notices := x } }
    let pair (n : Notice) := n.kind = kind ∧ n.source = source
    (s.link.mask.getLsbD kind.code = true → s.enter kind source content = s) ∧
    (s.link.mask.getLsbD kind.code = false →
      ((∀ n ∈ l, ¬pair n) → s.enter kind source content = table (l ++
        [{ kind := kind, source := source, content := content, stamp := s.clock.frame, count := 1 }])) ∧
      (∀ a n b, l = a ++ n :: b → pair n → (∀ x ∈ a, ¬pair x) → s.enter kind source content = table (a ++
        { n with content := content, stamp := s.clock.frame, count := min 255 (n.count + 1) } :: b))))

/-- SET_FORMAT in a quiet suite: the list is emptied, reference and clock restart, readers search with the new nominal cell,
house instants of waiting replies are brought into the new day, and the reply follows; otherwise it is refused (R17, R182,
R29, R47, R110). It is refused with WRONG_STATE in an edit, with a list run EXECUTING, HELD or PAUSING, and with a chase
channel not IDLE, and a code that names no format with UNKNOWN_REQUEST (R182, R189). The ports keep their commands. The
waiting notices keep their places with stamps reduced; then REFERENCE_STATE, READER_STATE of every reader that had a source,
and HELLO with the cause FORMAT are entered, unless masked (R182, R24, R44, R185, R177). The restart is at State.now (log
3); the frame numbers of waiting LOCATEs, notices and an old plan, and the line of an instant, are of log 43, the order of
the entries before HELLO of log 55, what READER_STATE shows of log 65. -/
def Obligations.SetFormatRestartsTheSuite : Prop :=
  (∀ (s : State) (r : Request), Takes s 0x48 r → 2 < byteN r.params 0 →
    exec .setFormat s = .next (answered s r .unknownRequest [])) ∧
  (∀ (s : State) (r : Request) (f : SuiteFormat), Takes s 0x48 r → SuiteFormat.ofCode (byteN r.params 0) = some f →
    let busy := s.edit.phase ≠ .idle ∨ s.run.st = .executing ∨ s.run.st = .held ∨ s.run.st = .pausing ∨
      ∃ d, (s.chan d).st ≠ .idle
    let within (v : Val) : Val := match v with
      | .lab n => .lab (n % f.dayLen)
      | .inst n l => .inst (n % f.dayLen) (min l f.lpf)
      | v => v
    let cmd (c : DeckCmd) : DeckCmd := match c with
      | .locate n => .locate (n % f.dayLen)
      | c => c
    let put (k : NoticeKind) (source : Nat) (content : List Val) (l : List Notice) : List Notice :=
      if s.link.masked k then l else noticeEnter k source content 0 l
    (busy → exec .setFormat s = .next (answered s r .wrongState [])) ∧
    (¬busy → ∃ u, exec .setFormat s = .next u ∧ u.fmt = f ∧
      u.ref = { st := .acquiring, lineCount := 0, good := 0, pulseAt := s.now, line := 1, frame := 0, stepAt := exact s.now
                timerFrom := exact s.now } ∧
      u.clock = { frame := 0, offset := 0, preset := none } ∧ u.list = { s.list with events := [] } ∧
      (∀ d, u.reader d = Reader.initial f) ∧ u.set = { s.set with unlockWin := min s.set.unlockWin f.lpf } ∧
      u.link.replies = s.link.replies.map (fun x => { x with vals := x.vals.map within }) ++
        [{ kind := r.kind ||| 0x80, tag := r.tag, vals := [.u 1 0, .u 1 f.code] }] ∧
      u.link.input = s.link.input.tail ∧ u.chase = s.chase ∧ u.edit = s.edit ∧ u.run = s.run ∧ u.gpi = s.gpi ∧ u.mixer = s.mixer ∧
      u.engine.level = s.engine.level ∧ u.engine.routing = s.engine.routing ∧
      u.engine = { s.engine with plan := s.engine.plan.map fun p => { p with start := p.start.map (· % f.dayLen) } } ∧
      (∀ d, u.port d = { s.port d with
        seqSlot := { first := (s.port d).seqSlot.first.map cmd, second := (s.port d).seqSlot.second.map cmd }
        servo := (s.port d).servo.map fun x => { x with cmd := cmd x.cmd }
        pass := (s.port d).pass.map fun x => { x with cmd := cmd x.cmd }
        flight := (s.port d).flight.map fun x => { x with cmd := cmd x.cmd } }) ∧
      (let old := s.link.notices.map fun n => { n with stamp := n.stamp % f.dayLen, content := n.content.map within }
        let reference := put .referenceState 0 (refContent .acquiring none none (some .restart)) old
        let readers := [0, 1, 2, 3, 4, 5].foldl (fun l (d : Deck) => if (s.reader d).src = .none then l
          else put .readerState (Deck.num d) ((Reader.initial f).noticeContent (s.reader d).src .restart) l) reference
        u.link.notices = put .hello 0 (helloContent .format f s.recorder 0) readers) ∧
      u.link.mask = s.link.mask ∧ u.link.limit = s.link.limit ∧ u.link.recorder = s.link.recorder))

/-- SOFT_RESET answers OK, sets reset pending and discards the requests behind it; with record standing a safe stop posts on
the recorder (R184). A soft reset whose OK is sent and whose safe stop is over takes effect: house time, list, settings,
routing, mixer offset, recorder, mask and limit stay, and the other blocks take their soft-reset values; before that every
PASS command in flight or waiting is answered ABORTED and the replies are sent out, as those that the safe stop removes are
answered ABORTED (Table 11-2, R70), in the order of log 55 (R184, R29, R47, R72, R95, R110, R136, R137, R163, R172). The
safe stop's item on the recorder is RECORD_OFF then STOP, on the other decks STOP, each handed at once on an IDLE line; the
sequencer takes no report of it; the outcome of a STOP, whatever it is, takes its deck from those awaited (R184, R62). The
dropped field record, the line in SENDING, and the POLL slot's hold after an open quiet window, dropped against a plain
reading of R61 and R66, are of log 44, the last as the model's choice. That SOFT_RESET's own reply stands ahead of those
ABORTED is of log 35; the sending in one step of log 11; the instants and serial numbers left of logs 14, 16 and 31. -/
def Obligations.SoftResetPendsAndTakesEffect : Prop :=
  (∀ (s : State) (r : Request), Takes s 0x4C r →
    ((s.port s.recorder).standing = false →
      let u := answered s r .ok []
      exec .softReset s = .next { u with link := { u.link with
        resetPending := true, input := [], okAhead := s.link.replies.length + 1 } }) ∧
    ((s.port s.recorder).standing = true → ∃ u, exec .softReset s = .next u ∧ u.link.resetPending = true ∧
      u.link.input = [] ∧ u.link.okAhead = s.link.replies.length + 1 ∧
      (∃ ds, u.link.safe = some ds ∧ s.recorder ∈ ds ∧
        u.link.replies = (answered s r .ok []).link.replies ++ passAborted s ds ∧
        (∀ d, d ≠ s.recorder → (d ∈ ds ↔ (s.port d).claim ≠ .free ∧ (s.port d).presence ≠ .disabled))) ∧
      (∀ ds, u.link.safe = some ds → ∀ d,
        (d ∉ ds → u.port d = s.port d) ∧
        ∀ toSeq, d ∈ ds → (s.port d).emerg = none → (toSeq = true ↔ s.edit.phase = .release ∧
            ((s.port d).seqSlot.first = some .stop ∨ (s.port d).seqSlot.second = some .stop)) →
          u.port d = itemPosted (s.port d) toSeq true) ∧
      (u.port s.recorder).seqSlot = { first := none, second := none } ∧ (u.port s.recorder).servo = none ∧
      (u.port s.recorder).pass = none ∧ u.list = s.list ∧ u.edit = s.edit ∧ u.chase = s.chase ∧ u.set = s.set)) ∧
  (∀ (s : State) (d : Deck) (ds : List Deck) (t : Time) (toSeq : Bool), s.asserted = false → s.link.safe = some ds →
    let p := s.port d
    let left (u : State) : State := { u with link := { u.link with safe := some (ds.filter (· ≠ d)) } }
    let ended (q : Port) : Port := { q with line := .idle, flight := none, rx := none, byteAt := t, fails := 0 }
    p.line = .awaiting → p.stray = none → p.rx = none → p.presence = .present →
    p.flight = some ⟨.stop, .emergencyStop toSeq true⟩ →
    exec (.deckReplyReceived d [⟨2, false⟩, ⟨0x80, false⟩, ⟨0x82, false⟩] t) s = .next
      ((left ((s.tick t).setPort d (ended p))).hand d) ∧
    (∀ why : Byte, exec (.deckReplyReceived d [⟨3, false⟩, ⟨0x81, false⟩, ⟨why, false⟩, ⟨3 ^^^ 0x81 ^^^ why, false⟩] t) s = .next
      ((left ((s.tick t).setPort d { ended p with nak := some (NakReason.ofByte why.toNat) })).hand d)) ∧
    (p.fails < 2 → p.replyFrom + ms 12 ≤ t → exec (.replyTimeout d t) s = .next (left ((s.tick t).setPort d { p with
      flight := none, rx := none, fails := p.fails + 1, line := .recovering, late := .reply { bytes := [], bad := false }
      replyFrom := t })))) ∧
  (∀ (s : State) (t : Time), s.asserted = false → s.link.resetPending = true → s.link.okAhead = 0 →
    s.link.safe.all List.isEmpty = true → s.link.masked .hello = false →
    ∃ u, exec (.softResetEffect t) s = .next u ∧
      u.fmt = s.fmt ∧ u.ref = s.ref ∧ u.clock = s.clock ∧ u.due = s.due ∧ u.set = s.set ∧ u.asserted = false ∧
      u.list = { s.list with active := none } ∧ u.edit = Edit.idle ∧ u.run = Run.initial ∧
      u.engine = Engine.initial s.engine.routing ∧ u.mixer = { s.mixer with opened := none } ∧ u.gpi = Gpi.initial ∧
      (∀ d, u.reader d = Reader.initial s.fmt) ∧ (∀ d, u.chan d = Channel.idle s.set.lead ((s.chan d).gen + 1) (s.chan d).loc) ∧
      (∀ d, u.port d = { Port.initial with
        enabled := (s.port d).enabled
        presence := if (s.port d).enabled then .absent else .disabled
        line := if (s.port d).line = .sending then .sending else .idle
        tx := (s.port d).tx }) ∧
      u.link.recorder = s.link.recorder ∧ u.link.mask = s.link.mask ∧ u.link.limit = s.link.limit ∧ u.link.restartAt = t ∧
      u.link.input = [] ∧ u.link.replies = [] ∧ u.link.dropped = 0 ∧ u.link.resetPending = false ∧
      (let aborted := decks.flatMap fun d =>
          ((s.port d).flight.toList.flatMap fun x => passReply x.origin [.u 1 Result.aborted.code]) ++ passAborted s [d];
        u.link.tx = (s.link.replies ++ aborted).map fun x => x.frame s.fmt s.clock.offset) ∧
      u.link.notices = [{ kind := .hello, source := 0
                          content := helloContent .soft s.fmt s.link.recorder s.list.events.length
                          stamp := s.clock.frame, count := 1 }])

/-! ## Settings and reports -/

/-- Every settings request clamps its values to their ranges, stores them and answers OK with the values stored, and changes
nothing else (R45, R111, R148, R162, R181). SET_SERVO_PARAMS clamps the eight values, the unlock window to no less than the
lock window, stores them for every channel, and brings a waiting VARISPEED within the bounds now in force (R73).
SET_RECORDER names the recorder with the sequencer IDLE, cancelling its own chase of the link, with CHASE_STATE (R92; logs 16,
30, 64); a number outside 1 to 6 is
refused with NO_DECK, and any during an edit with WRONG_STATE (R94, R183). SET_NOTICE_MASK stores the set without HELLO and
drops the waiting entries of the kinds newly masked (R179). The lead of an IDLE channel is of log 37. -/
def Obligations.SettingsAreClampedAndStored : Prop :=
  (∀ (s : State) (r : Request),
    let b (i : Nat) := byteN r.params i
    let w (i : Nat) := natAt r.params i 2
    (Takes s 0x08 r →
      let g := max 5 (min 100 (b 0))
      let l := min 50 (b 1)
      exec .setReaderParams s = .next { answered s r .ok [.u 1 g, .u 1 l] with
        set := { s.set with glitch := g, flyLimit := l } }) ∧
    (Takes s 0x28 r →
      let p := max 25 (min 750 (w 0))
      let m := max 1 (min 125 (b 2))
      let q := min 750 (w 3)
      let c := max 250 (min 7500 (w 5))
      exec .setEditTimes s = .next { answered s r .ok [.u 2 p, .u 1 m, .u 2 q, .u 2 c] with
        set := { s.set with preroll := p, syncMargin := m, postroll := q, cueTimeout := c } }) ∧
    (Takes s 0x38 r →
      let v : Vector Nat 10 := Vector.ofFn fun i => min 31 (b i.val)
      exec .setRouting s = .next { answered s r .ok [.raw (v.toList.map (BitVec.ofNat 8))] with
        engine := { s.engine with routing := v } }) ∧
    (Takes s 0x3F r →
      let n := max 1 (min 20 (b 0))
      exec .setMixerSendLine s = .next { answered s r .ok [.u 1 n] with mixer := { s.mixer with pendOff := some n } }) ∧
    (Takes s 0x4B r → (s.port s.recorder).standing = false →
      let n := max 200 (min 10000 (w 0))
      exec .setSilenceLimit s = .next
        (let u := answered s r .ok [.u 2 n]; { u with link := { u.link with limit := n } })) ∧
    (Takes s 0x4B r → (s.port s.recorder).standing = true → exec .setSilenceLimit s = .next (answered s r .wrongState []))) ∧
  (∀ (s : State) (r : Request), Takes s 0x18 r →
    let b (i : Nat) := byteN r.params i
    let w (i : Nat) := natAt r.params i 2
    let lockWin := max 1 (min 64 (b 6))
    let t := { s.set with
      coarse := max 1 (min 100 (b 0)), fine := max 1 (min 100 (b 1)), trim := max 10 (min 300 (w 2)), lead := min 500 (w 4)
      lockWin := lockWin, lockCount := max 1 (min 25 (b 7)), unlockWin := max lockWin (min s.fmt.lpf (w 8))
      seekWin := max 25 (min 1500 (w 10)) }
    exec .setServoParams s = .next { answered s r .ok [.u 1 t.coarse, .u 1 t.fine, .u 2 t.trim, .u 2 t.lead, .u 1 t.lockWin
        , .u 1 t.lockCount, .u 2 t.unlockWin, .u 2 t.seekWin] with
      set := t
      chase := s.chase.map fun c => if c.st = .idle then { c with lead := t.lead } else c
      ports := s.ports.map fun p => { p with servo := p.servo.map fun x => { x with cmd := match x.cmd with
        | .varispeed v => .varispeed (max (max p.range.1 (1000 - t.trim)) (min (min p.range.2 (1000 + t.trim)) v))
        | c => c } } }) ∧
  (∀ (s : State) (r : Request), Takes s 0x49 r → byteN r.params 0 = 0 ∨ 6 < byteN r.params 0 →
    exec .setRecorder s = .next (answered s r .noDeck [])) ∧
  (∀ (s : State) (r : Request) (d : Deck), Takes s 0x49 r → byteN r.params 0 = Deck.num d →
    (s.edit.phase ≠ .idle → exec .setRecorder s = .next (answered s r .wrongState [])) ∧
    (s.edit.phase = .idle → (s.chan d).owner ≠ some .link → exec .setRecorder s = .next
      (let u := answered s r .ok [.u 1 (Deck.num d)]; { u with link := { u.link with recorder := d } })) ∧
    (s.edit.phase = .idle → (s.chan d).owner = some .link → (s.chan d).st ≠ .idle →
      let u := answered s r .ok [.u 1 (Deck.num d)]
      let c := Channel.idle s.set.lead ((s.chan d).gen + 1) (s.chan d).loc
      exec .setRecorder s = .next (((({ u with link := { u.link with recorder := d } } : State).setPort d { s.port d with
        claim := .free, servo := (s.port d).servo.filter fun c => c.cmd == .stop }).setChan d c).enter .chaseState
          (Deck.num d) (c.noticeContent (s.chan d).st .cancelled)))) ∧
  (∀ (s : State) (r : Request), Takes s 0x4A r →
    let m : BitVec 13 := BitVec.ofNat 13 (natAt r.params 0 2) &&& 0x1FDF
    let u := answered s r .ok [.u 2 m.toNat]
    exec .setNoticeMask s = .next { u with link := { u.link with
      mask := m
      notices := s.link.notices.filter fun n => s.link.mask.getLsbD n.kind.code || !m.getLsbD n.kind.code } })

/-- Every report is answered OK with its values as they stand at the request, labels converted when the reply is made; a
frame start that the house clock has still to take counts in the label of GET_REFERENCE (log 5). A report takes nothing but
its request from the queue and adds nothing but its reply (R28, R46, R71, R90, R105, R135, R147, R160, R170, R186).
GET_READER with its clear flag also sets the bad-word count to 0 (R46). GET_READER, GET_DECK and GET_CHASE refuse a number
outside 1 to 6 with NO_DECK. READ_EVENT EXACT reads the event at its number, NEXT the lowest present at or above it; a
number outside 1 to 999, and a search that finds no event, is refused with NO_EVENT (R105). The layouts are of log 30, the
order of the checks of READ_EVENT of log 23. That GET_LINK_STATUS counts the queue without its own request and the places
without its own reply is of log 40, that labels are made with the reply of log 41, that GET_EDIT shows the failure reason
from the abort on of log 60, that GET_TRANSITION shows the plan's duration during a take of log 69. -/
def Obligations.ReportsCarryTheirValues : Prop :=
  ∀ (s : State) (r : Request),
    let f := s.fmt
    let said (vals : List (List Val)) : State := answered s r .ok ((vCat vals).map (Val.fix f))
    (Takes s 0x01 r →
      let shows (n : Nat) := exec .getReference s = .next (answered s r .ok [.u 1 s.ref.st.code, labelVal f n
        , .u 1 (if s.ref.line ≤ f.field1Last then 1 else 2), .u 2 s.ref.line])
      (s.due.clock = 0 → s.clock.frame < f.dayLen → s.clock.frame = (s.ref.frame + s.clock.offset) % f.dayLen →
        shows s.clock.frame) ∧
      (s.clock.preset = none → shows ((s.ref.frame + s.clock.offset) % f.dayLen)) ∧
      (∀ p, s.clock.preset = some p → s.due.clock = 1 → shows (p % f.dayLen))) ∧
    (∀ d : Deck, byteN r.params 0 = Deck.num d →
      (Takes s 0x09 r →
        let x := s.reader d
        let u := said [[.u 1 x.dec.code, .u 3 x.est, .i 2 x.speed, .u 1 x.cls.code, .u 1 x.src.code],
          vOpt x.mark (fun m => [.lab m.frame, .inst (m.stamp / f.lpf) (m.stamp % f.lpf + 1)]) 10, [.u 1 x.dir.code],
          vOpt (s.extrap d s.house) (fun p => [.lab (p / f.lpf), .u 2 (p % f.lpf + 1)]) 6,
          vOpt x.cand (fun c => [.lab c.frame]) 4, [.u 4 x.user.toNat, .u 2 x.good, .u 1 x.fly, .u 2 x.bad]]
        exec .getReader s = .next (if byteN r.params 1 = 0 then u else u.setReader d { x with bad := 0 })) ∧
      (Takes s 0x11 r →
        let p := s.port d
        let ident (i : Identity) : List Val := vCat [[.u 1 i.typeCode, .u 1 i.model.length, .raw i.model, .u 1 i.caps.code],
          vOpt i.range (fun x => [.u 2 x.1, .u 2 x.2]) 4, [.u 2 i.minPreroll],
          vOpt i.delays (fun x => [.u 1 x.1, .u 1 x.2]) 2, [.u 1 i.playStart]]
        exec .getDeck s = .next (said [[.u 1 (bit p.enabled), .u 1 p.presence.code], vOpt p.ident ident 14,
          vOpt p.flags (fun x => [.u 2 x.toNat, .u 1 p.age, .u 1 (bit p.fresh)]) 4,
          [.u 1 p.fails, .u 1 p.claim.code, .u 1 (bit p.standing)], vOpt p.nak (fun n => [.u 1 n.code]) 1,
          [.u 1 p.line.code, .u 1 (bit p.emerg.isSome + 2 * bit (p.seqSlot.first.isSome || p.seqSlot.second.isSome) +
            4 * bit p.servo.isSome + 8 * bit p.pass.isSome + 16 * bit p.poll.isSome), .u 1 (bit p.quiet)]])) ∧
      (Takes s 0x1B r →
        let c := s.chan d
        exec .getChase s = .next (said [[.u 1 c.st.code], vOpt c.owner (fun o => [.u 1 o.code]) 1,
          vOpt c.master (fun m => [.u 1 m.code]) 1, [.i 3 c.offset], vOpt c.kind (fun k => [.u 1 k.code]) 1,
          vOpt c.target (fun n => [.lab n]) 4, [.u 1 (bit c.acked)], vOpt c.err (fun e => [.i 4 e]) 4,
          vOpt c.speed (fun v => [.u 2 v]) 2, vOpt c.cond (fun x => [.u 1 x.code]) 1,
          [.u 1 c.inWin, .u 1 c.outWin, .u 1 c.seeks, .u 2 c.lead, .u 1 c.roll], vOpt c.fault (fun x => [.u 1 x.code]) 1]))) ∧
    (∀ (k : Nat) (c : Instr), (k, c) ∈ [(0x09, Instr.getReader), (0x11, .getDeck), (0x1B, .getChase)] →
      (∀ d : Deck, byteN r.params 0 ≠ Deck.num d) → Takes s k r → exec c s = .next (answered s r .noDeck [])) ∧
    (Takes s 0x23 r →
      let n := natAt r.params 0 2
      let how := byteN r.params 2
      let found (m : Nat) (e : Event) := exec .readEvent s = .next (said [[.u 2 m, .raw (e.fields.bytes f), .u 1 e.status.code
        , .u 1 ((e.failure.map Reason.code).getD 0), .u 1 e.warns.code, .u 1 e.attempts, .u 1 (bit (s.list.active == some m))
        , .u 1 s.list.events.length, .u 2 s.list.low, .u 2 s.list.high, .u 2 s.list.ptr]])
      (1 < how → exec .readEvent s = .next (answered s r .unknownRequest [])) ∧
      (how ≤ 1 → n < 1 ∨ 999 < n → exec .readEvent s = .next (answered s r .noEvent [])) ∧
      (1 ≤ n → n ≤ 999 → NumbersOk (numbers s.list) →
        (∀ e, how = 0 → (n, e) ∈ s.list.events → found n e) ∧
        (∀ m e, how = 1 → (m, e) ∈ s.list.events → n ≤ m → (∀ x ∈ s.list.events, n ≤ x.1 → m ≤ x.1) → found m e) ∧
        (how = 0 ∧ (∀ x ∈ s.list.events, x.1 ≠ n) ∨ how = 1 ∧ (∀ x ∈ s.list.events, x.1 < n) →
          exec .readEvent s = .next (answered s r .noEvent [])))) ∧
    (Takes s 0x2C r →
      let e := s.edit
      let flags (d : Deck) : List Val := [.u 1 (bit e.acked[d.val]), .u 1 (bit e.cued[d.val])]
      let why := e.failure.orElse fun _ => (endingOf e).2
      let label (o : Option Nat) := vOpt o (fun n => [.lab n]) 4
      exec .getEdit s = .next (said [vOpt e.active (fun x => [.u 2 x.1, .raw (x.2.bytes f)]) 31,
        vOpt e.mode (fun m => [.u 1 m.code]) 1, [.u 1 e.phase.code, .u 1 e.involved.length],
        e.involved.map fun d => .u 1 (Deck.num d),
        [.u 2 e.preroll, .u 1 e.margin, .u 2 e.postroll, .u 1 e.onDelay, .u 1 e.offDelay, .u 1 e.playStart],
        label e.cueR, label e.cueA, label e.cueB, [.u 1 e.involved.length], e.involved.flatMap flags,
        vOpt e.offA (fun z => [.i 3 z]) 3, vOpt e.offB (fun z => [.i 3 z]) 3,
        [.u 1 (bit e.syncPassed), .u 1 e.stage.code, .u 3 e.deadline, .u 1 e.stops.length],
        e.stops.map fun d => .u 1 (Deck.num d), [.u 1 e.warns.code], vOpt e.abort (fun x => [.u 1 (x.code - 1)]) 1,
        [.u 1 ((why.map Reason.code).getD 0)], label e.onFrame, label e.offFrame, label s.recNow])) ∧
    (Takes s 0x35 r →
      let x := s.run
      exec .getRun s = .next (said [[.u 1 x.st.code], vOpt x.first (fun n => [.u 2 n]) 2, vOpt x.last (fun n => [.u 2 n]) 2,
        [.u 1 x.dir.code], vOpt x.mode (fun m => [.u 1 m.code]) 1, [.u 1 (bit x.loop), .u 1 x.policy.code],
        vOpt x.current (fun n => [.u 2 n]) 2, vOpt x.hold (fun h => [.u 1 h.code]) 1, [.u 2 x.started, .u 2 x.wraps]])) ∧
    (Takes s 0x3E r →
      let e := s.engine
      let input (x : VideoSource) := e.routing.toList.getD x.code 0
      let plan (p : Plan) : List Val := vCat [[.u 1 p.type.code, .u 1 p.curve.code, .u 2 p.dur, .u 1 p.pattern.num
        , .u 1 (bit p.pattern.rev), .u 1 p.a.code, .u 1 p.b.code], vOpt p.start (fun n => [.lab n]) 4,
        [.u 1 (if p.owner = .sequencer then 0 else 1), .u 1 (bit p.preview)]]
      let prepared (p : Prepared) : List Val := [.u 1 p.type.code, .u 1 p.curve.code, .u 1 p.pattern.num
        , .u 1 (bit p.pattern.rev), .u 1 p.a.code, .u 1 p.b.code]
      let form : List Val := match e.form with
        | .curve => [.u 1 0, .u 1 0, .raw [0, 0]]
        | .take m _ => [.u 1 1, .u 1 1, .u 2 m]
      let effect : List Val := match e.effect with
        | .mix => [.u 1 0, .u 1 0, .u 1 0, .u 1 0]
        | .wipe q => [.u 1 1, .u 1 1, .u 1 q.num, .u 1 (bit q.rev)]
      exec .getTransition s = .next (said [[.u 1 e.st.code], vOpt e.plan plan 15, vOpt e.prepared prepared 6, form,
        [.u 2 e.k, .u 2 e.level, .u 1 e.xa.code, .u 1 e.xb.code], effect, [.u 1 (bit e.cutMark), .u 1 (bit e.pendCut)
          , .u 2 e.lever, .u 2 e.mapped, .u 1 (bit e.inverted), .u 1 (bit e.pickup), .u 1 (bit e.preview)
          , .raw (e.routing.toList.map (BitVec.ofNat 8)), .u 1 (input e.xa), .u 1 (input e.xb), .u 1 s.mixer.offset],
        vOpt s.mixer.pendOff (fun n => [.u 1 n]) 1])) ∧
    (Takes s 0x41 r →
      let out (o : GpiOut) : List Val := .u 1 (bit o.on) :: vOpt o.pulse (fun p => [.u 1 p.left, .u 2 p.endLine]) 3
      let entry (x : GpiEntry) : List Val := vCat [[.u 1 (x.output.val + 1), .lab x.due, .i 3 x.offset, .u 2 x.line
        , .u 1 x.action.code], vOpt x.action.len (fun n => [.u 1 n]) 1,
        [.u 2 x.event, .u 1 x.place, .u 1 (bit x.inFrame), .u 1 (bit x.late)]]
      exec .getGpi s = .next (said [s.gpi.outs.toList.flatMap out, [.u 1 s.gpi.sched.length], s.gpi.sched.flatMap entry,
        [.u 1 (bit (s.tally 0) + 2 * bit (s.tally 1) + 4 * bit (s.tally 2) + 8 * bit (s.tally 3) + 16 * bit (s.tally 4) +
          32 * bit (s.tally 5))]])) ∧
    (Takes s 0x4D r → exec .getLinkStatus s = .next (said [[.u 1 f.code, .u 1 (Deck.num s.recorder), .u 2 s.link.mask.toNat
      , .u 2 s.link.limit, .u 2 (min 65535 ((s.now - s.link.restartAt) / ms 1)), .u 1 s.link.input.tail.length
      , .u 1 s.places, .u 1 s.link.notices.length, .u 2 s.link.dropped, .u 1 3]]))

/-! ## Invariants of every step -/

/-- The input queue never holds more than four requests (R174). The notice table holds one entry for each pair at most, of the
40 pairs, each with a count from 1 to 255 (R177). The waiting replies, with the places reserved for the PASS commands that wait
or are in flight, never hold more than the 16 places of the reply queue (R175, R176). -/
def Obligations.LinkQueuesStayBounded : Prop :=
  (∀ s t : State, s.link.input.length ≤ 4 → step s = .next t → t.link.input.length ≤ 4) ∧
  (∀ s t : State, NoticesOk s.link.notices → step s = .next t → NoticesOk t.link.notices ∧ t.link.notices.length ≤ 40) ∧
  (∀ s t : State, s.places ≤ 16 → step s = .next t → t.places ≤ 16)

/-- The event list stays in ascending order of distinct numbers from 1 to 999, at most 250, with window and pointer in range,
and its records within what the layout carries (R96, R100, R101). -/
def Obligations.EventListStaysOrdered : Prop :=
  ∀ s t : State, ListOk s → step s = .next t → ListOk t

/-- Level, lever and mapped value stay within 0 to 1023 and the mixer inputs within 0 to 31; in IDLE and ARMED the level is 0
(Table 9-2, Table 9-3, R148). -/
def Obligations.EngineStaysInRange : Prop :=
  ∀ s t : State, EngineOk s.engine → step s = .next t → EngineOk t.engine

/-- The house line stays a line of the frame, and in LOCKED is the line count; the house frame number always equals the
reference frame plus the clock offset, modulo L, for the frame starts taken (R2, R21, section 2.7). Owed frame starts are
the model's (log 5). -/
def Obligations.HouseTimeStaysConsistent : Prop :=
  ∀ s t : State, HouseOk s → ClockOk s → step s = .next t → HouseOk t ∧ ClockOk t

/-- No RECORD command ever waits in the SERVO, PASS or POLL slot or comes from one of them to the line (R68, R69). -/
def Obligations.RecordStaysProtected : Prop :=
  ∀ s t : State, PortsOk s → step s = .next t → PortsOk t

/-- Every setting stays within its stated range (R45, R73, R111, R162, R181). -/
def Obligations.SettingsStayInRange : Prop :=
  ∀ s t : State, SettingsOk s → step s = .next t → SettingsOk t

/-- The reset state meets every invariant. -/
def Obligations.ResetMeetsTheInvariants : Prop :=
  State.reset.link.input.length ≤ 4 ∧ State.reset.places ≤ 16 ∧ NoticesOk State.reset.link.notices ∧ ListOk State.reset ∧
    EngineOk State.reset.engine ∧ HouseOk State.reset ∧ ClockOk State.reset ∧ PortsOk State.reset ∧ SettingsOk State.reset
end

