-- ==== Sys2Proof/Laws/State.lean ====
section
/-! SUPPORT. Reading one field of the state after one of its updates. -/

namespace Sys2Proof.Machine

/-! ## setPort -/

@[simp] theorem State.setPort_fmt (s : State) (d : Deck) (p : Port) : (s.setPort d p).fmt = s.fmt := rfl
@[simp] theorem State.setPort_now (s : State) (d : Deck) (p : Port) : (s.setPort d p).now = s.now := rfl
@[simp] theorem State.setPort_asserted (s : State) (d : Deck) (p : Port) : (s.setPort d p).asserted = s.asserted := rfl
@[simp] theorem State.setPort_ref (s : State) (d : Deck) (p : Port) : (s.setPort d p).ref = s.ref := rfl
@[simp] theorem State.setPort_clock (s : State) (d : Deck) (p : Port) : (s.setPort d p).clock = s.clock := rfl
@[simp] theorem State.setPort_due (s : State) (d : Deck) (p : Port) : (s.setPort d p).due = s.due := rfl
@[simp] theorem State.setPort_readers (s : State) (d : Deck) (p : Port) : (s.setPort d p).readers = s.readers := rfl
@[simp] theorem State.setPort_chase (s : State) (d : Deck) (p : Port) : (s.setPort d p).chase = s.chase := rfl
@[simp] theorem State.setPort_list (s : State) (d : Deck) (p : Port) : (s.setPort d p).list = s.list := rfl
@[simp] theorem State.setPort_edit (s : State) (d : Deck) (p : Port) : (s.setPort d p).edit = s.edit := rfl
@[simp] theorem State.setPort_run (s : State) (d : Deck) (p : Port) : (s.setPort d p).run = s.run := rfl
@[simp] theorem State.setPort_engine (s : State) (d : Deck) (p : Port) : (s.setPort d p).engine = s.engine := rfl
@[simp] theorem State.setPort_mixer (s : State) (d : Deck) (p : Port) : (s.setPort d p).mixer = s.mixer := rfl
@[simp] theorem State.setPort_gpi (s : State) (d : Deck) (p : Port) : (s.setPort d p).gpi = s.gpi := rfl
@[simp] theorem State.setPort_link (s : State) (d : Deck) (p : Port) : (s.setPort d p).link = s.link := rfl
@[simp] theorem State.setPort_set (s : State) (d : Deck) (p : Port) : (s.setPort d p).set = s.set := rfl
@[simp] theorem State.setPort_pending (s : State) (d : Deck) (p : Port) : (s.setPort d p).pending = s.pending := rfl

/-! ## setReader -/

@[simp] theorem State.setReader_fmt (s : State) (d : Deck) (r : Reader) : (s.setReader d r).fmt = s.fmt := rfl
@[simp] theorem State.setReader_now (s : State) (d : Deck) (r : Reader) : (s.setReader d r).now = s.now := rfl
@[simp] theorem State.setReader_asserted (s : State) (d : Deck) (r : Reader) : (s.setReader d r).asserted = s.asserted := rfl
@[simp] theorem State.setReader_ref (s : State) (d : Deck) (r : Reader) : (s.setReader d r).ref = s.ref := rfl
@[simp] theorem State.setReader_clock (s : State) (d : Deck) (r : Reader) : (s.setReader d r).clock = s.clock := rfl
@[simp] theorem State.setReader_due (s : State) (d : Deck) (r : Reader) : (s.setReader d r).due = s.due := rfl
@[simp] theorem State.setReader_ports (s : State) (d : Deck) (r : Reader) : (s.setReader d r).ports = s.ports := rfl
@[simp] theorem State.setReader_chase (s : State) (d : Deck) (r : Reader) : (s.setReader d r).chase = s.chase := rfl
@[simp] theorem State.setReader_list (s : State) (d : Deck) (r : Reader) : (s.setReader d r).list = s.list := rfl
@[simp] theorem State.setReader_edit (s : State) (d : Deck) (r : Reader) : (s.setReader d r).edit = s.edit := rfl
@[simp] theorem State.setReader_run (s : State) (d : Deck) (r : Reader) : (s.setReader d r).run = s.run := rfl
@[simp] theorem State.setReader_engine (s : State) (d : Deck) (r : Reader) : (s.setReader d r).engine = s.engine := rfl
@[simp] theorem State.setReader_mixer (s : State) (d : Deck) (r : Reader) : (s.setReader d r).mixer = s.mixer := rfl
@[simp] theorem State.setReader_gpi (s : State) (d : Deck) (r : Reader) : (s.setReader d r).gpi = s.gpi := rfl
@[simp] theorem State.setReader_link (s : State) (d : Deck) (r : Reader) : (s.setReader d r).link = s.link := rfl
@[simp] theorem State.setReader_set (s : State) (d : Deck) (r : Reader) : (s.setReader d r).set = s.set := rfl
@[simp] theorem State.setReader_pending (s : State) (d : Deck) (r : Reader) : (s.setReader d r).pending = s.pending := rfl

/-! ## setChan -/

@[simp] theorem State.setChan_fmt (s : State) (d : Deck) (c : Channel) : (s.setChan d c).fmt = s.fmt := rfl
@[simp] theorem State.setChan_now (s : State) (d : Deck) (c : Channel) : (s.setChan d c).now = s.now := rfl
@[simp] theorem State.setChan_asserted (s : State) (d : Deck) (c : Channel) : (s.setChan d c).asserted = s.asserted := rfl
@[simp] theorem State.setChan_ref (s : State) (d : Deck) (c : Channel) : (s.setChan d c).ref = s.ref := rfl
@[simp] theorem State.setChan_clock (s : State) (d : Deck) (c : Channel) : (s.setChan d c).clock = s.clock := rfl
@[simp] theorem State.setChan_due (s : State) (d : Deck) (c : Channel) : (s.setChan d c).due = s.due := rfl
@[simp] theorem State.setChan_readers (s : State) (d : Deck) (c : Channel) : (s.setChan d c).readers = s.readers := rfl
@[simp] theorem State.setChan_ports (s : State) (d : Deck) (c : Channel) : (s.setChan d c).ports = s.ports := rfl
@[simp] theorem State.setChan_list (s : State) (d : Deck) (c : Channel) : (s.setChan d c).list = s.list := rfl
@[simp] theorem State.setChan_edit (s : State) (d : Deck) (c : Channel) : (s.setChan d c).edit = s.edit := rfl
@[simp] theorem State.setChan_run (s : State) (d : Deck) (c : Channel) : (s.setChan d c).run = s.run := rfl
@[simp] theorem State.setChan_engine (s : State) (d : Deck) (c : Channel) : (s.setChan d c).engine = s.engine := rfl
@[simp] theorem State.setChan_mixer (s : State) (d : Deck) (c : Channel) : (s.setChan d c).mixer = s.mixer := rfl
@[simp] theorem State.setChan_gpi (s : State) (d : Deck) (c : Channel) : (s.setChan d c).gpi = s.gpi := rfl
@[simp] theorem State.setChan_link (s : State) (d : Deck) (c : Channel) : (s.setChan d c).link = s.link := rfl
@[simp] theorem State.setChan_set (s : State) (d : Deck) (c : Channel) : (s.setChan d c).set = s.set := rfl
@[simp] theorem State.setChan_pending (s : State) (d : Deck) (c : Channel) : (s.setChan d c).pending = s.pending := rfl

/-! ## tick -/

@[simp] theorem State.tick_fmt (s : State) (t : Time) : (s.tick t).fmt = s.fmt := rfl
@[simp] theorem State.tick_asserted (s : State) (t : Time) : (s.tick t).asserted = s.asserted := rfl
@[simp] theorem State.tick_ref (s : State) (t : Time) : (s.tick t).ref = s.ref := rfl
@[simp] theorem State.tick_clock (s : State) (t : Time) : (s.tick t).clock = s.clock := rfl
@[simp] theorem State.tick_due (s : State) (t : Time) : (s.tick t).due = s.due := rfl
@[simp] theorem State.tick_readers (s : State) (t : Time) : (s.tick t).readers = s.readers := rfl
@[simp] theorem State.tick_ports (s : State) (t : Time) : (s.tick t).ports = s.ports := rfl
@[simp] theorem State.tick_chase (s : State) (t : Time) : (s.tick t).chase = s.chase := rfl
@[simp] theorem State.tick_list (s : State) (t : Time) : (s.tick t).list = s.list := rfl
@[simp] theorem State.tick_edit (s : State) (t : Time) : (s.tick t).edit = s.edit := rfl
@[simp] theorem State.tick_run (s : State) (t : Time) : (s.tick t).run = s.run := rfl
@[simp] theorem State.tick_engine (s : State) (t : Time) : (s.tick t).engine = s.engine := rfl
@[simp] theorem State.tick_mixer (s : State) (t : Time) : (s.tick t).mixer = s.mixer := rfl
@[simp] theorem State.tick_gpi (s : State) (t : Time) : (s.tick t).gpi = s.gpi := rfl
@[simp] theorem State.tick_link (s : State) (t : Time) : (s.tick t).link = s.link := rfl
@[simp] theorem State.tick_set (s : State) (t : Time) : (s.tick t).set = s.set := rfl
@[simp] theorem State.tick_pending (s : State) (t : Time) : (s.tick t).pending = s.pending := rfl

@[simp] theorem State.tick_now (s : State) (t : Time) : (s.tick t).now = max s.now t := rfl

/-! ## One of six -/

@[simp] theorem State.port_setPort (s : State) (d : Deck) (p : Port) : (s.setPort d p).port d = p := by
  simp [State.port, State.setPort]

theorem State.port_setPort_ne (s : State) {d e : Deck} (p : Port) (h : e ≠ d) : (s.setPort d p).port e = s.port e := by
  have : d.val ≠ e.val := fun x => h (Fin.ext x.symm)
  simp [State.port, State.setPort, Vector.getElem_set_ne, this]

@[simp] theorem State.reader_setReader (s : State) (d : Deck) (r : Reader) : (s.setReader d r).reader d = r := by
  simp [State.reader, State.setReader]

theorem State.reader_setReader_ne (s : State) {d e : Deck} (r : Reader) (h : e ≠ d) :
    (s.setReader d r).reader e = s.reader e := by
  have : d.val ≠ e.val := fun x => h (Fin.ext x.symm)
  simp [State.reader, State.setReader, Vector.getElem_set_ne, this]

@[simp] theorem State.chan_setChan (s : State) (d : Deck) (c : Channel) : (s.setChan d c).chan d = c := by
  simp [State.chan, State.setChan]

theorem State.chan_setChan_ne (s : State) {d e : Deck} (c : Channel) (h : e ≠ d) : (s.setChan d c).chan e = s.chan e := by
  have : d.val ≠ e.val := fun x => h (Fin.ext x.symm)
  simp [State.chan, State.setChan, Vector.getElem_set_ne, this]

@[simp] theorem State.port_setReader (s : State) (d e : Deck) (r : Reader) : (s.setReader d r).port e = s.port e := rfl

@[simp] theorem State.port_setChan (s : State) (d e : Deck) (c : Channel) : (s.setChan d c).port e = s.port e := rfl

@[simp] theorem State.reader_setPort (s : State) (d e : Deck) (p : Port) : (s.setPort d p).reader e = s.reader e := rfl

@[simp] theorem State.reader_setChan (s : State) (d e : Deck) (c : Channel) : (s.setChan d c).reader e = s.reader e := rfl

@[simp] theorem State.chan_setPort (s : State) (d e : Deck) (p : Port) : (s.setPort d p).chan e = s.chan e := rfl

@[simp] theorem State.chan_setReader (s : State) (d e : Deck) (r : Reader) : (s.setReader d r).chan e = s.chan e := rfl

/-- Two states whose ports agree deck by deck have the same ports. -/
theorem State.ports_ext {s t : State} (h : ∀ d, s.port d = t.port d) : s.ports = t.ports := by
  apply Vector.ext
  intro i hi
  exact h ⟨i, hi⟩

end Sys2Proof.Machine
end

