-- ==== Sys2Proof/Laws/Steady.lean ====
section
/-! SUPPORT. What the operations shared by the blocks can do, said once: a steady move leaves the format, the times, the
reference unit, the house clock, the mixer line, the settings, the input queue and the queue of commands as they are, stores
and removes no event, and keeps the notice table, the engine's ranges and record protection. -/

namespace Sys2Proof.Laws

open Sys2Proof.Machine Sys2Proof.Safety

/-- The part of the link that a steady move leaves as it is. -/
def linkBase (l : Link) :=
  (l.rx, l.byteAt, l.input, l.dropped, l.mask, l.limit, l.restartAt, l.expired, l.recorder, l.resetPending, l.okAhead, l.tx)

/-- The part of the state that a steady move leaves as it is. -/
def base (s : State) :=
  (s.fmt, s.now, s.asserted, s.ref, s.clock, s.mixer, s.set, s.pending, s.due.clock, numbers s.list, linkBase s.link)

/-- A steady move from s to t. -/
structure Steady (s t : State) : Prop where
  base    : base t = base s
  notices : NoticesOk s.link.notices → NoticesOk t.link.notices
  engine  : EngineOk s.engine → EngineOk t.engine
  ports   : PortsOk s → PortsOk t

namespace Steady

theorem refl (s : State) : Steady s s := ⟨rfl, id, id, id⟩

theorem trans {s t u : State} (a : Steady s t) (b : Steady t u) : Steady s u :=
  ⟨b.base.trans a.base, b.notices ∘ a.notices, b.engine ∘ a.engine, b.ports ∘ a.ports⟩

/-- `trans` with the later move first, so that the state between is known when the earlier one is checked. -/
theorem after {s t u : State} (b : Steady t u) (a : Steady s t) : Steady s u := a.trans b

theorem ite {s t u : State} {p : Prop} [Decidable p] (a : Steady s t) (b : Steady s u) : Steady s (if p then t else u) := by
  split <;> assumption

theorem thenIf {s t u : State} {p : Prop} [Decidable p] (a : Steady s t) (b : Steady t u) : Steady s (if p then t else u) :=
  ite a (a.trans b)

theorem thenIte {s t u : State} {p : Prop} [Decidable p] (a : Steady s t) (b : Steady t u) : Steady s (if p then u else t) :=
  ite (a.trans b) a

theorem foldl {α : Type} (f : State → α → State) (h : ∀ s a, Steady s (f s a)) (l : List α) (s : State) :
    Steady s (l.foldl f s) := by
  induction l generalizing s with
  | nil => exact refl s
  | cons a l ih => exact (h s a).trans (ih _)

/-! ## Single fields -/

theorem edit (s : State) (e : Edit) : Steady s { s with edit := e } := ⟨rfl, id, id, id⟩

theorem run (s : State) (r : Run) : Steady s { s with run := r } := ⟨rfl, id, id, id⟩

theorem gpi (s : State) (g : Gpi) : Steady s { s with gpi := g } := ⟨rfl, id, id, id⟩

theorem due (s : State) (d : Due) (h : d.clock = s.due.clock) : Steady s { s with due := d } :=
  ⟨by simp [Laws.base, h], id, id, id⟩

theorem active (s : State) (n : Option Nat) : Steady s { s with list := { s.list with active := n } } := ⟨rfl, id, id, id⟩

theorem engineSet (s : State) (e : Engine) (h : EngineOk s.engine → EngineOk e) : Steady s { s with engine := e } :=
  ⟨rfl, id, h, id⟩

theorem setReader (s : State) (d : Deck) (r : Reader) : Steady s (s.setReader d r) := ⟨rfl, id, id, id⟩

theorem setChan (s : State) (d : Deck) (c : Channel) : Steady s (s.setChan d c) := ⟨rfl, id, id, id⟩

theorem setPort (s : State) (d : Deck) (p : Port) (h : PortOk (s.port d) → PortOk p) : Steady s (s.setPort d p) :=
  ⟨rfl, id, id, fun k e => by
    by_cases x : e = d
    · subst x; rw [State.port_setPort]; exact h (k e)
    · rw [State.port_setPort_ne s p x]; exact k e⟩

theorem link (s : State) (l : Link) (h : linkBase l = linkBase s.link) (k : l.notices = s.link.notices) :
    Steady s { s with link := l } :=
  ⟨by simp [Laws.base, h], fun x => by simpa [k] using x, id, id⟩

end Steady

/-! ## The notice table -/

theorem noticesOk_enter (kind : NoticeKind) (source : Nat) (content : List Val) (stamp : Nat)
    (k : (kind, source) ∈ noticePlaces) (l : List Notice) (h : NoticesOk l) :
    NoticesOk (noticeEnter kind source content stamp l) ∧
      ∀ x, x ∈ (noticeEnter kind source content stamp l).map pairOf ↔ x ∈ l.map pairOf ∨ x = (kind, source) := by
  induction l with
  | nil => exact ⟨⟨by simp [noticeEnter], by simpa [noticeEnter, pairOf] using k⟩, by simp [noticeEnter, pairOf]⟩
  | cons n l ih =>
    obtain ⟨hn, hm⟩ := h
    simp only [List.map_cons, List.nodup_cons] at hn
    have hl : NoticesOk l := ⟨hn.2, fun m hmem => hm m (List.mem_cons_of_mem _ hmem)⟩
    obtain ⟨⟨i1, i2⟩, i3⟩ := ih hl
    unfold noticeEnter
    by_cases e : n.kind = kind ∧ n.source = source
    · rw [if_pos e]
      have hp : pairOf n = (kind, source) := by simp [pairOf, e.1, e.2]
      refine ⟨⟨?_, ?_⟩, ?_⟩
      · simpa [pairOf] using hn
      · intro m hmem
        rcases List.mem_cons.mp hmem with rfl | hmem
        · refine ⟨hm n (by simp) |>.1, ?_, ?_⟩ <;> simp [sat8]
        · exact hl.2 m hmem
      · intro x
        simp only [List.map_cons, List.mem_cons]
        have hp' : pairOf { n with content := content, stamp := stamp, count := sat8 (n.count + 1) } = (kind, source) := hp
        rw [hp', hp]
        tauto
    · rw [if_neg e]
      have hne : pairOf n ≠ (kind, source) := fun x => e (by simpa [pairOf] using x)
      refine ⟨⟨?_, ?_⟩, ?_⟩
      · simp only [List.map_cons, List.nodup_cons]
        refine ⟨fun x => ?_, i1⟩
        rcases (i3 _).mp x with y | y
        · exact hn.1 y
        · exact hne y
      · intro m hmem
        rcases List.mem_cons.mp hmem with rfl | hmem
        · exact hm m (by simp)
        · exact i2 m hmem
      · intro x
        simp only [List.map_cons, List.mem_cons, i3]
        tauto

theorem place_deckPresence (d : Deck) : (NoticeKind.deckPresence, Deck.num d) ∈ noticePlaces := by revert d; decide

theorem place_deckStatus (d : Deck) : (NoticeKind.deckStatus, Deck.num d) ∈ noticePlaces := by revert d; decide

theorem place_readerState (d : Deck) : (NoticeKind.readerState, Deck.num d) ∈ noticePlaces := by revert d; decide

theorem place_chaseState (d : Deck) : (NoticeKind.chaseState, Deck.num d) ∈ noticePlaces := by revert d; decide

theorem place_gpiTrigger (o : GpiNo) : (NoticeKind.gpiTrigger, o.val + 1) ∈ noticePlaces := by revert o; decide

namespace Steady

theorem enter (s : State) (k : NoticeKind) (n : Nat) (c : List Val) (h : (k, n) ∈ noticePlaces) : Steady s (s.enter k n c) := by
  unfold State.enter
  split
  · exact refl s
  · exact ⟨rfl, fun x => (noticesOk_enter k n c _ h _ x).1, id, id⟩

theorem reply (s : State) (k t : Byte) (v : List Val) : Steady s (s.reply k t v) := link _ _ rfl rfl

theorem ok (s : State) (r : Request) (v : List Val) : Steady s (s.ok r v) := reply _ _ _ _

theorem refuse (s : State) (r : Request) (x : Result) : Steady s (s.refuse r x) := reply _ _ _ _

/-! ## Readers and the arbiter -/

theorem readerSource (s : State) (d : Deck) (r : Reader) (c : ReaderCause) : Steady s (s.readerSource d r c) := by
  unfold State.readerSource
  dsimp only
  split
  · exact setReader s d r
  · exact (setReader s d r).trans (enter _ _ _ _ (place_readerState d))

theorem readerDeckLost (s : State) (d : Deck) : Steady s (s.readerDeckLost d) := readerSource _ _ _ _

theorem readerTime (s : State) (d : Deck) (n a : Nat) : Steady s (s.readerTime d n a) := by
  unfold State.readerTime
  dsimp only
  split
  · exact setReader _ _ _
  · split
    · exact readerSource _ _ _ _
    · exact refl s
  · exact refl s
  · exact refl s

theorem setPhase (s : State) (p : Phase) : Steady s (s.setPhase p) := by
  unfold State.setPhase
  dsimp only
  split
  · exact refl s
  · exact (edit s _).trans (enter _ _ _ _ (by decide))

theorem toldRecordOn (s : State) : Steady s s.toldRecordOn := edit _ _

theorem toldRecordOff (s : State) : Steady s s.toldRecordOff := (edit s _).trans (setPhase _ _)

theorem toldEmergencyOff (s : State) : Steady s s.toldEmergencyOff := by
  unfold State.toldEmergencyOff
  split
  · exact (edit s _).trans (setPhase _ _)
  · exact refl s

theorem toldSequencer (s : State) (c : DeckCmd) : Steady s (s.toldSequencer c) := by
  unfold State.toldSequencer
  split
  · exact toldRecordOn s
  · exact toldRecordOn s
  · exact toldRecordOff s
  · exact refl s

theorem toldChannel (s : State) (d : Deck) (g : Nat) (c : DeckCmd) : Steady s (s.toldChannel d g c) := by
  unfold State.toldChannel
  dsimp only
  split
  · split
    · exact setChan _ _ _
    · exact setChan _ _ _
    · exact refl s
  · exact refl s

theorem told (s : State) (d : Deck) (f : Flight) : Steady s (s.told d f) := by
  unfold State.told
  split
  · exact refl s
  · split
    · exact toldSequencer _ _
    · exact toldChannel _ _ _ _
    · exact toldEmergencyOff _
    · exact refl s
    · exact refl s
    · exact refl s

end Steady

/-! ## The pick of the arbiter -/

/-- What the arbiter picks leaves the port protected, and is a command that may be handed. -/
theorem pick_ok (p : Port) (h : PortOk p) (x : Flight) (q : Port) (e : p.pick = some (x, q)) :
    PortOk q ∧ (!x.cmd.isRecord || Origin.mayRecord x.origin) = true := by
  obtain ⟨h1, h2, h3, h4⟩ := h
  unfold Port.pick at e
  split at e
  · split at e <;> simp only [Option.some.injEq, Prod.mk.injEq] at e <;> obtain ⟨rfl, rfl⟩ := e
    · exact ⟨⟨h1, h2, h3, h4⟩, rfl⟩
    · exact ⟨⟨h1, h2, h3, h4⟩, rfl⟩
  · split at e
    · simp at e
    · unfold Port.pickLower at e
      split at e
      · simp only [Option.some.injEq, Prod.mk.injEq] at e; obtain ⟨rfl, rfl⟩ := e
        exact ⟨⟨h1, h2, h3, h4⟩, by simp [Origin.mayRecord]⟩
      · simp only [Option.some.injEq, Prod.mk.injEq] at e; obtain ⟨rfl, rfl⟩ := e
        exact ⟨⟨h1, h2, h3, h4⟩, by simp [Origin.mayRecord]⟩
      · next c _ hs =>
        simp only [Option.some.injEq, Prod.mk.injEq] at e; obtain ⟨rfl, rfl⟩ := e
        refine ⟨⟨rfl, h2, h3, h4⟩, ?_⟩
        simp_all
      · split at e
        · simp at e
        · split at e
          · simp only [Option.some.injEq, Prod.mk.injEq] at e; obtain ⟨rfl, rfl⟩ := e
            refine ⟨⟨h1, rfl, h3, h4⟩, ?_⟩
            simp_all
          · simp only [Option.some.injEq, Prod.mk.injEq] at e; obtain ⟨rfl, rfl⟩ := e
            refine ⟨⟨h1, h2, rfl, h4⟩, ?_⟩
            simp_all
          · simp at e

theorem clampSpeed_isRecord (p : Port) (c : DeckCmd) : (p.clampSpeed c).isRecord = c.isRecord := by
  cases c <;> rfl

theorem sending_ok (p : Port) (f : SuiteFormat) (x : Flight) (h : PortOk p)
    (k : (!x.cmd.isRecord || Origin.mayRecord x.origin) = true) : PortOk (p.sending f x) := by
  obtain ⟨h1, h2, h3, _⟩ := h
  unfold Port.sending
  dsimp only
  split <;> exact ⟨h1, h2, h3, by simpa using k⟩

namespace Steady

theorem handLine (s : State) (d : Deck) : Steady s (s.handLine d) := by
  unfold State.handLine
  dsimp only
  split
  · split
    · next x q e =>
      refine (setPort s d _ fun h => ?_).trans (told _ _ _)
      obtain ⟨a, b⟩ := pick_ok _ h x q e
      exact sending_ok _ _ _ a (by simpa [clampSpeed_isRecord] using b)
    · exact refl s
  · exact refl s

theorem putSeq (s : State) (d : Deck) (c : DeckCmd) : Steady s (s.putSeq d c) := setPort _ _ _ id

theorem putServo (s : State) (d : Deck) (c : DeckCmd) (h : c.isRecord = false) : Steady s (s.putServo d c) :=
  setPort _ _ _ fun k => ⟨by simp [h], k.2⟩

theorem chanFailed (s : State) (d : Deck) (g l : Nat) (c : DeckCmd) : Steady s (s.chanFailed d g l c) := by
  unfold State.chanFailed
  dsimp only
  split
  · split
    · split
      · exact setChan _ _ _
      · exact refl s
    · exact setChan _ _ _
    · exact setChan _ _ _
    · exact refl s
  · exact refl s

theorem passAborted (s : State) (c : PassCmd) : Steady s (s.passAborted c) := reply _ _ _ _

theorem postEmergency (s : State) (d : Deck) (a b : Bool) : Steady s (s.postEmergency d a b) := by
  unfold State.postEmergency
  have x : Steady s (s.setPort d ((s.port d).withEmergency s.edit a b)) :=
    setPort s d _ fun h => ⟨rfl, rfl, h.2.2⟩
  have y (u : State) : Steady u (match (s.port d).servo with
      | some c => u.chanFailed d c.gen c.loc c.cmd
      | none => u) := by split; exacts [chanFailed _ _ _ _ _, refl _]
  have z (u : State) : Steady u (match (s.port d).pass with
      | some c => u.passAborted c
      | none => u) := by split; exacts [passAborted _ _, refl _]
  exact ((x.trans (y _)).trans (z _)).trans (handLine _ d)

/-! ## Withdrawals, clears and the abort -/

theorem engineMove (s : State) (e : Engine) (c : TransCause) (h : EngineOk s.engine → EngineOk e) : Steady s (s.engineMove e c) :=
  (engineSet s e h).trans (enter _ _ _ _ (by decide))

theorem engineWithdraw (s : State) : Steady s s.engineWithdraw := by
  unfold State.engineWithdraw
  dsimp only
  split
  · next h => exact engineMove _ _ _ fun k => ⟨k.1, k.2.1, k.2.2.1, k.2.2.2.1, k.2.2.2.2.1, fun _ => k.2.2.2.2.2 (.inr h)⟩
  · exact engineSet _ _ id

theorem engineAbort (s : State) : Steady s s.engineAbort := by
  unfold State.engineAbort
  dsimp only
  split
  · next h => exact engineMove _ _ _ fun k => ⟨k.1, k.2.1, k.2.2.1, k.2.2.2.1, k.2.2.2.2.1, fun _ => k.2.2.2.2.2 (.inr h)⟩
  · split
    · exact engineMove _ _ _ fun k => ⟨k.1, k.2.1, k.2.2.1, k.2.2.2.1, k.2.2.2.2.1, by simp⟩
    · exact engineSet _ _ id

theorem gpiDisarm (s : State) : Steady s s.gpiDisarm := gpi _ _

theorem warn (s : State) (f : Warnings → Warnings) : Steady s (s.warn f) := ite (edit _ _) (refl s)

theorem leftLocked (s : State) (a b : Channel) : Steady s (s.leftLocked a b) := ite (warn _ _) (refl s)

theorem chanMove (s : State) (d : Deck) (c : Channel) (x : ChaseCause) : Steady s (s.chanMove d c x) :=
  ((setChan s d c).trans (enter _ _ _ _ (place_chaseState d))).trans (leftLocked _ _ _)

theorem dropServo_ok (p : Port) (h : PortOk p) : PortOk p.dropServo := by
  refine ⟨?_, h.2⟩
  have k := h.1
  unfold Port.dropServo
  cases e : p.servo <;> simp_all [Option.filter]
  split <;> simp_all

theorem clearChan (s : State) (d : Deck) (c : ChaseCause) : Steady s (s.clearChan d c) := by
  unfold State.clearChan
  refine ite (refl s) ?_
  exact ((setPort s d _ (dropServo_ok _)).trans (setChan _ _ _)).trans (enter _ _ _ _ (place_chaseState d))

theorem setClaim (s : State) (d : Deck) (c : Claim) : Steady s (s.setClaim d c) := setPort _ _ _ id

theorem clearLink (s : State) (d : Deck) (c : ChaseCause) : Steady s (s.clearLink d c) :=
  ite ((clearChan _ _ _).trans (setClaim _ _ _)) (refl s)

theorem clearEditChans (s : State) : Steady s s.clearEditChans := foldl _ (fun _ _ => ite (clearChan _ _ _) (refl _)) _ _

theorem closeWindow (s : State) : Steady s s.closeWindow := ite (setPort _ _ _ id) (refl s)

theorem abort (s : State) (c : Reason) : Steady s (s.abort c) := by
  unfold State.abort
  refine ite ?_ (refl s)
  refine thenIf ?_ (setPhase _ _)
  exact (((((edit s _).trans (clearEditChans _)).trans (gpiDisarm _)).trans (engineAbort _)).trans
    (foldl (fun s d => s.postEmergency d true false) (fun _ _ => postEmergency _ _ _ _) _ _)).trans (closeWindow _)

theorem silenceCheck (s : State) : Steady s s.silenceCheck := by
  unfold State.silenceCheck
  dsimp only
  refine ite ?_ (refl s)
  have a : Steady s { s with link := { s.link with stopTaken := true } } := link s _ rfl rfl
  exact (a.trans (abort _ _)).trans (enter _ _ _ _ (by decide))

theorem hand (s : State) (d : Deck) : Steady s (s.hand d) := (handLine s d).trans (silenceCheck _)

theorem postSeq (s : State) (d : Deck) (c : DeckCmd) : Steady s (s.postSeq d c) := (putSeq s d c).trans (hand _ _)

theorem postServo (s : State) (d : Deck) (c : DeckCmd) (h : c.isRecord = false) : Steady s (s.postServo d c) :=
  (putServo s d c h).trans (hand _ _)

/-! ## The fault of a channel and the loss of a deck -/

theorem editChanFault (s : State) (r : ChaseFault) : Steady s (s.editChanFault r) := by
  cases r <;> first | exact abort _ _ | exact ite (ite (warn _ _) (refl _)) (abort _ _)

theorem chaseFault (s : State) (d : Deck) (r : ChaseFault) : Steady s (s.chaseFault d r) := by
  unfold State.chaseFault
  refine ite ?_ (refl s)
  have a := chanMove s d
    { s.chan d with st := .fault, fault := some r, speed := none, relocate := false, replay := false } .fault
  exact (a.trans (ite (refl _) (postServo _ _ _ rfl))).trans (ite (editChanFault _ _) (refl _))

theorem presenceMove (s : State) (d : Deck) (p : Port) (c : PresenceCause) (h : PortOk (s.port d) → PortOk p) :
    Steady s (s.presenceMove d p c) := (setPort s d p h).trans (enter _ _ _ _ (place_deckPresence d))

theorem putIdentify (s : State) (d : Deck) : Steady s (s.putIdentify d) :=
  setPort _ _ _ fun h => by
    refine ⟨h.1, h.2.1, ?_, h.2.2.2⟩
    have := h.2.2.1
    cases e : (s.port d).poll <;> simp_all [DeckCmd.isRecord]

theorem chaseDeckLost (s : State) (d : Deck) : Steady s (s.chaseDeckLost d) :=
  (chaseFault s d _).trans (foldl _ (fun _ _ => ite (chaseFault _ _ _) (refl _)) _ _)

theorem editDeckLost (s : State) (d : Deck) : Steady s (s.editDeckLost d) := ite (abort _ _) (refl s)

theorem deckLost (s : State) (d : Deck) (p : Presence) (c : PresenceCause) : Steady s (s.deckLost d p c) := by
  unfold State.deckLost
  dsimp only
  refine Steady.trans ?_ (editDeckLost _ d)
  refine Steady.trans ?_ (chaseDeckLost _ d)
  refine Steady.trans ?_ (readerDeckLost _ d)
  exact presenceMove _ _ _ _ fun h => h

theorem countFailure (s : State) (d : Deck) : Steady s (s.countFailure d) := by
  unfold State.countFailure
  refine ite ((setPort s d _ ?_).trans (ite (((deckLost _ _ _ _).trans (putIdentify _ _)).trans (hand _ _)) (refl _))) (refl s)
  exact id

end Steady

end Sys2Proof.Laws
end

