-- ==== Sys2Proof/Laws/Edits.lean ====
section
/-! SUPPORT. Steady moves of the sequencer, the run cursor, the deck ports and the chase channels. -/

namespace Sys2Proof.Laws.Steady

open Sys2Proof.Machine Sys2Proof.Safety

/-! ## The event list under writes of kept fields -/

theorem numbers_modify (l : EventList) (n : Nat) (f : Event → Event) : numbers (l.modify n f) = numbers l := by
  unfold numbers EventList.modify
  rw [List.map_map]
  refine List.map_congr_left fun x _ => ?_
  by_cases h : x.1 = n <;> simp [h]

theorem modify (s : State) (n : Nat) (f : Event → Event) : Steady s { s with list := s.list.modify n f } :=
  ⟨by simp [Laws.base, numbers_modify], id, id, id⟩

theorem numbers_find (l : EventList) (n : Nat) : (l.get n).isSome = true → n ∈ numbers l := by
  unfold EventList.get numbers
  cases h : l.events.find? fun x => x.1 == n with
  | none => simp
  | some x =>
    have := List.find?_some h
    have m := List.mem_of_find?_eq_some h
    intro _
    exact List.mem_map.mpr ⟨x, m, by simpa using this⟩

/-! ## The beginning of an edit -/

theorem enterClaim (s : State) (n : Nat) (ev : EventFields) (m : EditMode) : Steady s (s.enterClaim n ev m) :=
  ((active s (some n)).trans (edit _ _)).trans (setPhase _ _)

theorem cancelChases (s : State) (a b : List Deck) : Steady s (s.cancelChases a b) :=
  foldl _ (fun _ _ => ite (clearLink _ _ _) (refl _)) _ _

theorem claim (s : State) (ev : EventFields) (m : EditMode) : Steady s (s.claim ev m) := by
  unfold State.claim
  dsimp only
  refine Steady.trans ?_ (setPhase _ _)
  refine Steady.trans ?_ (foldl _ ?_ _ _)
  · refine Steady.trans ?_ (edit _ _)
    exact (cancelChases _ _ _).trans (foldl _ (fun _ _ => setClaim _ _ _) _ _)
  · intro s d
    split
    · exact postSeq _ _ _
    · exact refl _

/-! ## The end of an edit and the run -/

/-- The edit context is cleared, and the engine's reports are no longer taken (R124, R154). -/
theorem dropEdit (s : State) : Steady s { s with edit := Edit.idle, engine := { s.engine with live := false } } :=
  ⟨rfl, id, id, id⟩

theorem endEdit (s : State) : Steady s s.endEdit := by
  unfold State.endEdit
  dsimp only
  split
  · exact refl s
  · next n _ _ =>
    refine Steady.trans ?_ (dropEdit _)
    refine Steady.trans ?_ (setPhase _ _)
    refine Steady.trans ?_ (enter _ _ _ _ (by decide))
    refine Steady.trans ?_ (foldl _ (fun _ _ => setClaim _ _ _) _ _)
    exact (modify s n _).trans (active _ none)

theorem startEdit (s : State) (n : Nat) (m : EditMode) : Steady s (s.startEdit n m) := by
  unfold State.startEdit
  split
  · exact refl s
  · dsimp only
    split
    · exact (enterClaim _ _ _ _).trans (claim _ _ _)
    · refine Steady.trans ?_ (endEdit _)
      refine Steady.trans ?_ (setPhase _ _)
      exact (enterClaim _ _ _ _).trans (edit _ _)

theorem runMove (s : State) (r : Run) (w : RunReason) : Steady s (s.runMove r w) :=
  (run s r).trans (enter _ _ _ _ (by decide))

theorem runHold (s : State) (h : HoldReason) (w : RunReason) : Steady s (s.runHold h w) := runMove _ _ _

theorem runTake (s : State) (n : Nat) (w : RunReason) : Steady s (s.runTake n w) := by
  unfold State.runTake
  dsimp only
  refine ite ((run s _).trans (runHold _ _ _)) ?_
  have a (x : Run) (y : EditMode) : Steady s ((s.runMove x w).startEdit n y) := (runMove _ _ _).trans (startEdit _ _ _)
  exact ite ((a _ _).trans (runHold _ _ _)) (a _ _)

theorem runAdvance (s : State) : Steady s s.runAdvance := by
  unfold State.runAdvance
  dsimp only
  split
  · exact runTake _ _ _
  · refine ite ?_ (runMove _ _ _)
    split
    · exact (run s _).trans (runTake _ _ _)
    · exact runMove _ _ _

theorem runAfter (s : State) (x : EventStatus) : Steady s (s.runAfter x) := by
  unfold State.runAfter
  split <;> first | exact runHold _ _ _ | exact runAdvance _ | exact runMove _ _ _ | exact refl _

theorem finish (s : State) : Steady s s.finish := ite ((endEdit _).trans (runAfter _ _)) (refl s)

theorem stopDone (s : State) (d : Deck) : Steady s (s.stopDone d) := (edit s _).trans (finish _)

theorem endRun (s : State) (w : RunReason) : Steady s (s.endRun w) := ite (runMove _ _ _) (refl s)

/-! ## Outcomes of deck commands -/

theorem takeStatus (s : State) (d : Deck) (f : BitVec 10) : Steady s (s.takeStatus d f) := by
  unfold State.takeStatus
  dsimp only
  refine ite ?_ (refl s)
  have a : Steady s (s.setPort d { s.port d with flags := some f, age := 0, fresh := true }) := setPort _ _ _ fun h => h
  exact ite a (a.trans (enter _ _ _ _ (place_deckStatus d)))

theorem takeIdent (s : State) (d : Deck) (i : Identity) : Steady s (s.takeIdent d i) := by
  unfold State.takeIdent
  dsimp only
  split
  · exact presenceMove _ _ _ _ fun h => h
  · exact ite (refl s) (presenceMove _ _ _ _ fun h => h)
  · exact refl s

theorem takeData (s : State) (d : Deck) (x : DataReply) : Steady s (s.takeData d x) := by
  cases x with
  | status f => exact takeStatus _ _ _
  | time l => exact ite (readerTime _ _ _ _) (refl s)
  | ident i => exact takeIdent _ _ _

theorem seqOutcome (s : State) (d : Deck) (c : DeckCmd) (o : CmdOutcome DataReply) : Steady s (s.seqOutcome d c o) := by
  unfold State.seqOutcome
  dsimp only
  refine ite (refl s) ?_
  split
  · exact ite (abort _ _) (ite (refl s) (ite (edit _ _) (edit _ _)))
  · exact ite (abort _ _) (ite (edit _ _) (refl s))
  · exact ite (abort _ _) (ite (abort _ _) (refl s))
  · exact ite (abort _ _) (ite (abort _ _) (refl s))
  · exact stopDone _ _
  · exact refl s

theorem chaseOutcome (s : State) (d : Deck) (g l : Nat) (c : DeckCmd) (o : CmdOutcome DataReply) :
    Steady s (s.chaseOutcome d g l c o) := by
  unfold State.chaseOutcome
  dsimp only
  refine ite (ite (chaseFault _ _ _) (ite (chanFailed _ _ _ _ _) ?_)) (refl s)
  split
  · exact setChan _ _ _
  · exact refl s

theorem emergencyDone (s : State) (d : Deck) (a b : Bool) : Steady s (s.emergencyDone d a b) := by
  unfold State.emergencyDone
  dsimp only
  have x : Steady s (if b = true then { s with link := { s.link with safe := s.link.safe.map (·.filter (· ≠ d)) } } else s) :=
    ite (link s _ rfl rfl) (refl s)
  exact ite (x.trans (stopDone _ _)) x

theorem handBack (s : State) (d : Deck) (x : Flight) (o : CmdOutcome DataReply) (b : List Byte) :
    Steady s (s.handBack d x o b) := by
  unfold State.handBack
  split
  · exact refl s
  · exact emergencyDone _ _ _ _
  · exact ite (refl s) (seqOutcome _ _ _ _)
  · exact ite (refl s) (chaseOutcome _ _ _ _ _ _)
  · exact reply _ _ _ _
  · exact refl s

theorem countOutcome (s : State) (d : Deck) (o : CmdOutcome DataReply) : Steady s (s.countOutcome d o) := by
  unfold State.countOutcome
  dsimp only
  exact ite (countFailure _ _) (setPort _ _ _ fun h => h)

/-- R55 for an outcome that is no failure: the reason of a NAKED one is stored, and the count of a PRESENT deck cleared. -/
theorem countOutcome_port (s : State) (d : Deck) (o : CmdOutcome DataReply) (h : o.isFailure = false) :
    s.countOutcome d o = s.setPort d { s.port d with
      fails := if (s.port d).presence = .present then 0 else (s.port d).fails, nak := o.nakOr (s.port d).nak } := by
  simp [State.countOutcome, h]

theorem outcome (s : State) (d : Deck) (o : CmdOutcome DataReply) (b : List Byte) : Steady s (s.outcome d o b) := by
  unfold State.outcome
  split
  · exact refl s
  · dsimp only
    refine Steady.trans ?_ (countOutcome _ _ _)
    refine Steady.trans ?_ (handBack _ _ _ _ _)
    have a : Steady s (s.setPort d { s.port d with flight := none, rx := none }) :=
      setPort _ _ _ fun h => ⟨h.1, h.2.1, h.2.2.1, rfl⟩
    split
    · exact a.trans (takeData _ _ _)
    · exact a

theorem endCommand (s : State) (d : Deck) (t : Time) (o : CmdOutcome DataReply) (b : List Byte) :
    Steady s (s.endCommand d t o b) := by
  unfold State.endCommand
  dsimp only
  split
  · exact after (setPort _ _ _ fun h => h) (outcome _ _ _ _)
  · exact after (setPort _ _ _ fun h => h) (outcome _ _ _ _)
  · exact after (hand _ _) (after (setPort _ _ _ fun h => h) (outcome _ _ _ _))

/-! ## Bytes of a deck line, timers, attach -/

theorem replyByte (s : State) (d : Deck) (t : Time) (c : LineChar) : Steady s (s.replyByte d t c) := by
  unfold State.replyByte
  dsimp only
  have a (p : Port) (h : PortOk (s.port d) → PortOk p) : Steady s (s.setPort d p) := setPort s d p h
  exact ite (after (endCommand _ _ _ _ _) (a _ fun h => h)) (ite (after (endCommand _ _ _ _ _) (a _ fun h => h)) (a _ fun h => h))

theorem strayByte (s : State) (d : Deck) (t : Time) (c : LineChar) : Steady s (s.strayByte d t c) := by
  unfold State.strayByte
  dsimp only
  exact ite (after (countFailure _ _) (setPort _ _ _ fun h => h)) (setPort _ _ _ fun h => h)

theorem lateByte (s : State) (d : Deck) (t : Time) (c : LineChar) : Steady s (s.lateByte d t c) := by
  unfold State.lateByte
  dsimp only
  split
  · exact setPort _ _ _ fun h => h
  · exact ite (after (countFailure _ _) (setPort _ _ _ fun h => h)) (setPort _ _ _ fun h => h)

theorem portByte (s : State) (d : Deck) (t : Time) (c : LineChar) : Steady s (s.portByte d t c) := by
  unfold State.portByte
  dsimp only
  refine ite (refl s) ?_
  split
  · exact replyByte _ _ _ _
  · exact ite (strayByte _ _ _ _) (replyByte _ _ _ _)
  · exact ite (strayByte _ _ _ _) (lateByte _ _ _ _)
  · exact strayByte _ _ _ _
  · exact strayByte _ _ _ _

theorem portBytes (s : State) (d : Deck) (t : Time) (cs : List LineChar) : Steady s (s.portBytes d t cs) :=
  foldl _ (fun _ _ => portByte _ _ _ _) _ _

theorem breakStray (s : State) (d : Deck) : Steady s (s.breakStray d) :=
  ite (after (countFailure _ _) (setPort _ _ _ fun h => h)) (refl s)

theorem breakLate (s : State) (d : Deck) : Steady s (s.breakLate d) := by
  unfold State.breakLate
  dsimp only
  split
  · exact ite (refl s) (after (countFailure _ _) (setPort _ _ _ fun h => h))
  · exact refl s

theorem frameStart_ok (p : Port) (x : Bool) (h : PortOk p) : PortOk (p.frameStart x) := by
  unfold Port.frameStart
  dsimp only
  split
  · refine ⟨h.1, h.2.1, ?_, h.2.2.2⟩
    dsimp only
    split <;> rfl
  · exact h

/-! ## Requests of the ports -/

theorem emptySlots (s : State) (d : Deck) : Steady s (s.emptySlots d) := by
  unfold State.emptySlots
  dsimp only
  have a : Steady s (s.setPort d
      { s.port d with seqSlot := { first := none, second := none }, servo := none, pass := none, poll := none }) :=
    setPort _ _ _ fun h => ⟨rfl, rfl, rfl, h.2.2.2⟩
  split
  · exact a.trans (passAborted _ _)
  · exact a

theorem disablePort (s : State) (d : Deck) : Steady s (s.disablePort d) := by
  unfold State.disablePort
  dsimp only
  have a : Steady s ((s.setPort d { s.port d with enabled := false, attachAt := none }).emptySlots d) :=
    after (emptySlots _ _) (setPort _ _ _ fun h => h)
  have b (u : State) : Steady u (u.presenceMove d { u.port d with presence := .disabled } .disabled) :=
    presenceMove _ _ _ _ fun h => h
  exact ite (a.trans (deckLost _ _ _ _)) (a.trans (b _))

theorem enablePort (s : State) (d : Deck) : Steady s (s.enablePort d) := by
  unfold State.enablePort
  exact after (hand _ _) (after (putIdentify _ _) (presenceMove s d _ _ fun h => h))

/-! ## The sample of a channel -/

theorem chanNote (s : State) (d : Deck) (o : Channel) (c : ChaseCause) : Steady s (s.chanNote d o c) :=
  (enter _ _ _ _ (place_chaseState d)).trans (leftLocked _ _ _)

theorem followLocate (s : State) (d : Deck) (n : Nat) : Steady s (s.followLocate d n) := by
  unfold State.followLocate
  dsimp only
  have a (c : Channel) : Steady s ((s.setChan d c).postServo d (.locate n)) := (setChan _ _ _).trans (postServo _ _ _ rfl)
  exact ite (a _) ((a _).trans (chanNote _ _ _ _))

theorem leadSeek (s : State) (d : Deck) (n : Nat) : Steady s (s.leadSeek d n) := by
  unfold State.leadSeek
  dsimp only
  exact ite (chaseFault _ _ _) (((setChan _ _ _).trans (postServo _ _ _ rfl)).trans (chanNote _ _ _ _))

theorem roll (s : State) (d : Deck) : Steady s (s.roll d) :=
  ((setChan _ _ _).trans (postServo _ _ _ rfl)).trans (chanNote _ _ _ _)

theorem followTest (s : State) (d : Deck) (x : Sample) : Steady s (s.followTest d x) := by
  unfold State.followTest
  split
  · exact ite (followLocate _ _ _) (refl s)
  · exact refl s

theorem parkedRule (s : State) (d : Deck) (x : Sample) : Steady s (s.parkedRule d x) := by
  unfold State.parkedRule
  dsimp only
  refine ite (followTest _ _ _) ?_
  split
  · exact ite (leadSeek _ _ _) (ite (Steady.roll _ _) (refl s))
  · exact refl s

theorem seekRule (s : State) (d : Deck) (x : Sample) : Steady s (s.seekRule d x) := by
  unfold State.seekRule
  dsimp only
  refine ite ((chanMove _ _ _ _).trans (parkedRule _ _ _)) (ite (followTest _ _ _) ?_)
  split
  · exact ite (leadSeek _ _ _) (refl s)
  · exact refl s

theorem drive (s : State) (d : Deck) (e : Int) : Steady s (s.drive d e) := ite (refl s) (postServo _ _ _ rfl)

theorem positionLost (s : State) (d : Deck) : Steady s (s.positionLost d) := chanMove _ _ _ _

theorem windowTest (s : State) (d : Deck) (e : Int) : Steady s (s.windowTest d e) :=
  ite (ite (chanMove _ _ _ _) (setChan _ _ _)) (setChan _ _ _)

theorem varispeedRule (s : State) (d : Deck) (x : Sample) : Steady s (s.varispeedRule d x) := by
  unfold State.varispeedRule
  dsimp only
  refine ite (followTest _ _ _) ?_
  split
  · exact positionLost _ _
  · exact ite (leadSeek _ _ _) ((drive _ _ _).trans (windowTest _ _ _))
  · exact setChan _ _ _

theorem unlockTest (s : State) (d : Deck) (e : Int) : Steady s (s.unlockTest d e) :=
  ite (ite (chanMove _ _ _ _) (setChan _ _ _)) (setChan _ _ _)

theorem lockedRule (s : State) (d : Deck) (x : Sample) : Steady s (s.lockedRule d x) := by
  unfold State.lockedRule
  dsimp only
  refine ite (followTest _ _ _) ?_
  split
  · exact positionLost _ _
  · exact ite ((chanMove _ _ _ _).trans (drive _ _ _)) (ite (leadSeek _ _ _) ((drive _ _ _).trans (unlockTest _ _ _)))
  · exact chanMove _ _ _ _

theorem rollingRule (s : State) (d : Deck) (x : Sample) : Steady s (s.rollingRule d x) := by
  unfold State.rollingRule
  dsimp only
  exact ite (followTest _ _ _) (ite ((chanMove _ _ _ _).trans (varispeedRule _ _ _))
    (ite ((setChan _ _ _).trans (chaseFault _ _ _)) (setChan _ _ _)))

theorem repost (s : State) (d : Deck) : Steady s (s.repost d) := by
  unfold State.repost
  dsimp only
  split
  · exact (setChan _ _ _).trans (postServo _ _ _ rfl)
  · exact (setChan _ _ _).trans (postServo _ _ _ rfl)
  · exact setChan _ _ _

theorem chaseRule (s : State) (d : Deck) (x : Sample) : Steady s (s.chaseRule d x) := by
  unfold State.chaseRule
  split
  · exact seekRule _ _ _
  · exact parkedRule _ _ _
  · exact rollingRule _ _ _
  · exact varispeedRule _ _ _
  · exact lockedRule _ _ _
  · exact refl s
  · exact refl s

theorem sample (s : State) (d : Deck) : Steady s (s.sample d) := by
  unfold State.sample
  dsimp only
  have a (v : Vector Nat 6) : Steady s { s with due := { s.due with chase := v } } := due s _ rfl
  refine ite ?_ (a _)
  refine Steady.trans ?_ (repost _ _)
  refine Steady.trans ?_ (chaseRule _ _ _)
  exact (a _).trans (setChan _ _ _)

theorem linkChase (s : State) (d : Deck) (m : Master) (o : Int) : Steady s (s.linkChase d m o) := by
  unfold State.linkChase
  dsimp only
  refine Steady.trans ?_ (enter _ _ _ _ (place_chaseState d))
  refine Steady.trans ?_ (setChan _ _ _)
  exact after (setPort _ _ _ (dropServo_ok _)) (due s _ rfl)

theorem reclampServo (s : State) (d : Deck) : Steady s (s.reclampServo d) := by
  unfold State.reclampServo
  dsimp only
  split
  · exact setPort _ _ _ fun h => ⟨rfl, h.2⟩
  · exact refl s

theorem idleLead (s : State) (d : Deck) : Steady s (s.idleLead d) := ite (setChan _ _ _) (refl s)

/-! ## The frame start of the sequencer -/

theorem armed_ok (e : Engine) (p : Plan) (h : EngineOk e) : EngineOk (e.armed p) :=
  ⟨Nat.zero_le _, h.2.1, h.2.2.1, trivial, h.2.2.2.2.1, fun _ => rfl⟩

theorem startChase (s : State) (d : Deck) (o : Int) (c : Nat) : Steady s (s.startChase d o c) := by
  unfold State.startChase
  dsimp only
  exact after (enter _ _ _ _ (place_chaseState d)) (after (setChan _ _ _) (due s _ rfl))

theorem startSource (s : State) (d : Option Deck) (o : Option Int) (c : Option Nat) : Steady s (s.startSource d o c) := by
  unfold State.startSource
  split
  · exact startChase _ _ _ _
  · exact refl s

theorem handOffs (s : State) (n : Nat) (ev : EventFields) (m : EditMode) : Steady s (s.handOffs n ev m) := by
  unfold State.handOffs
  dsimp only
  refine Steady.trans ?_ (gpi _ _)
  refine Steady.trans ?_ (engineMove _ _ _ (armed_ok _ _))
  exact (startSource _ _ _ _).trans (startSource _ _ _ _)

theorem enterRolling (s : State) (n : Nat) (ev : EventFields) (m : EditMode) : Steady s (s.enterRolling n ev m) := by
  unfold State.enterRolling
  dsimp only
  have a (e : Edit) (d : Deck) : Steady s (({ s with edit := e }.setPhase .rolling).postSeq d .play) :=
    ((edit s e).trans (setPhase _ _)).trans (postSeq _ _ _)
  exact ite (a _ _) ((a _ _).trans (handOffs _ _ _ _))

theorem recue (s : State) (d : Deck) : Steady s (s.recue d) := by
  unfold State.recue
  dsimp only
  refine ite ?_ (refl s)
  split
  · exact ite (edit s _) (after (postSeq _ _ _) (edit s _))
  · exact edit s _

theorem judgeCued (s : State) (d : Deck) : Steady s (s.judgeCued d) := ite (edit _ _) (refl s)

theorem deadlineStep (s : State) (w : Reason) : Steady s (s.deadlineStep w) := by
  unfold State.deadlineStep
  dsimp only
  exact ite ((edit s _).trans (abort _ _)) (edit s _)

theorem cueingStep (s : State) (n : Nat) (ev : EventFields) (m : EditMode) : Steady s (s.cueingStep n ev m) := by
  unfold State.cueingStep
  dsimp only
  have a (l : List Deck) : Steady s (l.foldl State.judgeCued (l.foldl State.recue s)) :=
    (foldl _ recue _ _).trans (foldl _ judgeCued _ _)
  exact ite ((a _).trans (enterRolling _ _ _ _)) ((a _).trans (deadlineStep _ _))

theorem previewOff (s : State) : Steady s s.previewOff := (edit s _).trans (setPhase _ _)

theorem offTest (s : State) (ev : EventFields) (m : EditMode) (f : Option Nat) : Steady s (s.offTest ev m f) := by
  unfold State.offTest
  refine ite ?_ (refl s)
  split
  · exact ite (refl s) ((edit s _).trans (postSeq _ _ _))
  · exact previewOff _
  · exact previewOff _

theorem editingStep (s : State) (ev : EventFields) (m : EditMode) (f : Option Nat) : Steady s (s.editingStep ev m f) := by
  unfold State.editingStep
  dsimp only
  exact ite ((offTest _ _ _ _).trans (deadlineStep _ _)) (offTest _ _ _ _)

theorem openWindow (s : State) : Steady s s.openWindow := setPort _ _ _ fun h => ⟨h.1, h.2.1, rfl, h.2.2.2⟩

theorem syncPoint (s : State) (m : EditMode) : Steady s (s.syncPoint m) := by
  unfold State.syncPoint
  dsimp only
  exact ite (abort _ _) (ite (abort _ _) (ite ((edit s _).trans (openWindow _)) (edit s _)))

theorem enterEditing (s : State) (ev : EventFields) : Steady s (s.enterEditing ev) := (edit s _).trans (setPhase _ _)

theorem postRecordOn (s : State) (ev : EventFields) : Steady s (s.postRecordOn ev) :=
  (((putSeq _ _ _).trans (handLine _ _)).trans (enterEditing _ _)).trans (silenceCheck _)

theorem recordOnTest (s : State) (ev : EventFields) (n : Nat) : Steady s (s.recordOnTest ev n) :=
  ite (refl s) (ite (postRecordOn _ _) (abort _ _))

theorem previewOn (s : State) (ev : EventFields) (n : Nat) : Steady s (s.previewOn ev n) :=
  ite (enterEditing _ _) (refl s)

theorem rollSync (s : State) (ev : EventFields) (m : EditMode) (f : Option Nat) : Steady s (s.rollSync ev m f) :=
  ite (syncPoint _ _) (refl s)

theorem rollOn (s : State) (ev : EventFields) (m : EditMode) (f : Option Nat) : Steady s (s.rollOn ev m f) := by
  unfold State.rollOn
  split
  · exact refl s
  · refine ite ?_ (refl s)
    split
    · exact recordOnTest _ _ _
    · exact previewOn _ _ _
    · exact previewOn _ _ _

theorem replayRecorder (s : State) : Steady s s.replayRecorder := by
  unfold State.replayRecorder
  dsimp only
  exact ite ((edit s _).trans (postSeq _ _ _)) (edit s _)

theorem rollingStep (s : State) (ev : EventFields) (m : EditMode) (f : Option Nat) : Steady s (s.rollingStep ev m f) := by
  unfold State.rollingStep
  dsimp only
  have a : Steady s ((s.replayRecorder.rollSync ev m f).rollOn ev m f) :=
    ((replayRecorder _).trans (rollSync _ _ _ _)).trans (rollOn _ _ _ _)
  refine ite a (a.trans ?_)
  split
  · exact deadlineStep _ _
  · exact offTest _ _ _ _
  · exact refl _

theorem enterRelease (s : State) : Steady s s.enterRelease := by
  unfold State.enterRelease
  dsimp only
  refine Steady.trans ?_ (foldl _ (fun _ _ => postSeq _ _ _) _ _)
  exact ((((edit s _).trans (setPhase _ _)).trans (clearEditChans _)).trans (gpiDisarm _)).trans (engineWithdraw _)

theorem postrollStep (s : State) (ev : EventFields) (f : Option Nat) : Steady s (s.postrollStep ev f) := by
  unfold State.postrollStep
  dsimp only
  exact ite ((edit s _).trans (enterRelease _)) (edit s _)

theorem phaseTests (s : State) (f : Option Nat) : Steady s (s.phaseTests f) := by
  unfold State.phaseTests
  split
  · refine ite (refl s) ?_
    split
    · exact cueingStep _ _ _ _
    · exact rollingStep _ _ _ _
    · exact editingStep _ _ _ _
    · exact postrollStep _ _ _
    · exact refl s
    · exact refl s
    · exact refl s
  · exact refl s

theorem seqStep (s : State) : Steady s s.seqStep := by
  unfold State.seqStep
  exact after (phaseTests _ _) (due s _ rfl)

/-- ALL_STOP's items. -/
theorem stopAll (s : State) (l : List Deck) : Steady s (s.stopAll l) :=
  foldl _ (fun _ _ => ite (postEmergency _ _ _ _) (refl _)) _ _

theorem timeoutStep (s : State) (w : Reason) : Steady s (s.timeoutStep w) := ite (seqStep _) (refl s)

end Sys2Proof.Laws.Steady
end

