-- ==== Sys2Proof/Laws/Requests.lean ====
section
/-! SUPPORT. What taking a request does, said once: with a fitting request at the head its owner acts on it, and an answer is the
reply appended with the head gone; and what the posting of an EMERGENCY item leaves at a port. -/

namespace Sys2Proof.Laws

open Sys2Proof.Machine Sys2Proof.Safety

/-- A request that is taken is handed to its owner with the head gone from the queue. -/
theorem takeRequest_takes (s : State) (r : Request) (k : Byte) (f : Request → State → State) (h : Takes s k.toNat r) :
    takeRequest k s f = .next (f r s.dropHead) := by
  obtain ⟨a, b, c, d, e⟩ := h
  have hk : r.kind = k := BitVec.eq_of_toNat_eq d
  simp [takeRequest, running, State.head, a, b, c, hk, e]

/-- OK with values is the answer whose labels are fixed in the format. -/
theorem ok_dropHead (s : State) (r : Request) (v : List Val) :
    s.dropHead.ok r v = answered s r .ok (v.map (Val.fix s.fmt)) := by
  simp [State.ok, State.reply, State.dropHead, answered, vResult, replyKind, Val.fix]

/-- A refusal is the answer with no values. -/
theorem refuse_dropHead (s : State) (r : Request) (x : Result) : s.dropHead.refuse r x = answered s r x [] := by
  simp [State.refuse, State.reply, State.dropHead, answered, vResult, replyKind, Val.fix]

/-- A command in operation, without and with its instant. -/
theorem running_next (s : State) (f : State → State) (h : s.asserted = false) : running s f = .next (f s) := by
  simp [running, h]

theorem timed_next (s : State) (t : Time) (f : State → State) (h : s.asserted = false) : timed s t f = .next (f (s.tick t)) := by
  simp [timed, running, h]

/-- Deck numbers 1 to 6 name their decks. -/
theorem deckOf_num (d : Deck) : deckOf (Deck.num d) = some d := by
  revert d
  decide

theorem deckOf_eq (n : Nat) (d : Deck) (h : n = Deck.num d) : deckOf n = some d := h ▸ deckOf_num d

/-! ## EMERGENCY items at a port (R62) -/

/-- A busy line keeps the item waiting; an IDLE one takes its first command. -/
theorem itemPosted_busy (p : Port) (a b : Bool) (h : p.line ≠ .idle) : itemPosted p a b = itemWaits p a b := by
  simp [itemPosted, h]

theorem itemPosted_standing (p : Port) (a b : Bool) (h : p.line = .idle) (r : p.standing = true) :
    itemPosted p a b = offSent p a b := by
  simp [itemPosted, h, r]

theorem itemPosted_free (p : Port) (a b : Bool) (h : p.line = .idle) (r : p.standing = false) :
    itemPosted p a b = stopSent p a b := by
  simp [itemPosted, h, r]

/-- The slots below an item are empty once it is posted. -/
@[simp] theorem itemPosted_seqSlot (p : Port) (a b : Bool) : (itemPosted p a b).seqSlot = { first := none, second := none } := by
  unfold itemPosted
  split <;> [split; skip] <;> rfl

@[simp] theorem itemPosted_servo (p : Port) (a b : Bool) : (itemPosted p a b).servo = none := by
  unfold itemPosted
  split <;> [split; skip] <;> rfl

@[simp] theorem itemPosted_pass (p : Port) (a b : Bool) : (itemPosted p a b).pass = none := by
  unfold itemPosted
  split <;> [split; skip] <;> rfl

end Sys2Proof.Laws
end

