-- ==== Sys2Proof/Laws/Units.lean ====
section
/-! SUPPORT. Steady moves of the transition engine and the GPI unit, and the bounds of the curves. -/

namespace Sys2Proof.Laws

open Sys2Proof.Machine Sys2Proof.Safety

/-! ## Bounds of the curves (R153, R155) -/

theorem roundHalfUp_le (n d b : Nat) (h : n ≤ b * d) : roundHalfUp n d ≤ b := by
  unfold roundHalfUp
  rcases Nat.eq_zero_or_pos d with rfl | k
  · simp
  · refine Nat.le_of_lt_succ ((Nat.div_lt_iff_lt_mul (by omega)).mpr ?_)
    nlinarith

theorem curveLevel_le (c : Curve) (d k : Nat) (h : k ≤ 2 * d) : curveLevel c d k ≤ 1023 := by
  cases c with
  | linear => exact roundHalfUp_le _ _ _ (Nat.mul_le_mul_left _ h)
  | s =>
    refine roundHalfUp_le _ _ _ ?_
    obtain ⟨x, e⟩ : ∃ x, 2 * d = k + x := ⟨2 * d - k, by omega⟩
    have a : 6 * d - 2 * k = k + 3 * x := by omega
    have b : 8 * d ^ 3 = (k + x) ^ 3 := by rw [← e]; ring
    rw [a, b]
    nlinarith [Nat.zero_le (k * x ^ 2), Nat.zero_le (x ^ 3)]

theorem takeLevel_le (m d j : Nat) (h : j ≤ 2 * d) (k : m ≤ 1023) : takeLevel m d j ≤ 1023 := by
  have := roundHalfUp_le ((1023 - m) * j) (2 * d) (1023 - m) (Nat.mul_le_mul_left _ h)
  unfold takeLevel
  omega

theorem levelAt_le (e : Engine) (k : Nat) (h : k ≤ 2 * e.duration) (o : EngineOk e) : e.levelAt k ≤ 1023 := by
  have hl := o.1
  have hf := o.2.2.2.1
  unfold Engine.levelAt
  unfold Engine.duration at h
  split
  · next m d x =>
    rw [x] at h hf
    exact takeLevel_le _ _ _ h hf
  · next x =>
    rw [x] at h
    split
    · next p y => exact curveLevel_le _ _ _ (by simpa [y] using h)
    · exact hl

theorem enter_engine (s : State) (k : NoticeKind) (n : Nat) (c : List Val) : (s.enter k n c).engine = s.engine := by
  unfold State.enter
  split <;> rfl

theorem engineMove_engine (s : State) (e : Engine) (c : TransCause) : (s.engineMove e c).engine = e := enter_engine _ _ _ _

/-- A report changes the warning set alone, while an edit lasts and outside a safe stop (R126, R184). -/
theorem warn_eq (s : State) (f : Warnings → Warnings) : s.warn f = { s with edit := { s.edit with
    warns := if s.edit.running ∧ ¬s.safeStop then f s.edit.warns else s.edit.warns } } := by
  unfold State.warn
  split <;> rfl

theorem warn_engine (s : State) (f : Warnings → Warnings) : (s.warn f).engine = s.engine := by rw [warn_eq]

/-- A report of the engine for a plan whose edit has ended changes nothing (R154). -/
theorem engineReport_ended (s : State) (f : Warnings → Warnings) (h : s.engine.live = false) : s.engineReport f = s := by
  simp [State.engineReport, h]

theorem engineReport_engine (s : State) (f : Warnings → Warnings) : (s.engineReport f).engine = s.engine := by
  unfold State.engineReport
  split
  · exact warn_engine _ _
  · rfl

namespace Steady

/-! ## The transition engine -/

theorem swap_ok (e : Engine) (k : SwapKind) (h : EngineOk e) : EngineOk (e.swap k) :=
  ⟨Nat.zero_le _, h.2.1, h.2.2.1, trivial, h.2.2.2.2.1, fun _ => rfl⟩

theorem runField (s : State) (r : s.engine.st = .running) : Steady s s.runField := by
  unfold State.runField
  dsimp only
  split
  · exact engineMove _ _ _ fun h => ⟨Nat.zero_le _, h.2.1, h.2.2.1, trivial, h.2.2.2.2.1, fun _ => rfl⟩
  · next x =>
    exact engineSet _ _ fun h => ⟨levelAt_le _ _ (by omega) h, h.2.1, h.2.2.1, h.2.2.2.1, h.2.2.2.2.1, fun k => by
      simp [r] at k⟩

theorem curveLevel_one (c : Curve) (d : Nat) : curveLevel c d 1 ≤ 1023 := by
  rcases Nat.eq_zero_or_pos d with rfl | h
  · cases c <;> decide
  · exact curveLevel_le c d 1 (by omega)

theorem engineReport (s : State) (f : Warnings → Warnings) : Steady s (s.engineReport f) := ite (warn _ _) (refl s)

theorem planStart (s : State) (p : Plan) (l : Bool) : Steady s (s.planStart p l) := by
  unfold State.planStart
  dsimp only
  have a : Steady s (if l = true then s.engineReport fun w => { w with transLate := true } else s) :=
    ite (engineReport _ _) (refl s)
  have run (u : State) (c : TransCause) : Steady u
      (u.engineMove { u.engine with st := .running, k := 1, level := curveLevel p.curve p.dur 1 } c) :=
    engineMove _ _ _ fun h => ⟨curveLevel_one _ _, h.2.1, h.2.2.1, h.2.2.2.1, h.2.2.2.2.1, by simp⟩
  split
  · exact a
  · refine after ?_ a
    have ok (e : Engine) (h : EngineOk e) : EngineOk { e.swap .cut with st := .idle } :=
      ⟨Nat.zero_le _, h.2.1, h.2.2.1, trivial, h.2.2.2.2.1, fun _ => rfl⟩
    exact after (engineMove _ _ _ fun h => by rwa [engineMove_engine] at h) (engineMove _ _ _ (ok _))
  · exact a.trans (run _ _)
  · exact a.trans (run _ _)

theorem startTest (s : State) (f : Option Nat) : Steady s (s.startTest f) := by
  unfold State.startTest
  split
  · split
    · exact ite (planStart _ _ _) (refl s)
    · exact refl s
  · exact refl s

theorem engineField (s : State) (x : FieldStart) : Steady s (s.engineField x) := by
  unfold State.engineField
  split
  · exact ite (engineMove _ _ _ fun h => ⟨Nat.zero_le _, h.2.1, h.2.2.1, trivial, h.2.2.2.2.1, fun _ => rfl⟩) (refl s)
  · exact ite (refl s) (startTest _ _)
  · next r => exact runField s r
  · exact refl s
  · exact refl s

theorem warnManual (s : State) : Steady s s.warnManual := engineReport _ _

theorem pickUp (s : State) (v : Nat) (h : v ≤ 1023) : Steady s (s.pickUp v) := by
  unfold State.pickUp
  dsimp only
  refine after (enter _ _ _ _ (by decide)) ?_
  have a (e : Engine) (x : EngineOk s.engine → EngineOk e) :
      Steady s { (if s.engine.st = .running ∧ s.engine.seqPlan = true then s.warnManual else s) with engine := e } := by
    split
    · exact after (engineSet _ _ fun k => x (by rwa [State.warnManual, engineReport_engine] at k)) (warnManual s)
    · exact engineSet _ _ x
  exact a _ fun k => ⟨h, k.2.1, k.2.2.1, k.2.2.2.1, k.2.2.2.2.1, by simp⟩

theorem manualLever (s : State) (v : Nat) (h : v ≤ 1023) (m : s.engine.st = .manual) : Steady s (s.manualLever v) := by
  unfold State.manualLever
  dsimp only
  refine ite ?_ (engineSet _ _ fun k => ⟨h, k.2.1, k.2.2.1, k.2.2.2.1, k.2.2.2.2.1, fun x => by simp [m] at x⟩)
  refine after (engineSet _ _ ?_) (engineMove _ _ _ fun k => swap_ok _ _ k)
  exact fun k => ⟨k.1, k.2.1, Nat.zero_le _, k.2.2.2.1, k.2.2.2.2.1, k.2.2.2.2.2⟩

theorem mapLever_le (i : Bool) (p : Nat) (h : p ≤ 1023) : mapLever i p ≤ 1023 := by
  unfold mapLever
  split <;> omega

theorem moveLever (s : State) (p : Nat) (h : p ≤ 1023) : Steady s (s.moveLever p) := by
  unfold State.moveLever
  dsimp only
  have v := mapLever_le s.engine.inverted p h
  have a : Steady s { s with engine := { s.engine with lever := p, mapped := mapLever s.engine.inverted p } } :=
    engineSet _ _ fun k => ⟨k.1, h, v, k.2.2.2.1, k.2.2.2.2.1, k.2.2.2.2.2⟩
  split
  · exact a
  · next m => exact a.trans (manualLever _ _ v m)
  · exact ite (a.trans (pickUp _ _ v)) a

/-! ## The GPI unit -/

theorem gpiNotice (s : State) (x : GpiEntry) (r : GpiResult) (n : Nat) : Steady s (s.gpiNotice x r n) :=
  enter _ _ _ _ (place_gpiTrigger x.output)

theorem fire (s : State) (x : GpiEntry) (l n : Nat) : Steady s (s.fire x l n) := by
  unfold State.fire
  dsimp only
  exact after (gpiNotice _ _ _ _) (thenIte (gpi s _) (warn _ _))

theorem miss (s : State) (x : GpiEntry) (n : Nat) : Steady s (s.miss x n) := (warn _ _).trans (gpiNotice _ _ _ _)

theorem judge (l : Nat) (f : Option Nat) (s : State) (x : GpiEntry) : Steady s (s.judge l f x).1 := by
  unfold State.judge
  split
  · exact fire _ _ _ _
  · split
    · exact refl s
    · dsimp only
      split
      · exact refl s
      · split
        · split
          · exact fire _ _ _ _
          · exact refl s
        · split
          · exact fire _ _ _ _
          · exact miss _ _ _

theorem judgeAll (l : Nat) (f : Option Nat) (xs : List GpiEntry) (s : State) : Steady s (State.judgeAll l f xs s).1 := by
  induction xs generalizing s with
  | nil => exact refl s
  | cons x xs ih => exact (judge l f s x).trans (ih _)

theorem gpiFrame (s : State) : Steady s s.gpiFrame := by
  unfold State.gpiFrame
  dsimp only
  refine after (gpi _ _) (after (judgeAll _ _ _ _) ?_)
  exact ⟨rfl, id, id, id⟩

end Steady

end Sys2Proof.Laws
end

