-- ==== Sys2Proof/WellFormed.lean ====
section
/-! DEFINITION. When a command is well formed: a chunk of received bytes is not empty and is at most one longest frame. -/

namespace Sys2Proof

/-- The longest deck frame: length byte, code, 16 data bytes, check byte (R48). -/
def longestDeckFrame : Nat := 19

/-- The longest control link frame: lead byte, length byte and 250 bytes (section 11.1). -/
def longestLinkFrame : Nat := 252

/-- A chunk of n received bytes of a line whose longest frame is m bytes. -/
def chunkOk (m n : Nat) : Bool := 0 < n && n ≤ m

/-- Well-formed commands. Every other operand is in range by its type. -/
def Instr.wf : Instr → Bool
  | .deckReplyReceived _ cs _ => chunkOk longestDeckFrame cs.length
  | .lateReplyReceived _ cs _ => chunkOk longestDeckFrame cs.length
  | .strayFrameReceived _ cs _ => chunkOk longestDeckFrame cs.length
  | .frameReceived bs _ => chunkOk longestLinkFrame bs.length
  | _ => true

end Sys2Proof
end

