-- ==== Sys2Proof/Tests/Slice0.lean ====
section
/-! SUPPORT. Tests: ill-formed commands, worked examples of the spec (each named with its section or table), and for every
obligation with hypotheses a concrete state that meets them, clause by clause at the ends of the ranges. -/

namespace Sys2Proof.Tests

open Sys2Proof Sys2Proof.Machine Sys2Proof.Safety

/-! ## Helpers -/

/-- The next state of an outcome. -/
def nx (o : Host.Outcome State Fault Refusal) : State :=
  match o with
  | .next s => s
  | .fault _ => State.reset
  | .refused _ => State.reset

/-- A request of kind k with tag 5. -/
def req (k : Nat) (ps : List Byte) : Request := { kind := BitVec.ofNat 8 k, tag := 5, params := ps }

/-- s with that request alone in its input queue. -/
def asked (s : State) (k : Nat) (ps : List Byte) : State := { s with link := { s.link with input := [req k ps] } }

/-- The reset state with that request. -/
def ask (k : Nat) (ps : List Byte) : State := asked State.reset k ps

/-- An identity record with every capability. -/
def vtr : Identity :=
  { typeCode := 1, model := [], caps := ⟨true, true, true, true, true⟩, range := some (800, 1200), minPreroll := 125
    delays := some (2, 2), playStart := 10 }

/-- A PRESENT deck on a busy line. -/
def deck : Port := { Port.initial with presence := .present, ident := some vtr, flags := some 0, line := .sending }

/-- The reset state with that port at every deck. -/
def decksOn : State := { State.reset with ports := Vector.replicate 6 deck }

/-- The reset state LOCKED, at the given line, with no frame start owed to the house clock. -/
def lockedAt (line : Nat) : State := { State.reset with ref := { State.reset.ref with st := .locked, lineCount := line, line } }

/-- A reader with a play-speed record at frame n, stamp m. -/
def playing (n m : Nat) : Reader :=
  { Reader.initial .f25 with src := .ltc, cls := .play, mark := some { frame := n, stamp := m } }

/-- An event: CUT, record 00:10:00:00 to 00:10:10:00, A is deck 2 from 01:00:00:00. -/
def cutEvent : EventFields :=
  { type := .cut, recIn := 15000, recOut := 15250, a := 1, aIn := 90000, b := none, t := 0, d := 0, curve := .linear
    pattern := none, tracks := 31, kind := .assemble, triggers := [] }

/-- That event with kept fields. -/
def pendingEvent : Event := { fields := cutEvent, status := .pending, failure := none, warns := Warnings.empty, attempts := 0 }

/-- The bytes of that event (Table 12-4). -/
def cutBytes : List Byte :=
  [0, 0, 10, 0, 0, 0, 10, 10, 0, 2, 1, 0, 0, 0] ++ [0, 0, 0, 0, 0, 0, 0, 0, 0, 0, 0, 0, 31, 0, 0]

/-! ## Well-formedness -/

theorem test_wf_reply_empty : Instr.wf (.deckReplyReceived 0 [] 0) = false := by decide
theorem test_wf_reply_long : Instr.wf (.deckReplyReceived 0 (List.replicate 20 ⟨0, false⟩) 0) = false := by decide
theorem test_wf_late_empty : Instr.wf (.lateReplyReceived 0 [] 0) = false := by decide
theorem test_wf_late_long : Instr.wf (.lateReplyReceived 0 (List.replicate 20 ⟨0, false⟩) 0) = false := by decide
theorem test_wf_stray_empty : Instr.wf (.strayFrameReceived 0 [] 0) = false := by decide
theorem test_wf_stray_long : Instr.wf (.strayFrameReceived 0 (List.replicate 20 ⟨0, false⟩) 0) = false := by decide
theorem test_wf_frame_empty : Instr.wf (.frameReceived [] 0) = false := by decide
theorem test_wf_frame_long : Instr.wf (.frameReceived (List.replicate 253 0) 0) = false := by
  rw [Instr.wf, List.length_replicate]
  decide
theorem test_wf_frame_longest : Instr.wf (.frameReceived (List.replicate 252 0) 0) = true := by
  rw [Instr.wf, List.length_replicate]
  decide

/-- The table gives no row bits: no word spells a command. -/
theorem test_no_word_spells : decodeTableWord 16 0 = none ∧ State.reset.withFetchWord 16 0 = State.reset := ⟨rfl, rfl⟩

/-! ## The spec's examples -/

/-- Table 1-4. -/
theorem test_labels_to_frames :
    (Label.toFrame .f30d ⟨0, 1, 0, 2⟩, Label.toFrame .f30d ⟨1, 10, 0, 2⟩, Label.toFrame .f30d ⟨23, 59, 59, 29⟩) =
      (1800, 125876, 2589407) := by decide

/-- Section 1.5: the inverse of Table 1-4, and a label that F30D drops. -/
theorem test_frames_to_labels :
    Label.ofFrame .f30d 1800 = ⟨0, 1, 0, 2⟩ ∧ Label.ofFrame .f30d 125876 = ⟨1, 10, 0, 2⟩ ∧
      Label.legal .f30d ⟨0, 1, 0, 1⟩ = false ∧ Label.legal .f30d ⟨0, 10, 0, 1⟩ = true := by decide

/-- R11: two points half a day apart differ by -L/2 whichever is named first. -/
theorem test_half_day : SuiteFormat.d .f25 1080000 0 = -1080000 ∧ SuiteFormat.d .f25 0 1080000 = -1080000 ∧
    SuiteFormat.d .f25 1079999 0 = 1079999 := by decide

/-- R187: two bytes per negative number, and a three-byte number. -/
theorem test_numbers : beInt [0xFF, 0xFE] = -2 ∧ beNat [1, 0, 0] = 65536 := by decide

/-- R188: GET_REFERENCE with tag 5 is A5h 03h 01h 05h F7h. -/
theorem test_link_frame : linkFrame 1 5 [] = [0xA5, 3, 1, 5, 0xF7] := by decide

/-- Table 5-7: e = -1,975, -1,958, -700 lines at gain 16, and -624, -9, -10 at 32. -/
theorem test_speed_law :
    [roundHalfAway (16 * -1975) 625, roundHalfAway (16 * -1958) 625, roundHalfAway (16 * -700) 625,
      roundHalfAway (32 * -624) 625, roundHalfAway (32 * -9) 625, roundHalfAway (32 * -10) 625] =
      [-51, -50, -18, -32, 0, -1] := by decide

/-- Table 9-5 at k = 1, 13, 20, 40. -/
theorem test_curves :
    [curveLevel .linear 20 1, curveLevel .linear 20 13, curveLevel .linear 20 20, curveLevel .s 20 1, curveLevel .s 20 13,
      curveLevel .s 20 20, curveLevel .s 20 40] = [26, 332, 512, 2, 254, 512, 1023] := by decide

/-- R15: a reader's speed from an estimate of 480,000 ns in F25. -/
theorem test_reader_speed : roundHalfUp (1000 * 500000) 480000 = 1042 := by decide

/-- R10: a frame number of -500 in F25. -/
theorem test_negative_frame : SuiteFormat.addFrames .f25 0 (-500) = 2159500 := by decide

/-- Section 12.4: a STATUS_SENSE is the three bytes 02h 11h 13h. -/
theorem test_status_sense : DeckCmd.frame .f25 .statusSense = [0x02, 0x11, 0x13] := by decide

/-! ## Single steps -/

/-- R188's GET_REFERENCE, taken from the link: kind 01h and tag 5 in the input queue. -/
theorem test_frame_received : (nx (exec (.frameReceived [0xA5, 3, 1, 5, 0xF7] 9) State.reset)).link.input = [req 1 []] := by decide

/-- Its reply at power-on: OK, ACQUIRING, 00:00:00:00, field 1, line 1 (R28, R29). -/
theorem test_get_reference : ((nx (exec .getReference (ask 1 []))).link.replies.map fun r => (r.frame .f25 0).drop 4) =
    [[0, 1, 0, 0, 0, 0, 1, 0, 1, sumCheck [12, 0x81, 5, 0, 1, 0, 0, 0, 0, 1, 0, 1]]] := by decide

/-- R185, R188: the first frame out after power-on is HELLO, kind C5h, tag 0. -/
theorem test_hello_first : ((nx (exec .outboundSend State.reset)).link.tx.map fun b => (b.drop 2).take 2) = [[0xC5, 0]] := by decide

/-- R69 check 1: RECORD_OFF passed through is refused with RECORD_PROTECTED. -/
theorem test_record_protected :
    ((nx (exec .deckCommand (asked decksOn 0x10 [1, 0x31]))).link.replies.map Reply.vals) = [[.u 1 Result.recordProtected.code]] := by
  decide

/-- R169, R168: a pulse of 255 frames is clamped to 25. -/
theorem test_gpi_pulse : ((nx (exec .gpiSet (ask 0x40 [1, 0, 0, 255]))).gpi.out 0) = { on := true, pulse := some { left := 25, endLine := 1, skip := 1 } } := by decide

/-- R101: a window that ends at 1000 is refused, and kept. -/
theorem test_window_kept : (nx (exec .setLoadWindow (ask 0x20 [0, 5, 3, 0xE8]))).list = EventList.initial := by decide

/-! ## Witnesses: the machine and its resets -/

/-- Hypotheses of StepRunsTheQueue. -/
theorem witness_queue : (∃ (s : State) (c : Instr) (cs : List Instr), s.pending = c :: cs) ∧ State.reset.pending = [] :=
  ⟨⟨{ State.reset with pending := [.getReference] }, .getReference, [], by decide⟩, by decide⟩

/-- Hypotheses of ResetLineHoldsAndRestarts. -/
theorem witness_reset_line : ∃ (s : State) (c : Instr), s.asserted = true ∧ c ≠ .powerOn ∧ c ≠ .resetLineAssert ∧
    ∀ t, c ≠ .resetLineRelease t :=
  ⟨{ State.reset with asserted := true }, .allStop, by decide, by decide, by decide, by simp⟩

/-! ## Witnesses: labels and the day circle -/

/-- Hypotheses of LegalLabelsGiveFrameNumbers and LabelsFramesAndPositionsAgree, at both ends of the day. -/
theorem witness_labels :
    Label.legal .f25 ⟨0, 0, 0, 0⟩ = true ∧ Label.legal .f25 ⟨23, 59, 59, 24⟩ = true ∧ Label.legal .f25 ⟨23, 59, 59, 25⟩ = false ∧
      Label.legal .f30 ⟨23, 59, 59, 29⟩ = true ∧ Label.legal .f30d ⟨23, 59, 59, 29⟩ = true ∧
      Label.legal .f30d ⟨0, 1, 0, 2⟩ = true ∧ 0 < SuiteFormat.dayLen .f25 ∧ 2589407 < SuiteFormat.dayLen .f30d := by decide

/-- Hypotheses of WrappedDifference: remainders just below, at and above the half day. -/
theorem witness_difference : ∃ (f : SuiteFormat) (m : Nat), m = f.dayLen ∧ 1079999 < m ∧ 1080001 < m ∧
    ((1079999 : Int) - 0) % m < (m / 2 : Nat) ∧ ¬((1080000 : Int) - 0) % m < (m / 2 : Nat) ∧
    ((1080000 : Int) - 0) % m = (m / 2 : Nat) ∧ ¬((1080001 : Int) - 0) % m < (m / 2 : Nat) :=
  ⟨.f25, 2160000, by decide⟩

/-- Hypotheses of LabelsFramesAndPositionsAgree: the last line of the day. -/
theorem witness_positions : ∃ (f : SuiteFormat) (n l : Nat), n < f.dayLen ∧ 1 ≤ l ∧ l ≤ f.lpf ∧
    f.position n l < f.dayLen * f.lpf :=
  ⟨.f30, 2591999, 525, by decide⟩

/-! ## Witnesses: house reference and clock -/

/-- Hypotheses of FramePulsesByState: in LOCKED frames of 625 and of 624 lines; ABSENT; ACQUIRING before a frame,
on the third good frame, and after frames one line short and one line long. -/
theorem witness_frame_pulses :
    (∃ s : State, s.asserted = false ∧ s.ref.st = .locked ∧ s.ref.lineCount = s.fmt.lpf) ∧
    (∃ s : State, s.asserted = false ∧ s.ref.st = .locked ∧ s.ref.lineCount ≠ s.fmt.lpf) ∧
    (∃ s : State, s.asserted = false ∧ s.ref.st = .absent) ∧
    (∃ s : State, s.asserted = false ∧ s.ref.st = .acquiring ∧ s.ref.lineCount = 0) ∧
    (∃ s : State, s.asserted = false ∧ s.ref.st = .acquiring ∧ s.ref.lineCount = s.fmt.lpf ∧ s.ref.good = 2) ∧
    (∃ s : State, s.asserted = false ∧ s.ref.st = .acquiring ∧ s.ref.lineCount ≠ 0 ∧ s.ref.lineCount + 1 = s.fmt.lpf) ∧
    (∃ s : State, s.asserted = false ∧ s.ref.st = .acquiring ∧ s.ref.lineCount ≠ 0 ∧ s.ref.lineCount = s.fmt.lpf + 1) :=
  ⟨⟨lockedAt 625, by decide⟩, ⟨lockedAt 624, by decide⟩,
    ⟨{ State.reset with ref := { State.reset.ref with st := .absent } }, by decide⟩, ⟨State.reset, by decide⟩,
    ⟨{ State.reset with ref := { State.reset.ref with lineCount := 625, good := 2 } }, by decide⟩,
    ⟨{ State.reset with ref := { State.reset.ref with lineCount := 624 } }, by decide⟩,
    ⟨{ State.reset with ref := { State.reset.ref with lineCount := 626 } }, by decide⟩⟩

/-- Hypotheses of FramePulsesByState, the fourth good frame, on the last line of field 1 and the first of field 2. -/
theorem witness_fourth_frame :
    (∃ s : State, s.asserted = false ∧ s.ref.st = .acquiring ∧ s.ref.lineCount = s.fmt.lpf ∧ s.ref.good = 3 ∧
      s.fmt.inField2 s.ref.line = false) ∧
    (∃ s : State, s.asserted = false ∧ s.ref.st = .acquiring ∧ s.ref.lineCount = s.fmt.lpf ∧ s.ref.good = 3 ∧
      s.fmt.inField2 s.ref.line = true) :=
  ⟨⟨{ State.reset with ref := { State.reset.ref with lineCount := 625, good := 3, line := 313 } }, by decide⟩,
    ⟨{ State.reset with ref := { State.reset.ref with lineCount := 625, good := 3, line := 314 } }, by decide⟩⟩

/-- Hypotheses of LinePulses: the pulse that makes line 625 and the one past it, in LOCKED and in ACQUIRING; no frame. -/
theorem witness_line_pulses :
    (∃ s : State, s.asserted = false ∧ s.ref.st = .locked ∧ s.ref.lineCount + 1 = s.fmt.lpf) ∧
    (∃ s : State, s.asserted = false ∧ s.ref.st = .locked ∧ s.fmt.lpf < s.ref.lineCount + 1) ∧
    (∃ s : State, s.asserted = false ∧ s.ref.st = .acquiring ∧ 0 < s.ref.lineCount ∧ s.ref.lineCount + 1 = s.fmt.lpf) ∧
    (∃ s : State, s.asserted = false ∧ s.ref.st = .acquiring ∧ 0 < s.ref.lineCount ∧ s.fmt.lpf = s.ref.lineCount) ∧
    (∃ s : State, s.asserted = false ∧ s.ref.st = .acquiring ∧ s.ref.lineCount = 0) ∧
    (∃ s : State, s.asserted = false ∧ s.ref.st = .absent) :=
  ⟨⟨lockedAt 624, by decide⟩, ⟨lockedAt 625, by decide⟩,
    ⟨{ State.reset with ref := { State.reset.ref with lineCount := 624 } }, by decide⟩,
    ⟨{ State.reset with ref := { State.reset.ref with lineCount := 625 } }, by decide⟩, ⟨State.reset, by decide⟩,
    ⟨{ State.reset with ref := { State.reset.ref with st := .absent } }, by decide⟩⟩

/-- Hypotheses of MissingPulsesAndTimerSteps, at the very instants: 120 ms and 40.064 ms in F25, one line period. -/
theorem witness_missing_pulses :
    (∃ (s : State) (t : Time), s.asserted = false ∧ s.ref.st = .acquiring ∧
      exact s.ref.pulseAt + 3 * (s.fmt.lpf * s.fmt.linePeriod) = exact t) ∧
    (∃ (s : State) (t : Time), s.asserted = false ∧ s.ref.st = .locked ∧
      s.ref.timerFrom + s.fmt.lpf * s.fmt.linePeriod + s.fmt.linePeriod = exact t) ∧
    (∃ (s : State) (t : Time), s.asserted = false ∧ s.ref.st ≠ .locked ∧ s.ref.stepAt + s.fmt.linePeriod = exact t ∧
      s.ref.line < s.fmt.lpf) ∧
    (∃ (s : State) (t : Time), s.asserted = false ∧ s.ref.st ≠ .locked ∧ s.ref.stepAt + s.fmt.linePeriod = exact t ∧
      s.ref.line = s.fmt.lpf) :=
  ⟨⟨State.reset, 120000000, by decide⟩, ⟨lockedAt 1, 40064000, by decide⟩, ⟨State.reset, 64000, by decide⟩,
    ⟨{ State.reset with ref := { State.reset.ref with line := 625 } }, 64000, by decide⟩⟩

/-- The reset state with one frame start owed to the house clock. -/
def clockDue : State := { State.reset with due := { State.reset.due with clock := 1 } }

/-- Hypotheses of HouseClockAndItsPreset. -/
theorem witness_house_clock :
    (∃ s : State, s.asserted = false ∧ s.due.clock = 1 ∧ s.ref.frame < s.fmt.dayLen ∧ s.clock.preset = none) ∧
    (∃ s : State, s.asserted = false ∧ s.due.clock = 1 ∧ s.ref.frame < s.fmt.dayLen ∧ s.clock.preset = some 2159999) ∧
    (∃ (s : State) (r : Request), Takes s 0x02 r ∧ (labelAt r.params 0).legal s.fmt = true) ∧
    (∃ (s : State) (r : Request), Takes s 0x02 r ∧ (labelAt r.params 0).legal s.fmt = false) :=
  ⟨⟨clockDue, by decide⟩, ⟨{ clockDue with clock := { clockDue.clock with preset := some 2159999 } }, by decide⟩,
    ⟨ask 2 [23, 59, 59, 24], req 2 [23, 59, 59, 24], by decide⟩, ⟨ask 2 [24, 0, 0, 0], req 2 [24, 0, 0, 0], by decide⟩⟩

/-! ## Witnesses: timecode readers -/

/-- The reset state with reader 1 given. -/
def withReader (r : Reader) : State := State.reset.setReader 0 r

/-- Hypotheses of TransitionsAndBitSync: intervals of exactly 20 us and 1 ns less; a gap just past 1.5 cells. -/
theorem witness_transitions :
    (∃ s : State, s.asserted = false ∧ (s.reader 0).openFrom = none) ∧
    (∃ (s : State) (t o : Time), s.asserted = false ∧ (s.reader 0).openFrom = some o ∧ s.set.glitch * 1000 ≤ t - o ∧
      (s.reader 0).pend = none) ∧
    (∃ (s : State) (t o : Time) (p : Interval), s.asserted = false ∧ (s.reader 0).openFrom = some o ∧
      s.set.glitch * 1000 ≤ t - o ∧ (s.reader 0).pend = some p) ∧
    (∃ (s : State) (t o : Time) (p : Interval), s.asserted = false ∧ (s.reader 0).openFrom = some o ∧
      t - o < s.set.glitch * 1000 ∧ (s.reader 0).pend = some p) ∧
    (∃ (s : State) (t o : Time), s.asserted = false ∧ (s.reader 0).openFrom = some o ∧ t - o < s.set.glitch * 1000 ∧
      (s.reader 0).pend = none) ∧
    (∃ (s : State) (t : Time) (p : Interval), s.asserted = false ∧ (s.reader 0).dec = .reading ∧
      (s.reader 0).pend = some p ∧ 3 * (s.reader 0).est < 2 * (t - p.closedAt)) :=
  let a : State := withReader { Reader.initial .f25 with openFrom := some 500000 }
  let p : Interval := { len := 250000, closedAt := 500000, house := 0 }
  let b : State := withReader { Reader.initial .f25 with openFrom := some 500000, pend := some p, dec := .reading }
  ⟨⟨State.reset, by decide⟩, ⟨a, 520000, 500000, by decide⟩, ⟨b, 520000, 500000, p, by decide⟩,
    ⟨b, 519999, 500000, p, by decide⟩, ⟨a, 519999, 500000, by decide⟩, ⟨b, 1250001, p, by decide⟩⟩

/-- Reader 1 with a pending interval of n ns at the nominal cell, an interval of 20 us closing behind it. -/
def bitReader (st : DecState) (n : Nat) : Reader :=
  { Reader.initial .f25 with dec := st, openFrom := some 500000, pend := some { len := n, closedAt := 500000, house := 0 } }

/-- The premises of IntervalsBecomeBitsAndWords on reader 1 at 520,000 ns, for an interval of n ns. -/
abbrev Releases (r : Reader) (n : Nat) : Prop :=
  let s : State := withReader r
  s.asserted = false ∧ (s.reader 0).openFrom = some 500000 ∧ s.set.glitch * 1000 = 520000 - 500000 ∧
    (s.reader 0).pend = some { len := n, closedAt := 500000, house := 0 } ∧ (s.reader 0).est = 500000

/-- Hypotheses of IntervalsBecomeBitsAndWords: intervals of 750,001, 750,000, 375,000 and 374,999 ns against a cell of 500,000;
half-runs of 38, 39 and 40. -/
theorem witness_intervals :
    (Releases (bitReader .reading 750001) 750001 ∧ 3 * 500000 < 2 * 750001) ∧
    (Releases { bitReader .searching 750000 with half := some 250000 } 750000 ∧ 3 * 500000 ≤ 4 * 750000 ∧
      2 * 750000 ≤ 3 * 500000) ∧
    (Releases (bitReader .reading 375000) 375000 ∧ 3 * 500000 ≤ 4 * 375000 ∧ 2 * 375000 ≤ 3 * 500000) ∧
    (Releases { bitReader .reading 374999 with halfRun := 39 } 374999 ∧ 4 * 374999 < 3 * 500000) ∧
    Releases { bitReader .reading 374999 with halfRun := 39, half := some 250000 } 374999 ∧
    Releases { bitReader .searching 374999 with halfRun := 38 } 374999 ∧
    Releases { bitReader .searching 374999 with halfRun := 38, half := some 250000 } 374999 ∧
    Releases { bitReader .searching 374999 with halfRun := 39 } 374999 := by decide

/-- The window before a bit 1, or a bit 0, that completes a sync pattern. -/
def windowTo (sync : List Bool) : List Bool := sync.drop 1

/-- Hypotheses of IntervalsBecomeBitsAndWords, the bit decoded: the 15th and the 16th of a run; the last two of a reverse word; a
forward word of 80 cells and of 79; a reversed sync pattern. -/
theorem witness_bits :
    (Releases { bitReader .searching 500000 with run := 14 } 500000 ∧ Releases { bitReader .searching 500000 with run := 15 } 500000) ∧
    (Releases { bitReader .reading 500000 with rev := some 2 } 500000 ∧
      Releases { bitReader .reading 500000 with rev := some 1 } 500000) ∧
    (let sync := [true, false] ++ List.replicate 12 true ++ [false, false]
     let r := { bitReader .reading 374999 with half := some 250000, window := windowTo sync }
     Releases { r with since := 79 } 374999 ∧ Releases { r with since := 78 } 374999 ∧
       ((true :: r.window).take 80).take 16 = sync ∧ 80 ≤ min 80 (79 + 1) ∧ ¬80 ≤ min 80 (78 + 1)) ∧
    (let sync := [false, false] ++ List.replicate 12 true ++ [false, true]
     let r := { bitReader .reading 500000 with window := windowTo sync }
     Releases r 500000 ∧ ((false :: r.window).take 80).take 16 = sync) := by decide

/-- n in w cells, least significant first. -/
def cells (n w : Nat) : List Bool := (List.range w).map fun i => n.testBit i

/-- The word of frame 100, 00:00:04:00, with a drop-frame flag (section 3.4). -/
def word100 (df : Bool) : List Bool :=
  cells 0 6 ++ [df, true] ++ cells 4 8 ++ cells 0 16 ++ cells 0xDEADBEEF 32 ++ cells 0xBFFC 16

/-- Hypotheses of WordsAreCheckedAndAccepted: a bad word; one that follows the chain forward and in reverse, replaces the
flywheel's, follows the candidate, and none of these; every source of a record. -/
theorem witness_words :
    (wordOk .f25 (word100 true) = false ∧ wordOk .f25 (word100 false) = true ∧
      (wordLabel (word100 false)).toFrame .f25 = 100) ∧
    (∃ r : Reader, ∃ c, r.chain = some c ∧ 100 = SuiteFormat.addFrames .f25 c.frame 1) ∧
    (∃ r : Reader, ∃ c, r.chain = some c ∧ 100 = SuiteFormat.addFrames .f25 c.frame (-1)) ∧
    (∃ r : Reader, ∃ c, r.chain = some c ∧ c.synth = true ∧ 100 = c.frame ∧ Direction.forward = c.dir) ∧
    (∃ r : Reader, r.chain = none ∧ ∃ c, r.cand = some c ∧ 100 = SuiteFormat.addFrames .f25 c.frame 1) ∧
    (∃ r : Reader, r.chain = none ∧ r.cand = none) ∧
    (∀ x dir, ∃ (s : State) (m : Mark), (s.reader 0).mark = some m ∧ (s.reader 0).src = x ∧ (s.reader 0).dir = dir ∧
      (s.port 0).flag 3 = false ∧ (s.port 0).flag 4 = false) ∧
    (∃ (s : State) (m : Mark), (s.reader 0).mark = some m ∧ (s.reader 0).src = .line ∧ (s.port 0).flag 3 = true) :=
  let r := Reader.initial .f25
  ⟨by decide, ⟨{ r with chain := some ⟨99, .forward, false⟩ }, ⟨99, .forward, false⟩, by decide⟩,
    ⟨{ r with chain := some ⟨101, .reverse, false⟩ }, ⟨101, .reverse, false⟩, by decide⟩,
    ⟨{ r with chain := some ⟨100, .forward, true⟩ }, ⟨100, .forward, true⟩, by decide⟩,
    ⟨{ r with cand := some ⟨99, .forward, 0, 0⟩ }, by decide, ⟨99, .forward, 0, 0⟩, by decide⟩, ⟨r, by decide⟩,
    fun x dir => ⟨withReader { playing 5 0 with src := x, dir := dir }, ⟨5, 0⟩, rfl, rfl, rfl, rfl, rfl⟩,
    ⟨(withReader { playing 5 0 with src := .line }).setPort 0 { deck with flags := some 8 }, ⟨5, 0⟩, by decide⟩⟩

/-- Hypotheses of ReaderFrameStartTests: a record of 690 lines below and at the limit of 8; a flywheel at another speed; the
second and third frame without a word; the third on the line, and on LTC. -/
theorem witness_reader_tests :
    (∃ (s : State) (m : Mark), s.asserted = false ∧ 0 < s.due.reader[(0 : Deck).val] ∧ (s.reader 0).src = .ltc ∧
      (s.reader 0).cls = .play ∧ (s.reader 0).mark = some m ∧
      (s.fmt.lpf : Int) + 64 < s.fmt.dLines (s.startInstant s.due.reader[(0 : Deck).val]) m.stamp ∧
      (s.reader 0).fly < s.set.flyLimit) ∧
    (∃ (s : State) (m : Mark) (p : Nat), s.asserted = false ∧ 0 < s.due.reader[(0 : Deck).val] ∧ (s.reader 0).mark = some m ∧
      s.extrap 0 (s.startInstant s.due.reader[(0 : Deck).val]) = some p ∧ (s.reader 0).src = .ltc ∧ (s.reader 0).cls = .play ∧
      (s.fmt.lpf : Int) + 64 < s.fmt.dLines (s.startInstant s.due.reader[(0 : Deck).val]) m.stamp ∧
      s.set.flyLimit = (s.reader 0).fly) ∧
    (∃ (s : State) (m : Mark) (p : Nat), s.asserted = false ∧ 0 < s.due.reader[(0 : Deck).val] ∧ (s.reader 0).mark = some m ∧
      s.extrap 0 (s.startInstant s.due.reader[(0 : Deck).val]) = some p ∧ (s.reader 0).src = .flywheel ∧
      (s.reader 0).cls ≠ .play) ∧
    (∃ (s : State) (m : Mark) (p : Nat), s.asserted = false ∧ 0 < s.due.reader[(0 : Deck).val] ∧ (s.reader 0).mark = some m ∧
      s.extrap 0 (s.startInstant s.due.reader[(0 : Deck).val]) = some p ∧ (s.reader 0).src = .ltc ∧
      s.fmt.dLines (s.startInstant s.due.reader[(0 : Deck).val]) m.stamp = (s.fmt.lpf : Int) + 64 ∧
      min 3 ((s.reader 0).noWord + 1) = 2) ∧
    (∃ (s : State) (m : Mark) (p : Nat), s.asserted = false ∧ 0 < s.due.reader[(0 : Deck).val] ∧ (s.reader 0).mark = some m ∧
      s.extrap 0 (s.startInstant s.due.reader[(0 : Deck).val]) = some p ∧ (s.reader 0).src = .ltc ∧
      s.fmt.dLines (s.startInstant s.due.reader[(0 : Deck).val]) m.stamp = 0 ∧ min 3 ((s.reader 0).noWord + 1) = 3) ∧
    (∃ s : State, s.asserted = false ∧ 0 < s.due.reader[(0 : Deck).val] ∧ (s.reader 0).noWord = 2 ∧
      (s.reader 0).src = .line) ∧
    (∃ s : State, s.asserted = false ∧ 0 < s.due.reader[(0 : Deck).val] ∧ (s.reader 0).noWord = 2 ∧
      (s.reader 0).src = .ltc ∧ s.overdue 0 (s.startInstant s.due.reader[(0 : Deck).val]) = false ∧
      (s.port 0).hasLineTime = false) :=
  ⟨⟨withReader { playing 5 (1350000000 - 690) with fly := 7 }, { frame := 5, stamp := 1350000000 - 690 }, by decide⟩,
    ⟨withReader { playing 5 (1350000000 - 690) with fly := 8 }, ⟨5, 1350000000 - 690⟩, 4440, by decide⟩,
    ⟨withReader { playing 5 0 with src := .flywheel, cls := .slow }, ⟨5, 0⟩, 3750, by decide⟩,
    ⟨withReader { playing 5 (1350000000 - 689) with noWord := 1 }, ⟨5, 1350000000 - 689⟩, 4439, by decide⟩,
    ⟨withReader { playing 5 0 with noWord := 2 }, ⟨5, 0⟩, 3750, by decide⟩,
    ⟨withReader { playing 5 0 with noWord := 2, src := .line }, by decide⟩,
    ⟨withReader { playing 5 0 with noWord := 2 }, by decide⟩⟩

/-! ## Witnesses: deck ports -/

/-- The reset state with port 1 given. -/
def withPort (p : Port) : State := State.reset.setPort 0 p

/-- A late reply of which nothing has come. -/
def noneYet : LateState := .reply { bytes := [], bad := false }

/-- Hypotheses of DeckLineStatesAndPolls: SENDING; RECOVERING quiet for exactly 3 ms, after either end; a late reply and a stray
frame against a PRESENT deck with failure count 1. -/
theorem witness_line_states :
    (∃ s : State, s.asserted = false ∧ (s.port 0).line = .sending ∧ (s.port 0).flight.isSome = true) ∧
    (∃ (s : State) (t : Time), s.asserted = false ∧ (s.port 0).line = .recovering ∧ (s.port 0).byteAt + ms 3 = t ∧
      (s.port 0).replyFrom + ms 3 ≤ t ∧ (s.port 0).stray = none ∧ (s.port 0).late = .nothing) ∧
    (∃ (s : State) (t : Time), s.asserted = false ∧ (s.port 0).line = .recovering ∧ (s.port 0).byteAt + ms 3 ≤ t ∧
      (s.port 0).replyFrom + ms 3 = t ∧ (s.port 0).stray = none ∧ (s.port 0).late = .reply { bytes := [], bad := false }) ∧
    (∃ s : State, s.asserted = false ∧ (s.port 0).presence = .present ∧ (s.port 0).stray = none ∧ (s.port 0).fails < 2 ∧
      (s.port 0).line = .recovering ∧ (s.port 0).late = .reply { bytes := [], bad := false }) ∧
    (∃ s : State, s.asserted = false ∧ (s.port 0).presence = .present ∧ (s.port 0).stray = none ∧ (s.port 0).fails < 2 ∧
      (s.port 0).line = .idle) ∧
    (∃ s : State, s.asserted = false ∧ (s.port 0).presence = .present ∧ (s.port 0).stray = none ∧ (s.port 0).fails < 2 ∧
      (s.port 0).line = .sending) :=
  ⟨⟨withPort { deck with flight := some ⟨.stop, .sequencer⟩ }, by decide⟩,
    ⟨withPort { deck with line := .recovering, byteAt := 5 }, 3000005, by decide⟩,
    ⟨withPort { deck with line := .recovering, late := noneYet, replyFrom := 5 }, 3000005, by decide⟩,
    ⟨withPort { deck with line := .recovering, late := noneYet, fails := 1 }, by decide⟩,
    ⟨withPort { deck with line := .idle, fails := 1 }, by decide⟩, ⟨withPort { deck with fails := 1 }, by decide⟩⟩

/-- Hypotheses of DeckRepliesAreTaken: a poll, an identification and a passed-through command in flight; a
TIME_SENSE with each source of the record and with legal and illegal labels; a poll of a deck in either presence. -/
theorem witness_replies :
    (∃ s : State, s.asserted = false ∧ (s.port 0).line = .awaiting ∧ (s.port 0).stray = none ∧ (s.port 0).rx = none ∧
      (s.port 0).presence = .present ∧ (s.port 0).flight = some ⟨.statusSense, .poll⟩) ∧
    (∃ (s : State) (caps : Byte), s.asserted = false ∧ (s.port 0).line = .awaiting ∧ (s.port 0).stray = none ∧
      (s.port 0).rx = none ∧ (s.port 0).presence = .absent ∧ (s.port 0).flight = some ⟨.identify, .poll⟩ ∧
      caps.getLsbD 0 = false ∧ caps.getLsbD 1 = false) ∧
    (∃ (s : State) (c : DeckCmd) (k g : Byte), s.asserted = false ∧ (s.port 0).line = .awaiting ∧ (s.port 0).stray = none ∧
      (s.port 0).rx = none ∧ (s.port 0).presence = .present ∧ (s.port 0).flight = some ⟨c, .pass k g⟩ ∧ c.isSense = false) ∧
    (∀ x, ∃ s : State, s.asserted = false ∧ (s.port 0).line = .awaiting ∧ (s.port 0).stray = none ∧ (s.port 0).rx = none ∧
      (s.port 0).presence = .present ∧ (s.port 0).flight = some ⟨.timeSense, .poll⟩ ∧ (s.reader 0).src = x ∧
      (s.port 0).hasLineTime = true) ∧
    (∃ s : State, s.asserted = false ∧ (s.port 0).line = .awaiting ∧ (s.port 0).stray = none ∧ (s.port 0).rx = none ∧
      (s.port 0).presence = .present ∧ (s.port 0).flight = some ⟨.timeSense, .poll⟩ ∧ (s.reader 0).src = .none ∧
      (s.port 0).hasLineTime = false) ∧
    (Label.legal .f25 ⟨(23 : Byte).toNat, (59 : Byte).toNat, (59 : Byte).toNat, (24 : Byte).toNat⟩ = true ∧
      Label.legal .f25 ⟨(23 : Byte).toNat, (59 : Byte).toNat, (59 : Byte).toNat, (25 : Byte).toNat⟩ = false) ∧
    (∃ (s : State) (c : DeckCmd), s.asserted = false ∧ (s.port 0).line = .awaiting ∧ (s.port 0).stray = none ∧
      (s.port 0).rx = none ∧ (s.port 0).presence = .absent ∧ (s.port 0).flight = some ⟨c, .poll⟩) :=
  ⟨⟨withPort { deck with line := .awaiting, flight := some ⟨.statusSense, .poll⟩ }, by decide⟩,
    ⟨withPort { Port.initial with line := .awaiting, flight := some ⟨.identify, .poll⟩ }, 0x1C, by decide⟩,
    ⟨withPort { deck with line := .awaiting, flight := some ⟨.stop, .pass 0x10 5⟩ }, .stop, 0x10, 5, by decide⟩,
    fun x => ⟨(withPort { deck with line := .awaiting, flight := some ⟨.timeSense, .poll⟩ }).setReader 0
      { Reader.initial .f25 with src := x }, rfl, rfl, rfl, rfl, rfl, rfl, rfl, rfl⟩,
    ⟨withPort { deck with ident := none, line := .awaiting, flight := some ⟨.timeSense, .poll⟩ }, by decide⟩, by decide,
    ⟨withPort { Port.initial with line := .awaiting, flight := some ⟨.identify, .poll⟩ }, .identify, by decide⟩⟩

/-- A port whose poll has had no whole reply. -/
def polled : Port := { deck with line := .awaiting, flight := some ⟨.statusSense, .poll⟩, byteAt := 5, replyFrom := 5 }

/-- Hypotheses of DeckFailuresAreCounted, at exactly 12 ms and 3 ms, and of the third failure in a row. -/
theorem witness_failures :
    (∃ (s : State) (t : Time), s.asserted = false ∧ (s.port 0).presence = .present ∧
      (s.port 0).flight = some ⟨.statusSense, .poll⟩ ∧ (s.port 0).fails < 2 ∧ (s.port 0).line = .awaiting ∧
      (s.port 0).replyFrom + ms 12 = t) ∧
    (∃ (s : State) (t : Time), s.asserted = false ∧ (s.port 0).presence = .present ∧
      (s.port 0).flight = some ⟨.statusSense, .poll⟩ ∧ (s.port 0).fails < 2 ∧ (s.port 0).line = .receiving ∧
      (s.port 0).byteAt + ms 3 = t) ∧
    (∃ (s : State) (t : Time), s.asserted = false ∧ (s.port 0).presence = .present ∧
      (s.port 0).flight = some ⟨.statusSense, .poll⟩ ∧ (s.port 0).fails = 2 ∧ (s.port 0).line = .awaiting ∧
      (s.port 0).poll = none ∧ (s.port 0).replyFrom + ms 12 = t ∧ s.edit.phase = .idle ∧ (∀ e, (s.chan e).st = .idle) ∧
      s.link.masked .deckPresence = false) :=
  ⟨⟨withPort { polled with fails := 1 }, 12000005, by decide⟩,
    ⟨withPort { polled with line := .receiving, fails := 1 }, 3000005, by decide⟩,
    ⟨withPort { polled with fails := 2 }, 12000005, by decide⟩⟩

/-- Hypotheses of DeckLineStatesAndPolls, the POLL slot: exactly 500 ms; a poll posted, and each reason for none. -/
theorem witness_poll_slot :
    (∃ (s : State) (t a : Time), s.asserted = false ∧ (s.port 0).presence = .absent ∧ (s.port 0).enabled = true ∧
      (s.port 0).attachAt = some a ∧ a + ms 500 = t ∧ (s.port 0).poll = none) ∧
    (∃ s : State, s.asserted = false ∧ 0 < s.due.port[(0 : Deck).val] ∧ (s.port 0).presence = .present ∧
      (s.port 0).quiet = false ∧ (s.port 0).poll = none ∧ (s.port 0).odd = true ∧ (s.reader 0).src = .line) ∧
    (∃ s : State, s.asserted = false ∧ 0 < s.due.port[(0 : Deck).val] ∧ (s.port 0).presence ≠ .present) ∧
    (∃ s : State, s.asserted = false ∧ 0 < s.due.port[(0 : Deck).val] ∧ (s.port 0).quiet = true) ∧
    (∃ s : State, s.asserted = false ∧ 0 < s.due.port[(0 : Deck).val] ∧ (s.port 0).poll.isSome = true) :=
  ⟨⟨withPort { Port.initial with attachAt := some 5 }, 500000005, 5, by decide⟩,
    ⟨(withPort { deck with odd := true }).setReader 0 { Reader.initial .f25 with src := .line }, by decide⟩,
    ⟨State.reset, by decide⟩, ⟨withPort { deck with quiet := true }, by decide⟩,
    ⟨withPort { deck with poll := some .statusSense }, by decide⟩⟩

/-- Hypotheses of DeckCommandWaitsInThePassSlot: RECORD_ON and RECORD_OFF; LOCATE to a legal label; STATUS_SENSE. -/
theorem witness_deck_command :
    (∀ x ∈ [[(1 : Byte), 0x30, 31, 0], [1, 0x31]], let s := asked decksOn 0x10 x
     Takes s 0x10 (req 0x10 x) ∧ byteN (req 0x10 x).params 0 = Deck.num 0) ∧
    (let r := req 0x10 [1, 0x23, 23, 59, 59, 24]
     Takes (asked decksOn 0x10 r.params) 0x10 r ∧ byteN r.params 1 = 0x23 ∧ (r.params.drop 2).length = 4 ∧
       (labelAt (r.params.drop 2) 0).legal .f25 = true ∧ (labelAt (r.params.drop 2) 0).toFrame .f25 = 2159999 ∧
       (decksOn.port 0).presence = .present ∧ (decksOn.port 0).claim = .free ∧ (decksOn.port 0).pass = none) ∧
    (let r := req 0x10 [1, 0x11]
     Takes (ask 0x10 r.params) 0x10 r ∧ byteN r.params 1 < 0x20 ∧ (State.reset.port 0).presence ≠ .disabled ∧
       (State.reset.port 0).pass = none) := by and_intros <;> decide

/-- Hypotheses of PortEnableAndDisable, clause by clause. -/
theorem witness_port_enable :
    (∃ (s : State) (r : Request), Takes s 0x12 r ∧ byteN r.params 0 = Deck.num 0 ∧ byteN r.params 1 ≠ 0 ∧
      (s.port 0).presence = .disabled) ∧
    (∃ (s : State) (r : Request), Takes s 0x12 r ∧ byteN r.params 0 = Deck.num 0 ∧ byteN r.params 1 ≠ 0 ∧
      (s.port 0).presence ≠ .disabled) ∧
    (∃ (s : State) (r : Request), Takes s 0x12 r ∧ byteN r.params 0 = Deck.num 0 ∧ byteN r.params 1 = 0 ∧
      (s.port 0).claim = .sequencer) ∧
    (∃ (s : State) (r : Request), Takes s 0x12 r ∧ byteN r.params 0 = Deck.num 0 ∧ byteN r.params 1 = 0 ∧
      (s.port 0).claim ≠ .sequencer ∧ (s.port 0).presence = .disabled) ∧
    (∃ (s : State) (r : Request), Takes s 0x12 r ∧ byteN r.params 0 = Deck.num 5 ∧ byteN r.params 1 = 0 ∧
      (s.port 5).claim ≠ .sequencer ∧ (s.port 5).presence = .absent ∧ (s.port 5).pass = none) ∧
    (∃ (s : State) (r : Request), Takes s 0x12 r ∧ byteN r.params 0 = Deck.num 0 ∧ byteN r.params 1 = 0 ∧
      (s.port 0).claim ≠ .sequencer ∧ (s.port 0).presence = .present ∧ (s.port 0).pass.isSome = true ∧
      s.edit.phase = .idle ∧ ∀ e, (s.chan e).st = .idle) :=
  let off : State := withPort { Port.initial with presence := .disabled, enabled := false }
  ⟨⟨asked off 0x12 [1, 255], req 0x12 [1, 255], by decide⟩, ⟨ask 0x12 [1, 1], req 0x12 [1, 1], by decide⟩,
    ⟨asked (withPort { deck with claim := .sequencer }) 0x12 [1, 0], req 0x12 [1, 0], by decide⟩,
    ⟨asked off 0x12 [1, 0], req 0x12 [1, 0], by decide⟩, ⟨ask 0x12 [6, 0], req 0x12 [6, 0], by decide⟩,
    ⟨asked (withPort { deck with pass := some ⟨.stop, 0x10, 7⟩ }) 0x12 [1, 0], req 0x12 [1, 0], by decide⟩⟩

/-! ## Witnesses: chase -/

/-- The decks present, with channel 1 given. -/
def withChan (c : Channel) : State := decksOn.setChan 0 c

/-- A channel of the link on the house clock with offset 0. -/
def chasing (st : ChaseState) : Channel := { Channel.idle 75 1 0 with st := st, owner := some .link, master := some .house }

/-- SET_CHASE of deck 1 on a master, with offset 0, taken. -/
abbrev Sets (s : State) (m : Byte) : Prop := Takes (asked s 0x19 [1, m, 0, 0, 0]) 0x19 (req 0x19 [1, m, 0, 0, 0])

/-- A deck that SET_CHASE may take. -/
abbrev MayChase (s : State) : Prop :=
  (s.port 0).presence = .present ∧ (s.port 0).claim ≠ .sequencer ∧ (s.port 0).hasVarispeed = true

/-- The decks present, with port 1 given. -/
def onPort (p : Port) : State := decksOn.setPort 0 p

/-- Hypotheses of ChaseIsSetAndCleared, the checks of SET_CHASE in their order: deck numbers 0, 7 and a master of 7; an ABSENT
slave; a claimed one; one without VARISPEED; its own master; an absent master; a master that chases, a slave that is followed, a
source of the edit; and none of these, on a deck and on the house clock. -/
theorem witness_set_chase :
    (∀ x ∈ [[(0 : Byte), 0, 0, 0, 0], [7, 0, 0, 0, 0], [1, 7, 0, 0, 0]], Takes (ask 0x19 x) 0x19 (req 0x19 x)) ∧
    (Sets State.reset 0 ∧ (State.reset.port 0).presence ≠ .present) ∧
    (let s := onPort { deck with claim := .sequencer }
     Sets s 0 ∧ (s.port 0).presence = .present ∧ (s.port 0).claim = .sequencer) ∧
    (let s := onPort { deck with ident := none }
     Sets s 0 ∧ (s.port 0).presence = .present ∧ (s.port 0).claim ≠ .sequencer ∧ (s.port 0).hasVarispeed = false) ∧
    (Sets decksOn 1 ∧ MayChase decksOn) ∧
    (let s := decksOn.setPort 5 Port.initial
     Sets s 6 ∧ MayChase s ∧ (s.port 5).presence ≠ .present) ∧
    (let s := decksOn.setChan 5 (chasing .seek)
     Sets s 6 ∧ MayChase s ∧ (s.port 5).presence = .present ∧ (s.chan 5).st ≠ .idle) ∧
    (let s := decksOn.setChan 5 { chasing .seek with master := some (.deck 0) }
     Sets s 0 ∧ MayChase s ∧ (s.chan 5).st ≠ .idle ∧ (s.chan 5).follows 0 = true) ∧
    (let s : State := { decksOn with edit := { Edit.idle with srcA := some 5 } }
     Sets s 6 ∧ MayChase s ∧ (s.port 5).presence = .present ∧ 5 ∈ s.edit.sources) ∧
    (Sets decksOn 6 ∧ MayChase decksOn ∧ (∀ e : Deck, (decksOn.chan e).st ≠ .idle → (decksOn.chan e).follows 0 = false) ∧
      (decksOn.port 5).presence = .present ∧ (decksOn.chan 5).st = .idle ∧ 5 ∉ decksOn.edit.sources) ∧
    (let s := withChan (chasing .fault)
     Sets s 0 ∧ MayChase s ∧ ∀ e : Deck, (s.chan e).st ≠ .idle → (s.chan e).follows 0 = false) := by and_intros <;> decide

/-- Hypotheses of ChaseIsSetAndCleared, CLEAR_CHASE by the channel's owner. -/
theorem witness_clear_chase :
    (let s := withChan { chasing .seek with owner := some .sequencer }
     Takes (asked s 0x1A [1]) 0x1A (req 0x1A [1]) ∧ (s.chan 0).owner = some .sequencer) ∧
    (Takes (ask 0x1A [1]) 0x1A (req 0x1A [1]) ∧ (State.reset.chan 0).owner = none) ∧
    (let s := withChan (chasing .locked)
     Takes (asked s 0x1A [1]) 0x1A (req 0x1A [1]) ∧ (s.chan 0).owner = some .link ∧ (s.chan 0).st ≠ .idle) := by decide

/-- The premises common to the samples of a channel on a busy line. -/
abbrev Samples (s : State) : Prop :=
  s.asserted = false ∧ s.due.chase[(0 : Deck).val] = 1 ∧ s.safeStop = false ∧ s.link.expired = false ∧
    (s.port 0).line ≠ .idle ∧ (s.port 0).presence ≠ .disabled

/-- The decks present, with channel 1, reader 1 and port 1 given, and deck 2 standing at frame 1,000 on line time. -/
def sampled (c : Channel) (r : Reader) (p : Port) : State :=
  (((withChan c).setReader 0 r).setPort 0 p).setReader 1 { Reader.initial .f25 with src := .line, mark := some ⟨1000, 0⟩ }

/-- A channel that follows deck 2. -/
def follower (st : ChaseState) : Channel := { chasing st with master := some (.deck 1) }

/-- A deck that has reported CUE_DONE since its LOCATE. -/
def cuedDeck : Port := { deck with fresh := true, flags := some 64 }

/-- A reader without a position. -/
def lost : Reader := Reader.initial .f25

/-- Hypotheses of SeeksFollowLeadAndPark: a STOPPED master with the target 26 and 25 frames away; each call for a LEAD seek of a
running one, with 3 and 4 seeks made, in SEEK without a LEAD seek and with one whose goal is 1 frame behind, in PARKED with the
target a whole frame past, and in VARISPEED and LOCKED one line beyond the seek window; and a cued LOCATE with a running
master before its goal and with a master without a position. -/
theorem witness_seeks :
    (let s := sampled { follower .seek with kind := some .follow, target := some 974 } lost deck
     let x := s.sampleOf 0 1
     Samples s ∧ (s.chan 0).active = true ∧ (s.chan 0).owner = some .link ∧ x.cond = .stopped ∧ x.frame .f25 = some 1000 ∧
       (s.chan 0).acked = false ∧ (SuiteFormat.d .f25 1000 974).natAbs = 26) ∧
    (let s := sampled { follower .seek with kind := some .follow, target := some 975 } lost deck
     let x := s.sampleOf 0 1
     Samples s ∧ (s.chan 0).active = true ∧ (s.chan 0).owner = some .link ∧ x.cond = .stopped ∧ x.frame .f25 = some 1000 ∧
       (s.chan 0).acked = false ∧ (s.chan 0).kind = some .follow ∧ (SuiteFormat.d .f25 1000 975).natAbs = 25 ∧
       (s.chan 0).relocate = false ∧ (s.chan 0).replay = false) ∧
    (let s := sampled { chasing .seek with seeks := 3 } lost deck
     let x := s.sampleOf 0 1
     Samples s ∧ x.cond = .atPlay ∧ x.frame .f25 = some 0 ∧ (s.chan 0).acked = false ∧ (s.chan 0).kind = none ∧
       (s.chan 0).seeks = 3) ∧
    (let s := sampled { chasing .seek with kind := some .lead, target := some 2159999, seeks := 4 } lost deck
     let x := s.sampleOf 0 1
     Samples s ∧ x.cond = .atPlay ∧ x.frame .f25 = some 0 ∧ (s.chan 0).acked = false ∧
       SuiteFormat.d .f25 0 2159999 = 1 ∧ (s.chan 0).seeks = 4 ∧ (s.chan 0).owner = some .link) ∧
    (let s := sampled { chasing .parked with target := some 2159999 } lost deck
     let x := s.sampleOf 0 1
     Samples s ∧ x.cond = .atPlay ∧ x.frame .f25 = some 0 ∧ x.target = some 0 ∧
       SuiteFormat.dLines .f25 0 (2159999 * 625) = 625 ∧ (s.chan 0).seeks = 0) ∧
    (∀ st ∈ [ChaseState.varispeed, .locked],
     let s := sampled (chasing st) (playing 249 624) deck
     let x := s.sampleOf 0 1
     Samples s ∧ x.cond = .atPlay ∧ x.frame .f25 = some 0 ∧ x.err = some (-(155626 : Int)) ∧ s.set.seekWin * 625 = 156250 ∧
       (s.reader 0).src ≠ .line) ∧
    (∀ st ∈ [ChaseState.varispeed, .locked],
     let s := sampled (chasing st) (playing 250 624) deck
     let x := s.sampleOf 0 1
     Samples s ∧ x.cond = .atPlay ∧ x.frame .f25 = some 0 ∧ x.err = some (-(156251 : Int)) ∧ (s.reader 0).src ≠ .line) ∧
    (let s := sampled { chasing .seek with acked := true, target := some 11 } lost cuedDeck
     let x := s.sampleOf 0 1
     Samples s ∧ (s.chan 0).acked = true ∧ (s.port 0).fresh = true ∧ (s.port 0).flag 6 = true ∧ x.cond = .atPlay ∧
       x.target = some 0 ∧ SuiteFormat.dLines .f25 0 (11 * 625) < -(((s.port 0).playStart * 625 : Nat) : Int)) ∧
    (let s := sampled { chasing .seek with acked := true, target := some 11, master := some (.deck 5) } lost cuedDeck
     Samples s ∧ (s.chan 0).acked = true ∧ (s.port 0).fresh = true ∧ (s.port 0).flag 6 = true ∧
       (s.sampleOf 0 1).cond = .noPosition) := by and_intros <;> decide

/-- A channel's sample with an error of e lines, on the house clock. -/
abbrev Errs (s : State) (e : Int) : Prop :=
  Samples s ∧ (s.sampleOf 0 1).cond ≠ .stopped ∧ (s.sampleOf 0 1).err = some e ∧ e.natAbs ≤ s.set.seekWin * s.fmt.lpf

/-- Hypotheses of ChannelLocksAndUnlocks: AT_SPEED at 625 lines; errors of 12 and 13 lines in VARISPEED with 3 and 4 counted, and
on line time; errors of 48 and 49 lines in LOCKED with 0 and 1 counted, and on line time; a master without a position, and a
slave without one, in each state. -/
theorem witness_locks :
    (let s := sampled (chasing .rolling) (playing 0 0) deck
     Errs s (-625) ∧ s.atSpeed 0 = true) ∧
    (let s := sampled { chasing .varispeed with inWin := 3 } (playing 2159999 12) deck
     Errs s 12 ∧ (s.reader 0).src = .ltc ∧ min 25 ((s.chan 0).inWin + 1) < s.set.lockCount) ∧
    (let s := sampled { chasing .varispeed with inWin := 4 } (playing 2159999 12) deck
     Errs s 12 ∧ (s.reader 0).src = .ltc ∧ min 25 ((s.chan 0).inWin + 1) = s.set.lockCount) ∧
    (let s := sampled { chasing .varispeed with inWin := 4 } (playing 2159999 13) deck
     Errs s 13 ∧ s.set.lockWin = 12) ∧
    (let s := sampled { chasing .varispeed with inWin := 4 } { playing 1 0 with src := .line } deck
     Errs s (-625) ∧ (s.reader 0).src = .line) ∧
    (let s := sampled { chasing .locked with outWin := 1 } (playing 2159999 48) deck
     Errs s 48 ∧ s.set.unlockWin = 48) ∧
    (let s := sampled (chasing .locked) (playing 2159999 49) deck
     Errs s 49 ∧ (s.chan 0).outWin = 0) ∧
    (let s := sampled { chasing .locked with outWin := 1 } (playing 2159999 49) deck
     Errs s 49 ∧ (s.chan 0).outWin = 1) ∧
    (let s := sampled (chasing .locked) { playing 1 0 with src := .line } deck
     Errs s (-625) ∧ (s.reader 0).src = .line) ∧
    (∀ st ∈ [ChaseState.varispeed, .locked],
     let s := sampled { chasing st with master := some (.deck 5) } (playing 0 0) deck
     Samples s ∧ (s.sampleOf 0 1).cond ≠ .stopped ∧ (s.sampleOf 0 1).slave.isSome = true ∧ (s.sampleOf 0 1).target = none) ∧
    (∀ st ∈ [ChaseState.varispeed, .locked],
     let s := sampled (chasing st) lost deck
     Samples s ∧ (s.sampleOf 0 1).cond ≠ .stopped ∧ (s.sampleOf 0 1).slave = none) := by and_intros <;> decide

/-- Hypotheses of ChannelRollsOrFaults: a target exactly the play start ahead, and one line short of passing by a frame; a
roll count of 1. -/
theorem witness_roll :
    (∃ (s : State) (g : Nat), s.asserted = false ∧ 0 < s.due.chase[(0 : Deck).val] ∧ s.safeStop = false ∧
      s.link.expired = false ∧ (s.port 0).line ≠ .idle ∧ (s.chan 0).st = .parked ∧ (s.chan 0).master = some .house ∧
      (s.chan 0).target = some g ∧
      -(s.fmt.dLines (s.fmt.addLines (s.clockAt s.due.chase[(0 : Deck).val] * s.fmt.lpf) ((s.chan 0).offset * s.fmt.lpf))
        (g * s.fmt.lpf)) = ((s.port 0).playStart * s.fmt.lpf : Nat)) ∧
    (∃ (s : State) (g : Nat), s.asserted = false ∧ 0 < s.due.chase[(0 : Deck).val] ∧ s.safeStop = false ∧
      s.link.expired = false ∧ (s.port 0).line ≠ .idle ∧ (s.chan 0).st = .parked ∧ (s.chan 0).master = some .house ∧
      (s.chan 0).target = some g ∧
      s.fmt.dLines (s.fmt.addLines (s.clockAt s.due.chase[(0 : Deck).val] * s.fmt.lpf) ((s.chan 0).offset * s.fmt.lpf))
        (g * s.fmt.lpf) = 0) ∧
    (∃ s : State, s.asserted = false ∧ 0 < s.due.chase[(0 : Deck).val] ∧ s.safeStop = false ∧ s.link.expired = false ∧
      (s.port 0).line ≠ .idle ∧ (s.port 0).presence ≠ .disabled ∧ (s.chan 0).st = .rolling ∧ (s.chan 0).roll = 1 ∧
      s.atSpeed 0 = false ∧ (s.chan 0).owner = some .link ∧ (s.chan 0).master = some .house) :=
  ⟨⟨withChan { chasing .parked with target := some 10 }, 10, by decide⟩,
    ⟨withChan { chasing .parked with target := some 0 }, 0, by decide⟩,
    ⟨withChan { chasing .rolling with roll := 1 }, by decide⟩⟩

/-- Hypotheses of DrivenChannelPostsItsSpeed: an error of 625 lines in VARISPEED, and of 624 in LOCKED. -/
theorem witness_driven :
    (∃ (s : State) (p : Nat), s.asserted = false ∧ 0 < s.due.chase[(0 : Deck).val] ∧ s.safeStop = false ∧
      s.link.expired = false ∧ (s.port 0).line ≠ .idle ∧ (s.port 0).servo = none ∧ (s.chan 0).st = .varispeed ∧
      (s.chan 0).master = some .house ∧ s.extrap 0 (s.startInstant s.due.chase[(0 : Deck).val]) = some p ∧
      (s.fmt.dLines 0 p).natAbs = 625 ∧ s.clockAt s.due.chase[(0 : Deck).val] = 0 ∧ (s.reader 0).src ≠ .line ∧
      (s.chan 0).speed = none) ∧
    (∃ (s : State) (p : Nat), s.asserted = false ∧ 0 < s.due.chase[(0 : Deck).val] ∧ s.safeStop = false ∧
      s.link.expired = false ∧ (s.port 0).line ≠ .idle ∧ (s.port 0).servo = none ∧ (s.chan 0).st = .locked ∧
      (s.chan 0).master = some .house ∧ s.extrap 0 (s.startInstant s.due.chase[(0 : Deck).val]) = some p ∧
      (s.fmt.dLines 0 p).natAbs = 624 ∧ s.clockAt s.due.chase[(0 : Deck).val] = 0 ∧ (s.reader 0).src ≠ .line ∧
      (s.chan 0).speed = none) :=
  ⟨⟨(withChan (chasing .varispeed)).setReader 0 (playing 0 0), 625, by decide⟩,
    ⟨(withChan (chasing .locked)).setReader 0 (playing 0 1), 624, by decide⟩⟩

/-! ## Witnesses: the event list -/

/-- The decks present, with event 10 in the list. -/
def listed : State := { decksOn with list := { EventList.initial with events := [(10, pendingEvent)] } }

/-- The reset state with a load window and pointer. -/
def windowed (low high ptr : Nat) : State :=
  { State.reset with list := { EventList.initial with low := low, high := high, ptr := ptr } }

/-- The layout of cutEvent: Table 12-4 written out. -/
theorem test_record_layout : fieldsOf .f25 cutBytes = cutEvent ∧ cutEvent.bytes .f25 = cutBytes := by decide

/-- Hypotheses of LoadTakesARecordAtThePointer: a valid record at both ends of the window, the same for an active event,
an invalid label, and a pointer below, above and at 1000. -/
theorem witness_load :
    (∃ (s : State) (r : Request) (n : Nat), Takes s 0x21 r ∧ n = s.list.low ∧ r.params.length = 29 + 8 * byteN r.params 28 ∧
      n ≤ 1000 ∧ n ≤ s.list.high ∧ n < 1000 ∧ invalidReason s.fmt s.recorder r.params = none ∧ s.list.active ≠ some n ∧
      s.list.events.length < 250) ∧
    (∃ (s : State) (r : Request) (n : Nat), Takes s 0x22 r ∧ n = s.list.ptr ∧ r.params.length = 29 + 8 * byteN r.params 28 ∧
      s.list.low ≤ n ∧ n = s.list.high ∧ n = 999 ∧ invalidReason s.fmt s.recorder r.params = none ∧
      s.list.active ≠ some n ∧ (s.list.get n).isSome = true) ∧
    (∃ (s : State) (r : Request) (n : Nat) (why : Invalid), Takes s 0x22 r ∧ n = s.list.ptr ∧
      r.params.length = 29 + 8 * byteN r.params 28 ∧ s.list.low ≤ n ∧ n ≤ s.list.high ∧ n < 1000 ∧
      invalidReason s.fmt s.recorder r.params = some why) ∧
    (∃ (s : State) (r : Request) (n : Nat), Takes s 0x22 r ∧ n = s.list.ptr ∧ r.params.length = 29 + 8 * byteN r.params 28 ∧
      n + 1 = s.list.low) ∧
    (∃ (s : State) (r : Request) (n : Nat), Takes s 0x22 r ∧ n = s.list.ptr ∧ r.params.length = 29 + 8 * byteN r.params 28 ∧
      n = s.list.high + 1) ∧
    (∃ (s : State) (r : Request) (n : Nat), Takes s 0x22 r ∧ n = s.list.ptr ∧ r.params.length = 29 + 8 * byteN r.params 28 ∧
      n = 1000) :=
  let bad : List Byte := [0, 24] ++ cutBytes.drop 2
  let full : State := { windowed 1 999 999 with list := { (windowed 1 999 999).list with events := [(999, pendingEvent)] } }
  ⟨⟨ask 0x21 cutBytes, req 0x21 cutBytes, 1, by decide⟩, ⟨asked full 0x22 cutBytes, req 0x22 cutBytes, 999, by decide⟩,
    ⟨ask 0x22 bad, req 0x22 bad, 1, .timecodeInvalid, by decide⟩,
    ⟨asked (windowed 10 20 9) 0x22 cutBytes, req 0x22 cutBytes, 9, by decide⟩,
    ⟨asked (windowed 10 20 21) 0x22 cutBytes, req 0x22 cutBytes, 21, by decide⟩,
    ⟨asked (windowed 1 999 1000) 0x22 cutBytes, req 0x22 cutBytes, 1000, by decide⟩⟩

/-- A record at the ends of its ranges: a WIPE with pattern 31 and four triggers. -/
def fullEvent : EventFields :=
  { cutEvent with
    type := .wipe, recOut := 2159999, b := some { deck := 5, inAt := 2159999 }, t := 16777215, d := 65535, curve := .s
    pattern := some { num := 31, rev := true }, kind := .insert
    triggers := [{ output := 7, offset := -8388608, line := 65535, action := .pulse 255 },
      { output := 0, offset := 8388607, line := 0, action := .off }] }

/-- Hypotheses of RecordLayoutRoundTrips. -/
theorem witness_fields_fit : FieldsFit .f25 cutEvent ∧ FieldsFit .f25 fullEvent := by decide

/-- Hypotheses of ListWindowAndPruning: windows 1..1 and 1..999, 0..1 and 1..1000; ranges judged alike; the list with and
without an active event. -/
theorem witness_pruning :
    (∃ (s : State) (r : Request), Takes s 0x20 r ∧ natAt r.params 0 2 = 1 ∧ natAt r.params 2 2 = 999) ∧
    (∃ (s : State) (r : Request), Takes s 0x20 r ∧ natAt r.params 0 2 = 1 ∧ natAt r.params 2 2 = 1000) ∧
    (∃ (s : State) (r : Request), Takes s 0x24 r ∧ natAt r.params 0 2 = 10 ∧ natAt r.params 2 2 = 10 ∧
      s.list.active = some 10) ∧
    (∃ (s : State) (r : Request), Takes s 0x26 r ∧ natAt r.params 0 2 = 1 ∧ natAt r.params 2 2 = 999) ∧
    (∃ (s : State) (r : Request), Takes s 0x24 r ∧ natAt r.params 0 2 = 0 ∧ natAt r.params 2 2 = 1) ∧
    (∃ (s : State) (r : Request), Takes s 0x26 r ∧ natAt r.params 0 2 = 2 ∧ natAt r.params 2 2 = 1) ∧
    (∃ (s : State) (r : Request), Takes s 0x25 r ∧ s.list.active = none) ∧
    (∃ (s : State) (r : Request), Takes s 0x25 r ∧ s.list.active.isSome = true) :=
  let busy : State := { listed with list := { listed.list with active := some 10 } }
  ⟨⟨ask 0x20 [0, 1, 3, 0xE7], req 0x20 [0, 1, 3, 0xE7], by decide⟩,
    ⟨ask 0x20 [0, 1, 3, 0xE8], req 0x20 [0, 1, 3, 0xE8], by decide⟩,
    ⟨asked busy 0x24 [0, 10, 0, 10], req 0x24 [0, 10, 0, 10], by decide⟩,
    ⟨asked busy 0x26 [0, 1, 3, 0xE7], req 0x26 [0, 1, 3, 0xE7], by decide⟩,
    ⟨ask 0x24 [0, 0, 0, 1], req 0x24 [0, 0, 0, 1], by decide⟩, ⟨ask 0x26 [0, 2, 0, 1], req 0x26 [0, 2, 0, 1], by decide⟩,
    ⟨ask 0x25 [], req 0x25 [], by decide⟩, ⟨asked busy 0x25 [], req 0x25 [], by decide⟩⟩

/-! ## Witnesses: executing an edit -/

/-- A LOCKED suite with its decks present and event 10 listed. -/
def ready : State := { listed with ref := (lockedAt 1).ref }

/-- Hypotheses of ExecuteClaimsFailsOrIsRefused, the claim. -/
theorem witness_execute : ∃ (s : State) (r : Request) (m : EditMode) (x : Event), Takes s 0x29 r ∧
    EditMode.ofCode (byteN r.params 2) = some m ∧ s.edit.phase = .idle ∧ s.run.active = false ∧
    (m = .perform → s.ref.st = .locked) ∧ 1 ≤ natAt r.params 0 2 ∧ natAt r.params 0 2 ≤ 999 ∧
    s.list.get (natAt r.params 0 2) = some x ∧ s.claimCheck x.fields m = none ∧ s.link.expired = false :=
  ⟨asked ready 0x29 [0, 10, 0], req 0x29 [0, 10, 0], .perform, pendingEvent, by decide⟩

/-- Hypotheses of ExecuteClaimsFailsOrIsRefused: an absent deck; an edit; a run; no reference; numbers 0, 1000 and an empty one. -/
theorem witness_execute_refused :
    (∃ (s : State) (r : Request) (m : EditMode) (x : Event) (why : Reason), Takes s 0x29 r ∧
      EditMode.ofCode (byteN r.params 2) = some m ∧ s.edit.phase = .idle ∧ s.run.active = false ∧
      (m = .perform → s.ref.st = .locked) ∧ 1 ≤ natAt r.params 0 2 ∧ natAt r.params 0 2 ≤ 999 ∧
      s.list.get (natAt r.params 0 2) = some x ∧ s.claimCheck x.fields m = some why) ∧
    (∃ (s : State) (r : Request) (m : EditMode), Takes s 0x29 r ∧ EditMode.ofCode (byteN r.params 2) = some m ∧
      s.edit.phase ≠ .idle) ∧
    (∃ (s : State) (r : Request) (m : EditMode), Takes s 0x29 r ∧ EditMode.ofCode (byteN r.params 2) = some m ∧
      s.run.active = true) ∧
    (∃ (s : State) (r : Request) (m : EditMode), Takes s 0x29 r ∧ EditMode.ofCode (byteN r.params 2) = some m ∧
      s.edit.phase = .idle ∧ s.run.active = false ∧ m = .perform ∧ s.ref.st ≠ .locked) ∧
    (∃ (s : State) (r : Request) (m : EditMode), Takes s 0x29 r ∧ EditMode.ofCode (byteN r.params 2) = some m ∧
      s.edit.phase = .idle ∧ s.run.active = false ∧ m ≠ .perform ∧ natAt r.params 0 2 = 0) ∧
    (∃ (s : State) (r : Request) (m : EditMode), Takes s 0x29 r ∧ EditMode.ofCode (byteN r.params 2) = some m ∧
      s.edit.phase = .idle ∧ s.run.active = false ∧ m ≠ .perform ∧ natAt r.params 0 2 = 1000) ∧
    (∃ (s : State) (r : Request) (m : EditMode), Takes s 0x29 r ∧ EditMode.ofCode (byteN r.params 2) = some m ∧
      s.edit.phase = .idle ∧ s.run.active = false ∧ m ≠ .perform ∧ s.list.get (natAt r.params 0 2) = none) :=
  let gone : State := { listed with ports := Vector.replicate 6 Port.initial }
  ⟨⟨asked gone 0x29 [0, 10, 1], req 0x29 [0, 10, 1], .preview, pendingEvent, .deckAbsent, by decide⟩,
    ⟨asked { listed with edit := { Edit.idle with phase := .release } } 0x29 [0, 10, 1], req 0x29 [0, 10, 1], .preview, by decide⟩,
    ⟨asked { listed with run := { Run.initial with st := .held } } 0x29 [0, 10, 1], req 0x29 [0, 10, 1], .preview, by decide⟩,
    ⟨asked listed 0x29 [0, 10, 0], req 0x29 [0, 10, 0], .perform, by decide⟩,
    ⟨asked listed 0x29 [0, 0, 1], req 0x29 [0, 0, 1], .preview, by decide⟩,
    ⟨asked listed 0x29 [3, 0xE8, 1], req 0x29 [3, 0xE8, 1], .preview, by decide⟩,
    ⟨asked listed 0x29 [0, 11, 1], req 0x29 [0, 11, 1], .preview, by decide⟩⟩

/-- Event 10 in hand in a phase and mode, with deadline k, decks 1 and 2 involved. -/
def editing (m : EditMode) (ph : Phase) (k : Nat) : Edit :=
  { Edit.idle with
    active := some (10, cutEvent), mode := some m, phase := ph, deadline := k, involved := [0, 1], onDelay := 2, offDelay := 2
    postroll := 50, syncPassed := true }

/-- That edit with the recorder at frame n at the frame start owed. -/
def recAt (e : Edit) (n : Nat) : State := ({ decksOn with edit := e } : State).setReader 0 (playing (n - 1) 0)

/-- Hypotheses of EditEndsInPostrollAndRelease: the record-off point 15,248, one frame before it, the last frame of postroll
15,300, and a deadline of 1. -/
theorem witness_edit_end :
    (∃ (s : State) (x : Nat) (m : EditMode), s.asserted = false ∧ 0 < s.due.seq ∧ s.safeStop = false ∧
      s.edit.active = some (10, cutEvent) ∧ s.edit.mode = some m ∧ m ≠ .perform ∧ s.edit.abort = none ∧
      s.edit.phase = .editing ∧ s.recFrame (s.startInstant s.due.seq) = some x ∧
      s.fmt.d x (s.fmt.addFrames cutEvent.recOut (-(s.edit.offDelay : Int))) = 0) ∧
    (∃ (s : State) (x : Nat) (m : EditMode), s.asserted = false ∧ 0 < s.due.seq ∧ s.safeStop = false ∧
      s.edit.active = some (10, cutEvent) ∧ s.edit.mode = some m ∧ m ≠ .perform ∧ s.edit.abort = none ∧
      s.edit.phase = .editing ∧ s.recFrame (s.startInstant s.due.seq) = some x ∧
      s.fmt.d x (s.fmt.addFrames cutEvent.recOut (-(s.edit.offDelay : Int))) = -1 ∧ 2 ≤ s.edit.deadline) ∧
    (∃ (s : State) (m : EditMode), s.asserted = false ∧ 0 < s.due.seq ∧ s.safeStop = false ∧
      s.edit.active = some (10, cutEvent) ∧ s.edit.mode = some m ∧ s.edit.abort = none ∧ s.edit.phase = .postroll ∧
      s.edit.deadline = 1) ∧
    (∃ (s : State) (m : EditMode) (x : Nat), s.asserted = false ∧ 0 < s.due.seq ∧ s.safeStop = false ∧
      s.edit.active = some (10, cutEvent) ∧ s.edit.mode = some m ∧ s.edit.abort = none ∧ s.edit.phase = .postroll ∧
      s.recFrame (s.startInstant s.due.seq) = some x ∧ s.fmt.d x (s.fmt.addFrames cutEvent.recOut s.edit.postroll) = 0) :=
  ⟨⟨recAt (editing .preview .editing 2) 15248, 15248, .preview, by decide⟩,
    ⟨recAt (editing .review .editing 2) 15247, 15247, .review, by decide⟩,
    ⟨recAt (editing .perform .postroll 1) 15250, .perform, by decide⟩,
    ⟨recAt (editing .perform .postroll 9) 15300, .perform, 15300, by decide⟩⟩

/-- Hypotheses of SyncAndRecordPoints, RECORD_ON: the record-on point 14,998, the last frame before the in point 15,000, the in
point, and the in point with delay 0. -/
theorem witness_record_on :
    (∃ (s : State) (x : Nat), s.asserted = false ∧ 0 < s.due.seq ∧ s.safeStop = false ∧
      s.edit.active = some (10, cutEvent) ∧ s.edit.mode = some .perform ∧ s.edit.abort = none ∧ s.edit.phase = .rolling ∧
      s.edit.syncPassed = true ∧ s.recFrame (s.startInstant s.due.seq) = some x ∧ (s.port s.recorder).line ≠ .idle ∧
      s.link.expired = false ∧ (s.port s.recorder).seqSlot = { first := none, second := none } ∧
      s.fmt.d x (s.fmt.addFrames cutEvent.recOut (-(s.edit.offDelay : Int))) < 0 ∧
      s.fmt.d x (s.fmt.addFrames cutEvent.recIn (-(s.edit.onDelay : Int))) = 0 ∧ s.fmt.d x cutEvent.recIn < 0) ∧
    (∃ (s : State) (x : Nat), s.asserted = false ∧ 0 < s.due.seq ∧ s.safeStop = false ∧
      s.edit.active = some (10, cutEvent) ∧ s.edit.mode = some .perform ∧ s.edit.abort = none ∧ s.edit.phase = .rolling ∧
      s.edit.syncPassed = true ∧ s.recFrame (s.startInstant s.due.seq) = some x ∧ (s.port s.recorder).line ≠ .idle ∧
      s.link.expired = false ∧ (s.port s.recorder).seqSlot = { first := none, second := none } ∧
      s.fmt.d x (s.fmt.addFrames cutEvent.recOut (-(s.edit.offDelay : Int))) < 0 ∧ s.edit.onDelay = 0 ∧
      s.fmt.d x cutEvent.recIn = 0) ∧
    (∃ (s : State) (x : Nat), s.asserted = false ∧ 0 < s.due.seq ∧ s.safeStop = false ∧
      s.edit.active = some (10, cutEvent) ∧ s.edit.mode = some .perform ∧ s.edit.abort = none ∧ s.edit.phase = .rolling ∧
      s.edit.syncPassed = true ∧ s.recFrame (s.startInstant s.due.seq) = some x ∧ (s.port s.recorder).line ≠ .idle ∧
      s.link.expired = false ∧ (s.port s.recorder).seqSlot = { first := none, second := none } ∧
      s.fmt.d x (s.fmt.addFrames cutEvent.recOut (-(s.edit.offDelay : Int))) < 0 ∧ s.edit.onDelay = 2 ∧
      s.fmt.d x cutEvent.recIn = 0) :=
  ⟨⟨recAt (editing .perform .rolling 9) 14998, 14998, by decide⟩,
    ⟨recAt { editing .perform .rolling 9 with onDelay := 0 } 15000, 15000, by decide⟩,
    ⟨recAt (editing .perform .rolling 9) 15000, 15000, by decide⟩⟩

/-- The premises common to a frame start of the sequencer in event 10's edit, in a mode and phase, at recorder frame n. -/
abbrev TestsAt (s : State) (ev : EventFields) (m : EditMode) (ph : Phase) (n : Nat) : Prop :=
  s.asserted = false ∧ s.due.seq = 1 ∧ s.safeStop = false ∧ s.link.expired = false ∧ s.edit.active = some (10, ev) ∧
    s.edit.mode = some m ∧ s.edit.abort = none ∧ s.edit.phase = ph ∧ s.recFrame (s.startInstant 1) = some n

/-- Event 10's edit before its sync point, with source deck 2 and a margin of 25. -/
def unsynced (m : EditMode) : Edit := { editing m .rolling 9 with syncPassed := false, srcA := some 1, margin := 25 }

/-- That edit at recorder frame n, with its source's channel LOCKED. -/
def syncAt (m : EditMode) (n : Nat) : State := (recAt (unsynced m) n).setChan 1 (chasing .locked)

/-- Hypotheses of SyncAndRecordPoints: one frame before the sync point 14,975 and at it, with the source unlocked, the recorder
on line time, and neither, in PERFORM and PREVIEW; the record-on point of REVIEW. -/
theorem witness_sync_point :
    (TestsAt (syncAt .perform 14974) cutEvent .perform .rolling 14974 ∧ SuiteFormat.d .f25 14974 (15000 - 25) = -1 ∧
      (syncAt .perform 14974).edit.replay = false ∧ 2 ≤ (syncAt .perform 14974).edit.deadline) ∧
    (let s := recAt (unsynced .perform) 14975
     TestsAt s cutEvent .perform .rolling 14975 ∧ s.edit.replay = false ∧ s.edit.syncPassed = false ∧
       SuiteFormat.d .f25 14975 (15000 - 25) = 0 ∧ s.edit.srcA = some 1 ∧ (s.chan 1).st ≠ .locked ∧
       s.recorder ∈ s.edit.involved) ∧
    (let s := (syncAt .perform 14975).setReader 0 { playing 14975 0 with src := .line }
     TestsAt s cutEvent .perform .rolling 14975 ∧ (s.chan 1).st = .locked ∧ s.edit.srcB = none ∧ (s.reader s.recorder).src = .line ∧
       s.recorder ∈ s.edit.involved) ∧
    (∀ m ∈ [EditMode.perform, .preview],
     let s := syncAt m 14997
     TestsAt s cutEvent m .rolling 14997 ∧ (s.chan 1).st = .locked ∧ s.edit.srcB = none ∧ (s.reader s.recorder).src = .ltc ∧
       SuiteFormat.d .f25 14997 (15000 - 2) = -1 ∧ 2 ≤ s.edit.deadline) ∧
    (let s := recAt (editing .review .rolling 9) 14998
     TestsAt s cutEvent .review .rolling 14998 ∧ s.edit.syncPassed = true ∧ SuiteFormat.d .f25 14998 (15000 - 2) = 0 ∧
       SuiteFormat.d .f25 14998 (15250 - 2) < 0) := by and_intros <;> decide

/-- Hypotheses of SyncAndRecordPoints, RECORD_OFF: at the record-off point 15,248, posted already, on a busy line, and on an IDLE
line two frames past the point. -/
theorem witness_record_off :
    (let s := recAt { editing .perform .editing 9 with offPosted := true } 15248
     TestsAt s cutEvent .perform .editing 15248 ∧ SuiteFormat.d .f25 15248 (15250 - 2) = 0 ∧ 2 ≤ s.edit.deadline) ∧
    (let s := recAt (editing .perform .editing 9) 15248
     TestsAt s cutEvent .perform .editing 15248 ∧ s.edit.offPosted = false ∧ (s.port s.recorder).line ≠ .idle ∧
       (s.port s.recorder).seqSlot = { first := none, second := none }) ∧
    (let s := (recAt (editing .perform .editing 9) 15250).setPort 0 { deck with line := .idle, standing := true, quiet := true }
     TestsAt s cutEvent .perform .editing 15250 ∧ s.edit.offPosted = false ∧ (s.port s.recorder).line = .idle ∧
       (s.port s.recorder).seqSlot = { first := none, second := none } ∧ (s.port s.recorder).emerg = none ∧
       (s.port s.recorder).presence ≠ .disabled ∧ SuiteFormat.d .f25 15250 (15250 - 2) = 2) := by and_intros <;> decide

/-- A WIPE from deck 2 to deck 3 with triggers in no order. -/
def wipeEvent : EventFields :=
  { cutEvent with
    type := .wipe, b := some { deck := 2, inAt := 80000 }, t := 50, d := 25, pattern := some { num := 3, rev := true }
    triggers := [{ output := 3, offset := 10, line := 20, action := .on }, { output := 2, offset := -5, line := 20, action := .pulse 4 },
      { output := 1, offset := 10, line := 19, action := .off }] }

/-- Event 10 in CUEING with decks 1 to 3 involved, the first two cued or not. -/
def cueing (ev : EventFields) (m : EditMode) (done : Bool) : State :=
  { decksOn with
    ports := Vector.replicate 6 cuedDeck
    edit := { Edit.idle with
      active := some (10, ev), mode := some m, phase := .cueing, deadline := 2, involved := [0, 1, 2], preroll := 125
      playStart := 10, srcA := some 1, srcB := some 2, offA := some 75000, offB := some 64950, cueA := some 89875
      cueB := some 79825, acked := #v[true, done, true, true, true, true], cued := #v[true, false, false, false, false, false] } }

/-- Hypotheses of CueingPassesToRolling: a deck not cued with a deadline of 2, and every deck cued, in PERFORM and in REVIEW. -/
theorem witness_cueing :
    (let s := cueing wipeEvent .perform false
     s.asserted = false ∧ 0 < s.due.seq ∧ s.safeStop = false ∧ s.link.expired = false ∧ s.edit.active = some (10, wipeEvent) ∧
       s.edit.mode = some .perform ∧ s.edit.abort = none ∧ s.edit.phase = .cueing ∧
       (∀ d : Deck, s.edit.relocate[d.val] = false) ∧ 1 ∈ s.edit.involved ∧ s.edit.cued[(1 : Deck).val] = false ∧
       s.edit.acked[(1 : Deck).val] = false ∧ s.edit.deadline = 2) ∧
    (∀ m ∈ [EditMode.perform, .preview, .review],
     let s := cueing wipeEvent m true
     s.asserted = false ∧ 0 < s.due.seq ∧ s.safeStop = false ∧ s.link.expired = false ∧ s.edit.active = some (10, wipeEvent) ∧
       s.edit.mode = some m ∧ s.edit.abort = none ∧ s.edit.phase = .cueing ∧
       (∀ d : Deck, s.edit.relocate[d.val] = false) ∧
       (∀ d ∈ s.edit.involved, s.edit.cued[d.val] = true ∨
         (s.edit.acked[d.val] = true ∧ (s.port d).fresh = true ∧ (s.port d).flag 6 = true)) ∧
       (s.port s.recorder).line ≠ .idle ∧ (s.port s.recorder).seqSlot = { first := none, second := none } ∧
       s.edit.srcA = some 1 ∧ s.edit.srcB = some 2 ∧ s.edit.offA = some 75000 ∧ s.edit.offB = some 64950 ∧
       s.edit.cueA = some 89875 ∧ s.edit.cueB = some 79825) := by and_intros <;> decide

/-- Deck 1 awaits the reply to a sequencer's command, in a phase of event 10's edit. -/
def sequenced (c : DeckCmd) (ph : Phase) : State :=
  { onPort { deck with line := .awaiting, flight := some ⟨c, .sequencer⟩, fails := 1 } with
    edit := { editing .perform ph 9 with stops := [0, 1] } }

/-- The premises of SequencerTakesItsOutcomes at exactly 12 ms. -/
abbrev Outcomes (s : State) (c : DeckCmd) : Prop :=
  s.asserted = false ∧ s.safeStop = false ∧ (s.port 0).line = .awaiting ∧ (s.port 0).stray = none ∧ (s.port 0).rx = none ∧
    (s.port 0).presence = .present ∧ (s.port 0).fails < 2 ∧ (s.port 0).replyFrom + ms 12 = 12000000 ∧
    (s.port 0).flight = some ⟨c, .sequencer⟩

/-- Hypotheses of SequencerTakesItsOutcomes: each of the sequencer's commands; a failed LOCATE and a failed PLAY to post again. -/
theorem witness_outcomes :
    (Outcomes (sequenced (.locate 5) .cueing) (.locate 5) ∧ (sequenced (.locate 5) .cueing).edit.phase = .cueing) ∧
    (Outcomes (sequenced .play .rolling) .play ∧ (sequenced .play .rolling).edit.phase ≠ .idle) ∧
    (Outcomes (sequenced .stop .release) .stop ∧ (sequenced .stop .release).edit.phase = .release ∧
      ∃ x ∈ (sequenced .stop .release).edit.stops, x ≠ (0 : Deck)) ∧
    (∀ c ∈ [DeckCmd.recordOn 31 .assemble, .recordOff, .play, .locate 5],
     let s := sequenced c .editing
     Outcomes s c ∧ s.edit.phase.abortable = true ∧ s.edit.abort = none ∧ s.recorder ∈ s.edit.involved ∧
       s.link.expired = false) ∧
    (let s : State := { decksOn with edit := { editing .perform .cueing 2 with
       relocate := #v[true, false, false, false, false, false], cueR := some 14875 } }
     s.asserted = false ∧ 0 < s.due.seq ∧ s.safeStop = false ∧ s.link.expired = false ∧ s.edit.active = some (10, cutEvent) ∧
       s.edit.mode = some .perform ∧ s.edit.abort = none ∧ s.edit.deadline = 2 ∧ s.edit.involved.Nodup ∧
       (∀ d ∈ s.edit.involved, (s.port d).line ≠ .idle ∧ (s.port d).seqSlot = { first := none, second := none }) ∧
       s.edit.phase = .cueing ∧ s.edit.cued[(0 : Deck).val] = false ∧ s.edit.acked[(0 : Deck).val] = false ∧
       s.edit.relocate[(0 : Deck).val] = true ∧ s.edit.cueOf 0 = some 14875 ∧ s.edit.relocate[(1 : Deck).val] = false) ∧
    (∀ sync ∈ [true, false],
     let s : State := { decksOn with edit := { editing .perform .rolling 2 with replay := true, syncPassed := sync } }
     s.asserted = false ∧ 0 < s.due.seq ∧ s.safeStop = false ∧ s.link.expired = false ∧ s.edit.active = some (10, cutEvent) ∧
       s.edit.mode = some .perform ∧ s.edit.abort = none ∧ s.edit.deadline = 2 ∧ s.edit.involved.Nodup ∧
       (∀ d ∈ s.edit.involved, (s.port d).line ≠ .idle ∧ (s.port d).seqSlot = { first := none, second := none }) ∧
       s.edit.phase = .rolling ∧ s.recorder ∈ s.edit.involved ∧ s.edit.replay = true ∧
       s.recFrame (s.startInstant s.due.seq) = none) := by and_intros <;> decide

/-- The last STOP of event 10's edit, aborted or not at a record stage, with a run in a state over 1 to n. -/
def lastStop (why : Option Reason) (stage : RecordStage) (st : RunState) (n : Nat) (loop : Bool) (m : EditMode) : State :=
  { onPort { deck with line := .awaiting, flight := some ⟨.stop, .sequencer⟩ } with
    edit := { editing .perform .release 9 with stops := [0], abort := why, abortStage := stage }
    list := { EventList.initial with
      active := some 10
      events := [(3, pendingEvent), (10, pendingEvent), (12, { pendingEvent with fields := { cutEvent with a := 5 } })] }
    run := { Run.initial with
      st := st, first := some 1, last := some n, mode := some m, current := some 10, loop := loop, wraps := 65535 } }

/-- Hypotheses of EndOfEditIsWritten: every ending of R130, with no run acting. -/
theorem witness_end_of_edit : ∀ why ∈ [none, some Reason.noLock], ∀ stage ∈ [RecordStage.notSent, .onHanded, .offHanded],
    ∀ st ∈ [RunState.idle, .held], let s := lastStop why stage st 10 false .preview
    LastStop s 0 10 cutEvent ∧ s.run.st ≠ .executing ∧ s.run.st ≠ .pausing := by decide

/-- Hypotheses of DeadlinesAndSilenceAbortTheEdit: a deadline of 1 in CUEING, ROLLING and EDITING. -/
theorem witness_deadline :
    (∃ (s : State) (m : EditMode), s.asserted = false ∧ 0 < s.due.seq ∧ s.safeStop = false ∧
      s.edit.active = some (10, cutEvent) ∧ s.edit.mode = some m ∧ s.edit.abort = none ∧ s.edit.deadline = 1 ∧
      s.edit.replay = false ∧ (s.port s.recorder).standing = false ∧ s.edit.phase = .cueing ∧
      (∀ d : Deck, s.edit.relocate[d.val] = false) ∧
      ∃ d ∈ s.edit.involved, s.edit.cued[d.val] = false ∧ s.edit.acked[d.val] = false) ∧
    (∃ (s : State) (m : EditMode), s.asserted = false ∧ 0 < s.due.seq ∧ s.safeStop = false ∧
      s.edit.active = some (10, cutEvent) ∧ s.edit.mode = some m ∧ s.edit.abort = none ∧ s.edit.deadline = 1 ∧
      s.edit.replay = false ∧ (s.port s.recorder).standing = false ∧ s.edit.phase = .rolling ∧
      s.recFrame (s.startInstant s.due.seq) = none) ∧
    (∃ (s : State) (m : EditMode), s.asserted = false ∧ 0 < s.due.seq ∧ s.safeStop = false ∧
      s.edit.active = some (10, cutEvent) ∧ s.edit.mode = some m ∧ s.edit.abort = none ∧ s.edit.deadline = 1 ∧
      s.edit.replay = false ∧ (s.port s.recorder).standing = false ∧ s.edit.phase = .editing ∧
      s.recFrame (s.startInstant s.due.seq) = none) :=
  ⟨⟨{ decksOn with edit := editing .preview .cueing 1 }, .preview, by decide⟩,
    ⟨{ decksOn with edit := editing .perform .rolling 1 }, .perform, by decide⟩,
    ⟨{ decksOn with edit := editing .review .editing 1 }, .review, by decide⟩⟩

/-- Hypotheses of AbortAndAllStop. -/
theorem witness_abort :
    (∃ (s : State) (r : Request), Takes s 0x2A r ∧ s.edit.phase = .idle) ∧
    (∃ (s : State) (r : Request), Takes s 0x2A r ∧ s.edit.phase.abortable = true ∧ s.edit.abort = none ∧
      s.safeStop = false ∧ s.recorder ∈ s.edit.involved) ∧
    (∃ (s : State) (r : Request), Takes s 0x2A r ∧ s.edit.phase ≠ .idle ∧ s.edit.abort.isSome = true) ∧
    (∃ (s : State) (r : Request), Takes s 0x2A r ∧ s.edit.phase = .release ∧ s.edit.abort = none) ∧
    (∃ (s : State) (r : Request), Takes s 0x2B r ∧ s.edit.phase.abortable = true ∧ s.edit.abort = none ∧
      s.safeStop = false ∧ s.recorder ∈ s.edit.involved ∧ s.edit.involved.Nodup ∧ s.run.active = true ∧
      (s.port 1).line = .idle ∧ (s.port 1).emerg = none ∧ (s.port 1).standing = false ∧ (s.port 0).line ≠ .idle ∧
      (s.chan 5).owner = some .link ∧ (s.chan 5).st ≠ .idle) ∧
    (∃ (s : State) (r : Request), Takes s 0x2B r ∧ s.edit.phase = .release) ∧
    (∃ (s : State) (r : Request), Takes s 0x2B r ∧ s.edit.phase = .idle ∧ (s.chan 0).owner = some .link ∧
      (s.chan 0).st ≠ .idle ∧ (s.port 0).presence = .present ∧ (s.port 0).line ≠ .idle ∧ s.run.active = true) ∧
    (∃ (s : State) (r : Request), Takes s 0x2B r ∧ s.edit.phase = .idle ∧ s.run.active = false) :=
  ⟨⟨ask 0x2A [], req 0x2A [], by decide⟩,
    ⟨asked { decksOn with edit := editing .perform .postroll 1 } 0x2A [], req 0x2A [], by decide⟩,
    ⟨asked { decksOn with edit := { editing .perform .rolling 1 with abort := some .aborted } } 0x2A [], req 0x2A [], by decide⟩,
    ⟨asked { decksOn with edit := editing .perform .release 1 } 0x2A [], req 0x2A [], by decide⟩,
    ⟨asked ({ (decksOn.setPort 1 { deck with line := .idle }).setChan 5 (chasing .seek) with
      edit := editing .perform .postroll 1, run := { Run.initial with st := .executing } } : State) 0x2B [], req 0x2B [],
      by decide⟩,
    ⟨asked { decksOn with edit := editing .perform .release 1 } 0x2B [], req 0x2B [], by decide⟩,
    ⟨asked { withChan (chasing .seek) with run := { Run.initial with st := .held } } 0x2B [], req 0x2B [], by decide⟩,
    ⟨ask 0x2B [], req 0x2B [], by decide⟩⟩

/-! ## Witnesses: list runs -/

/-- A run over 10 to 20 with event 10 current. -/
def runAt (st : RunState) : Run :=
  { Run.initial with st := st, first := some 10, last := some 20, mode := some .preview, current := some 10 }

/-- Hypotheses of RunStartsItsEvent: a forward and a reverse start, and a continued run. -/
theorem witness_run_start :
    (∃ (s : State) (r : Request) (x : Run) (e : Event), Takes s 0x30 r ∧ s.run.active = false ∧
      1 ≤ natAt r.params 0 2 ∧ natAt r.params 0 2 ≤ natAt r.params 2 2 ∧ natAt r.params 2 2 ≤ 999 ∧
      Direction.ofCode (byteN r.params 4) = some .forward ∧
      RunPolicy.ofCode (byteN r.params 7) = some .skipDone ∧ EditMode.ofCode (byteN r.params 5) = some .preview ∧ x = { Run.initial with
        first := some (natAt r.params 0 2), last := some (natAt r.params 2 2), dir := .forward, mode := some .preview
        loop := byteN r.params 6 != 0, policy := .skipDone } ∧ x.search s.list.events none = some 10 ∧
      s.edit.phase = .idle ∧ s.list.get 10 = some e ∧ s.claimCheck e.fields .preview = none ∧ s.link.expired = false) ∧
    (∃ (s : State) (r : Request) (x : Run) (e : Event), Takes s 0x30 r ∧ s.run.active = false ∧
      1 ≤ natAt r.params 0 2 ∧ natAt r.params 0 2 ≤ natAt r.params 2 2 ∧ natAt r.params 2 2 ≤ 999 ∧
      Direction.ofCode (byteN r.params 4) = some .reverse ∧
      RunPolicy.ofCode (byteN r.params 7) = some .all ∧ EditMode.ofCode (byteN r.params 5) = some .preview ∧ x = { Run.initial with
        first := some (natAt r.params 0 2), last := some (natAt r.params 2 2), dir := .reverse, mode := some .preview
        loop := byteN r.params 6 != 0, policy := .all } ∧ x.search s.list.events none = some 10 ∧
      s.edit.phase = .idle ∧ s.list.get 10 = some e ∧ s.claimCheck e.fields .preview = none ∧ s.link.expired = false) ∧
    (∃ (s : State) (r : Request) (e : Event), Takes s 0x31 r ∧ s.run.st = .held ∧ s.run.mode = some .preview ∧
      s.run.current = some 10 ∧ s.edit.phase = .idle ∧ s.list.get 10 = some e ∧
      s.claimCheck e.fields .preview = none ∧ s.link.expired = false) :=
  ⟨⟨asked listed 0x30 [0, 1, 3, 0xE7, 0, 1, 0, 0], req 0x30 [0, 1, 3, 0xE7, 0, 1, 0, 0],
      { Run.initial with first := some 1, last := some 999, mode := some .preview }, pendingEvent, by decide⟩,
    ⟨asked listed 0x30 [0, 10, 0, 10, 1, 1, 1, 1], req 0x30 [0, 10, 0, 10, 1, 1, 1, 1],
      { Run.initial with
        first := some 10, last := some 10, dir := .reverse, mode := some .preview, loop := true, policy := .all },
      pendingEvent, by decide⟩,
    ⟨asked { listed with run := runAt .held } 0x31 [], req 0x31 [], pendingEvent, by decide⟩⟩

/-- Hypotheses of SkipStopAndPauseRun, for every state of the cursor. -/
theorem witness_run_states :
    (∃ (s : State) (r : Request), Takes s 0x32 r ∧ s.run.st = .held ∧ s.run.current = some 10 ∧ s.run.loop = false ∧
      s.run.search (s.list.events.map fun x =>
        if x.1 = 10 then (x.1, { x.2 with status := .skipped, failure := none }) else x) (some 10) = none) ∧
    (∀ st, ∃ (s : State) (r : Request), Takes s 0x34 r ∧ s.run.st = st) ∧
    (∀ st, ∃ (s : State) (r : Request), Takes s 0x33 r ∧ s.run.st = st) :=
  ⟨⟨asked { listed with run := runAt .held } 0x32 [], req 0x32 [], by decide⟩,
    fun st => ⟨asked { State.reset with run := runAt st } 0x34 [], req 0x34 [], by cases st <;> decide⟩,
    fun st => ⟨asked { State.reset with run := runAt st } 0x33 [], req 0x33 [], by cases st <;> decide⟩⟩

/-- Hypotheses of RunActsOnTheWrittenStatus: FAILED and INCOMPLETE under EXECUTING and PAUSING; DONE under PAUSING; the end of the
range; the next event, with its decks present and with its source absent; the first again with a loop; no reference. -/
theorem witness_run_acts :
    (∀ st ∈ [RunState.executing, .pausing], ∀ x ∈ [(RecordStage.notSent, EventStatus.failed), (.onHanded, .incomplete)],
     let s := lastStop (some .noLock) x.1 st 10 false .preview
     LastStop s 0 10 cutEvent ∧ s.run.st = st ∧ (endingOf s.edit).1 = x.2) ∧
    (let s := lastStop none .notSent .pausing 10 false .preview
     LastStop s 0 10 cutEvent ∧ s.run.st = .pausing ∧ (endingOf s.edit).1 = .done) ∧
    (let s := lastStop none .notSent .executing 11 false .preview
     LastStop s 0 10 cutEvent ∧ s.run.search (written s 10).events s.run.current = none ∧ s.run.loop = false) ∧
    (let s := lastStop none .notSent .executing 12 false .preview
     LastStop s 0 10 cutEvent ∧ s.run.search (written s 10).events s.run.current = some 12 ∧ s.run.mode = some .preview ∧
       ((written s 10).get 12).map (fun z => s.claimCheck z.fields .preview) = some none) ∧
    (let s := (lastStop none .notSent .executing 12 false .perform).setPort 5 Port.initial
     LastStop s 0 10 cutEvent ∧ s.run.search (written s 10).events s.run.current = some 12 ∧ s.run.mode = some .perform ∧
       ((written s 10).get 12).map (fun z => (s.claimCheck z.fields .perform).isSome) = some true) ∧
    (let s := lastStop none .notSent .executing 10 true .perform
     LastStop s 0 10 cutEvent ∧ s.run.search (written s 10).events s.run.current = none ∧ s.run.loop = true ∧
       s.run.search (written s 10).events none = some 3 ∧ s.run.mode = some .perform ∧ s.ref.st ≠ .locked ∧
       ((written s 10).get 3).isSome = true) := by and_intros <;> decide

/-! ## Witnesses: transition engine and mixer line -/

/-- The reset state with an engine. -/
def withEngine (e : Engine) : State := { State.reset with engine := e }

/-- An engine in a state at level m. -/
def engineIn (st : EngineState) (m : Nat) : Engine := { State.reset.engine with st := st, level := m }

/-- A MIX plan of 20 frames in a state of ownership, starting at frame n of a SEQUENCER plan. -/
def mixPlan (o : Owner) (n : Option Nat) : Plan :=
  { type := .mix, curve := .linear, dur := 20, pattern := { num := 0, rev := false }, a := .deck 1, b := .deck 2, start := n
    owner := o, preview := false }

/-- Hypotheses of CurvesRiseToFullLevel: D = 1 and 2D = 2, where k = 0 falls on no half and k = 1 on a half. -/
theorem witness_curves : (1 : Nat) ≤ 1 ∧ 2 * (1023 * 0 ^ 2 * (6 * 1 - 2 * 0)) % (2 * (8 * 1 ^ 3)) ≠ 8 * 1 ^ 3 ∧
    2 * (1023 * 1 ^ 2 * (6 * 1 - 2 * 1)) % (2 * (8 * 1 ^ 3)) = 8 * 1 ^ 3 ∧ (1023 : Nat) ≤ 1023 := by decide

/-- Hypotheses of EngineTakesAFieldStart, RUNNING: the last field of a curve and of a take, and the field after each. -/
theorem witness_running :
    (∃ (s : State) (x : FieldStart) (p : Plan), s.asserted = false ∧ s.due.engine = [x] ∧ s.engine.st = .running ∧
      s.engine.form = .curve ∧ s.engine.plan = some p ∧ s.engine.k + 1 = 2 * p.dur) ∧
    (∃ (s : State) (x : FieldStart) (m d : Nat), s.asserted = false ∧ s.due.engine = [x] ∧ s.engine.st = .running ∧
      s.engine.form = .take m d ∧ s.engine.k + 1 = 2 * d) ∧
    (∃ (s : State) (x : FieldStart) (p : Plan), s.asserted = false ∧ s.due.engine = [x] ∧ s.engine.st = .running ∧
      s.engine.form = .curve ∧ s.engine.plan = some p ∧ 2 * p.dur < s.engine.k + 1) ∧
    (∃ (s : State) (x : FieldStart) (m d : Nat), s.asserted = false ∧ s.due.engine = [x] ∧ s.engine.st = .running ∧
      s.engine.form = .take m d ∧ 2 * d < s.engine.k + 1) :=
  let x : FieldStart := { frame := 0, field2 := false }
  let c (k : Nat) : State := withEngine { engineIn .running 0 with plan := some (mixPlan .link none), k := k }
  let t (k : Nat) : State := withEngine { engineIn .running 0 with form := .take 100 5, k := k }
  ⟨⟨c 39, x, mixPlan .link none, by decide⟩, ⟨t 9, x, 100, 5, by decide⟩, ⟨c 40, x, mixPlan .link none, by decide⟩,
    ⟨t 10, x, 100, 5, by decide⟩⟩

/-- An ARMED plan with start frame n, the recorder at frame 100 at a start of field 1 or 2. -/
def armedAt (n : Nat) (field2 : Bool) : State :=
  { (withEngine { engineIn .armed 0 with plan := some (mixPlan .sequencer (some n)) }).setReader 0 (playing 99 0) with
    due := { State.reset.due with engine := [{ frame := 0, field2 := field2 }] } }

/-- Hypotheses of EngineTakesAFieldStart, ARMED: field 2, no position, one frame early, and the start frame. -/
theorem witness_armed :
    (∃ (s : State) (x : FieldStart) (p : Plan) (n : Nat), s.asserted = false ∧ s.due.engine = [x] ∧ s.engine.st = .armed ∧
      s.engine.plan = some p ∧ p.start = some n ∧ x.field2 = true) ∧
    (∃ (s : State) (x : FieldStart) (p : Plan) (n : Nat), s.asserted = false ∧ s.due.engine = [x] ∧ s.engine.st = .armed ∧
      s.engine.plan = some p ∧ p.start = some n ∧ s.recFrame (x.frame * s.fmt.lpf) = none) ∧
    (∃ (s : State) (x : FieldStart) (p : Plan) (n y : Nat), s.asserted = false ∧ s.due.engine = [x] ∧
      s.engine.st = .armed ∧ s.engine.plan = some p ∧ p.start = some n ∧ s.recFrame (x.frame * s.fmt.lpf) = some y ∧
      s.fmt.d y n = -1) ∧
    (∃ (s : State) (x : FieldStart) (p : Plan) (n y : Nat), s.asserted = false ∧ s.due.engine = [x] ∧
      s.engine.st = .armed ∧ s.engine.plan = some p ∧ p.start = some n ∧ x.field2 = false ∧
      s.recFrame (x.frame * s.fmt.lpf) = some y ∧ s.fmt.d y n = 0 ∧ p.type = .mix) :=
  let p (n : Nat) : Plan := mixPlan .sequencer (some n)
  ⟨⟨armedAt 100 true, ⟨0, true⟩, p 100, 100, by decide⟩,
    ⟨(armedAt 100 false).setReader 0 (Reader.initial .f25), ⟨0, false⟩, p 100, 100, by decide⟩,
    ⟨armedAt 101 false, ⟨0, false⟩, p 101, 101, 100, by decide⟩, ⟨armedAt 100 false, ⟨0, false⟩, p 100, 100, 100, by decide⟩⟩

/-- A state whose edit takes the engine's reports. -/
def reported (s : State) : State := { s with engine := { s.engine with live := true }, edit := editing .perform .editing 9 }

/-- Hypotheses of EngineTakesAFieldStart, ARMED one frame late and at the frame, for each type of plan, with and without an edit
to tell; IDLE with and without a pending cut, HELD and MANUAL. -/
theorem witness_armed_late :
    (∀ t ∈ [PlanType.none, .cut, .mix, .wipe], ∀ n ∈ [99, 100],
     let p : Plan := { mixPlan .sequencer (some n) with type := t }
     let s := reported { armedAt n false with engine := { engineIn .armed 0 with plan := some p } }
     s.asserted = false ∧ s.due.engine = [⟨0, false⟩] ∧ s.engine.st = .armed ∧ s.engine.plan = some p ∧ p.start = some n ∧
       s.recFrame 0 = some 100 ∧ s.fmt.d 100 n = 100 - n ∧ s.engine.live = true ∧ s.edit.running = true ∧
       s.safeStop = false) ∧
    ((armedAt 99 false).engine.live = false ∧ (armedAt 99 false).edit.running = false) ∧
    (∀ st ∈ [EngineState.idle, .held, .manual], ∀ cut ∈ [true, false],
     let s := withEngine { engineIn st 0 with pendCut := cut }
     s.asserted = false ∧ s.due.engine = [⟨0, false⟩] ∧ s.engine.st = st ∧ s.engine.pendCut = cut) := by decide

/-- Hypotheses of MixerOpensAndSendsRecords: both fields; field 1's send line 9 and field 2's send line 322 just reached. -/
theorem witness_mixer :
    (∃ (s : State) (x : FieldStart), s.asserted = false ∧ s.due.mixer = [x] ∧ x.field2 = true) ∧
    (∃ (s : State) (x : FieldStart), s.asserted = false ∧ s.due.mixer = [x] ∧ x.field2 = false ∧ s.mixer.pendOff = some 20) ∧
    (∃ s : State, s.asserted = false ∧ s.mixer.opened = some 1 ∧ s.due.mixer = [] ∧
      s.fmt.firstLine (1 == 2) + s.mixer.offset = s.ref.line) ∧
    (∃ s : State, s.asserted = false ∧ s.mixer.opened = some 2 ∧ s.due.mixer = [] ∧
      s.fmt.firstLine (2 == 2) + s.mixer.offset = s.ref.line) :=
  let s (n line : Nat) : State := { lockedAt line with
    due := { State.reset.due with mixer := [] }, mixer := { Mixer.initial with opened := some n } }
  ⟨⟨{ State.reset with due := { State.reset.due with mixer := [⟨0, true⟩] } }, ⟨0, true⟩, by decide⟩,
    ⟨{ State.reset with mixer := { Mixer.initial with pendOff := some 20 } }, ⟨0, false⟩, by decide⟩, ⟨s 1 9, by decide⟩,
    ⟨s 2 322, by decide⟩⟩

/-- A prepared plan of a type. -/
def prepared (t : TransType) : Prepared :=
  { type := t, curve := .linear, pattern := { num := 0, rev := false }, a := .deck 1, b := .deck 2 }

/-- Hypotheses of PanelTransitions, clause by clause. -/
theorem witness_panel :
    (∃ (s : State) (r : Request), Takes s 0x39 r ∧ TransType.ofCode (byteN r.params 0) = some .wipe ∧
      Curve.ofCode (byteN r.params 1) = some .s ∧ VideoSource.ofCode (byteN r.params 4) = some (.deck 5) ∧
      VideoSource.ofCode (byteN r.params 5) = some .aux2 ∧ s.engine.st ≠ .idle) ∧
    (∃ (s : State) (r : Request), Takes s 0x39 r ∧ TransType.ofCode (byteN r.params 0) = some .cut ∧
      Curve.ofCode (byteN r.params 1) = some .linear ∧ VideoSource.ofCode (byteN r.params 4) = some .black ∧
      VideoSource.ofCode (byteN r.params 5) = some .bars ∧ s.engine.st = .idle) ∧
    (∀ st, ∃ (s : State) (r : Request), Takes s 0x3A r ∧ s.engine.st = st ∧ s.engine.prepared = none) ∧
    (∃ (s : State) (r : Request), Takes s 0x3A r ∧ s.engine.st = .idle ∧ s.engine.pendCut = true) ∧
    (∀ t, ∃ (s : State) (r : Request), Takes s 0x3A r ∧ s.engine.st = .idle ∧ s.engine.prepared = some (prepared t) ∧
      s.engine.pendCut = false) ∧
    (∀ st, ∃ (s : State) (r : Request), Takes s 0x3B r ∧ s.engine.st = st ∧ s.engine.seqPlan = false) ∧
    (∀ st, ∃ (s : State) (r : Request), Takes s 0x3C r ∧ s.engine.st = st ∧ s.engine.seqPlan = false) :=
  ⟨⟨asked (withEngine (engineIn .held 5)) 0x39 [2, 1, 255, 1, 6, 9], req 0x39 [2, 1, 255, 1, 6, 9], by decide⟩,
    ⟨ask 0x39 [0, 0, 0, 0, 0, 7], req 0x39 [0, 0, 0, 0, 0, 7], by decide⟩,
    fun st => ⟨asked (withEngine (engineIn st 0)) 0x3A [0, 0], req 0x3A [0, 0], by cases st <;> decide⟩,
    ⟨asked (withEngine { engineIn .idle 0 with pendCut := true }) 0x3A [0, 1], req 0x3A [0, 1], by decide⟩,
    fun t => ⟨asked (withEngine { engineIn .idle 0 with prepared := some (prepared t) }) 0x3A [0xFF, 0xFF],
      req 0x3A [0xFF, 0xFF], by cases t <;> decide⟩,
    fun st => ⟨asked (withEngine (engineIn st 0)) 0x3B [], req 0x3B [], by cases st <;> decide⟩,
    fun st => ⟨asked (withEngine (engineIn st 0)) 0x3C [], req 0x3C [], by cases st <;> decide⟩⟩

/-- Hypotheses of PanelTransitions and LeverPicksUpAndFollows on the sequencer's plan, RUNNING or ARMED, with an edit to tell and
with one that the engine does not report to. -/
theorem witness_taken_over : ∀ live ∈ [true, false], ∀ st ∈ [EngineState.running, .armed],
    let s : State := { decksOn with
      engine := { engineIn st 200 with plan := some (mixPlan .sequencer (some 5)), live := live, mapped := 100 }
      edit := editing .perform .cueing 9 }
    Takes (asked s 0x3B []) 0x3B (req 0x3B []) ∧ Takes (asked s 0x3C []) 0x3C (req 0x3C []) ∧
      Takes (asked s 0x3D [0, 201]) 0x3D (req 0x3D [0, 201]) ∧ s.engine.st = st ∧ s.engine.seqPlan = true ∧
      s.engine.live = live ∧ s.edit.running = true ∧ s.safeStop = false ∧ s.engine.mapped < s.engine.level ∧
      s.engine.level < 201 := by decide

/-- The engine's mapped value, level and the lever's new mapped value. -/
def leverPicks (v0 m v : Nat) : Bool := v0 < m ∧ m < v ∨ v < m ∧ m < v0 ∨ v = m ∧ v0 ≠ m ∨ v0 = m ∧ v ≠ m

/-- Hypotheses of LeverPicksUpAndFollows: crossings both ways, arrival, departure, none; ARMED; MANUAL at 1022, and at 1023
from either sense. -/
theorem witness_lever :
    (leverPicks 100 200 201 && leverPicks 300 200 199 && leverPicks 100 200 200 && leverPicks 200 200 201 &&
      !leverPicks 100 200 199 && !leverPicks 200 200 200) = true ∧
    (∃ (s : State) (r : Request), Takes s 0x3D r ∧ s.engine.st = .held ∧ s.engine.inverted = false ∧
      leverPicks s.engine.mapped s.engine.level (min 1023 (natAt r.params 0 2)) = true) ∧
    (∃ (s : State) (r : Request), Takes s 0x3D r ∧ s.engine.st = .running ∧ s.engine.seqPlan = false ∧
      leverPicks s.engine.mapped s.engine.level (min 1023 (natAt r.params 0 2)) = true) ∧
    (∃ (s : State) (r : Request), Takes s 0x3D r ∧ s.engine.st = .idle ∧ s.engine.inverted = false ∧
      leverPicks s.engine.mapped s.engine.level (min 1023 (natAt r.params 0 2)) = false) ∧
    (∃ (s : State) (r : Request), Takes s 0x3D r ∧ s.engine.st = .armed) ∧
    (∃ (s : State) (r : Request), Takes s 0x3D r ∧ s.engine.st = .manual ∧ s.engine.inverted = false ∧
      min 1023 (natAt r.params 0 2) = 1022) ∧
    (∃ (s : State) (r : Request), Takes s 0x3D r ∧ s.engine.st = .manual ∧ s.engine.inverted = false ∧
      min 1023 (natAt r.params 0 2) = 1023) ∧
    (∃ (s : State) (r : Request), Takes s 0x3D r ∧ s.engine.st = .manual ∧ s.engine.inverted = true ∧
      1023 - min 1023 (natAt r.params 0 2) = 1023) :=
  ⟨by decide, ⟨asked (withEngine (engineIn .held 200)) 0x3D [0, 201], req 0x3D [0, 201], by decide⟩,
    ⟨asked (withEngine (engineIn .running 200)) 0x3D [0, 200], req 0x3D [0, 200], by decide⟩,
    ⟨ask 0x3D [0, 0], req 0x3D [0, 0], by decide⟩,
    ⟨asked (withEngine (engineIn .armed 0)) 0x3D [0, 1], req 0x3D [0, 1], by decide⟩,
    ⟨asked (withEngine (engineIn .manual 9)) 0x3D [3, 0xFE], req 0x3D [3, 0xFE], by decide⟩,
    ⟨asked (withEngine (engineIn .manual 9)) 0x3D [0xFF, 0xFF], req 0x3D [0xFF, 0xFF], by decide⟩,
    ⟨asked (withEngine { engineIn .manual 9 with inverted := true }) 0x3D [0, 0], req 0x3D [0, 0], by decide⟩⟩

/-! ## Witnesses: outputs -/

/-- A locked house at a line, with output 1 as given, a schedule, and k frame starts owed to the GPI unit. -/
def gpiAt (line k : Nat) (o : GpiOut) (l : List GpiEntry) : State :=
  { (lockedAt line).setReader 0 (playing 99 0) with
    gpi := { outs := State.reset.gpi.outs.set 0 o, sched := l }, due := { State.reset.due with gpi := k } }

/-- An entry of output 8 due at frame n, line 100. -/
def entryAt (n : Nat) : GpiEntry :=
  { output := 7, due := n, offset := 0, line := 100, action := .on, event := 10, place := 1, inFrame := false, late := false }

/-- Output 1 with a running pulse. -/
def pulsing (left endLine skip : Nat) : GpiOut := { on := true, pulse := some { left, endLine, skip } }

/-- Output 1 off. -/
def quietOut : GpiOut := { on := false, pulse := none }

/-- Hypotheses of OutputsActPulseAndTally: the three actions at both output numbers; pulses with 2, 1 and 0 frames left on
either side of their end line; an entry at its line, and a pulse counted out; a tally at levels 511 and 512. -/
theorem witness_outputs :
    (∃ (s : State) (r : Request), Takes s 0x40 r ∧ byteN r.params 0 = (0 : GpiNo).val + 1 ∧ byteN r.params 1 = 0) ∧
    (∃ (s : State) (r : Request), Takes s 0x40 r ∧ byteN r.params 0 = (7 : GpiNo).val + 1 ∧ byteN r.params 1 = 1) ∧
    (∃ (s : State) (r : Request), Takes s 0x40 r ∧ byteN r.params 0 = (7 : GpiNo).val + 1 ∧ byteN r.params 1 = 2) ∧
    (∀ left endLine skip, ∃ s : State, s.asserted = false ∧ s.due.gpi = 1 ∧ s.gpi.sched = [] ∧
      (s.gpi.out 0).pulse = some { left, endLine, skip } ∧ (s.gpi.out 1).pulse = none ∧ s.ref.line = 100) ∧
    (∃ (s : State) (x : GpiEntry), s.asserted = false ∧ s.due.gpi = 0 ∧ s.gpi.sched = [x] ∧ x.inFrame = true ∧
      x.late = false ∧ x.line = s.ref.line) ∧
    (∃ (s : State) (p : Pulse), s.asserted = false ∧ s.due.gpi = 0 ∧ (s.gpi.out 0).pulse = some p ∧ p.left = 0 ∧
      p.endLine = s.ref.line) ∧
    (∃ s : State, s.asserted = false ∧ s.engine.preview = false ∧ s.engine.level = 511 ∧ s.engine.xa = .deck 5) ∧
    (∃ s : State, s.asserted = false ∧ s.engine.preview = false ∧ s.engine.level = 512 ∧ s.engine.xb = .deck 5) :=
  ⟨⟨ask 0x40 [1, 0, 0, 255], req 0x40 [1, 0, 0, 255], by decide⟩, ⟨ask 0x40 [8, 1, 0, 0], req 0x40 [8, 1, 0, 0], by decide⟩,
    ⟨ask 0x40 [8, 2, 0, 0], req 0x40 [8, 2, 0, 0], by decide⟩,
    fun left endLine skip => ⟨gpiAt 100 1 (pulsing left endLine skip) [], ⟨rfl, rfl, rfl, rfl, rfl, rfl⟩⟩,
    ⟨gpiAt 100 0 quietOut [{ entryAt 100 with inFrame := true }], { entryAt 100 with inFrame := true }, by decide⟩,
    ⟨gpiAt 100 0 (pulsing 0 100 0) [], { left := 0, endLine := 100, skip := 0 }, by decide⟩,
    ⟨withEngine { engineIn .held 511 with xa := .deck 5 }, by decide⟩,
    ⟨withEngine { engineIn .held 512 with xb := .deck 5 }, by decide⟩⟩

/-- The hypotheses of EntryIsJudgedAtAFrameStart at a state, with an entry marked or not. -/
abbrev Judged (s : State) (x : GpiEntry) (marked : Bool) : Prop :=
  s.asserted = false ∧ s.due.gpi = 1 ∧ s.gpi.sched = [x] ∧ x.late = false ∧ x.inFrame = marked ∧ s.safeStop = false ∧
    (s.edit.phase = .rolling ∨ s.edit.phase = .editing ∨ s.edit.phase = .postroll)

/-- The GPI unit at a line with an entry due at frame n, in a phase of event 10's edit, a pulse running at output 1. -/
def judging (line n : Nat) (ph : Phase) (marked : Bool) : State :=
  { gpiAt line 1 (pulsing 2 100 0) [{ entryAt n with inFrame := marked }] with edit := editing .perform ph 9 }

/-- Hypotheses of EntryIsJudgedAtAFrameStart, in each phase: a marked entry; no position; d = -1; d = 0 one line before the line
and at it; d = 1, 2 and 3. -/
theorem witness_judged : ∀ ph ∈ [Phase.rolling, .editing, .postroll],
    Judged (judging 1 200 ph true) { entryAt 200 with inFrame := true } true ∧
    (let s := (judging 1 100 ph false).setReader 0 (Reader.initial .f25)
     Judged s (entryAt 100) false ∧ s.recFrame (s.startInstant 1) = none) ∧
    (∀ n ∈ [97, 98, 99, 100, 101], Judged (judging 1 n ph false) (entryAt n) false ∧
      (judging 1 n ph false).recFrame ((judging 1 n ph false).startInstant 1) = some 100 ∧ SuiteFormat.d .f25 100 n = 100 - n) ∧
    (∀ line ∈ [99, 100], Judged (judging line 100 ph false) (entryAt 100) false ∧ (judging line 100 ph false).ref.line = line ∧
      (judging line 100 ph false).recFrame ((judging line 100 ph false).startInstant 1) = some 100) := by decide

/-! ## Witnesses: control link -/

/-- The reset state with n requests and k replies waiting. -/
def linkWith (n k : Nat) : State :=
  { State.reset with link := { State.reset.link with
      input := List.replicate n (req 1 []), replies := List.replicate k { kind := 0x81, tag := 5, vals := [] } } }

/-- Hypotheses of ValidFrameJoinsTheQueue: three and four requests waiting, 15 and 16 places held, a pending soft reset. -/
theorem witness_valid_frame :
    (∃ (s : State) (g : Byte) (ps : List Byte), s.asserted = false ∧ s.link.rx = .hunting ∧ g ≠ 0 ∧ ps.length ≤ 247 ∧
      s.link.resetPending = false ∧ s.link.input.length = 3) ∧
    (∃ (s : State) (g : Byte) (ps : List Byte), s.asserted = false ∧ s.link.rx = .hunting ∧ g ≠ 0 ∧ ps.length ≤ 247 ∧
      s.link.input.length = 4 ∧ s.places = 15) ∧
    (∃ (s : State) (g : Byte) (ps : List Byte), s.asserted = false ∧ s.link.rx = .hunting ∧ g ≠ 0 ∧ ps.length ≤ 247 ∧
      s.link.resetPending = true ∧ s.places = 16) :=
  ⟨⟨linkWith 3 0, 255, [], by decide⟩, ⟨linkWith 4 15, 1, [1, 2], by decide⟩,
    ⟨{ linkWith 0 16 with link := { (linkWith 0 16).link with resetPending := true } }, 1, [], by decide⟩⟩

/-- The kinds of Table 12-3 with the parameter counts of their layouts. -/
def counts : List (Nat × Nat) :=
  [(0x01, 0), (0x02, 4), (0x08, 2), (0x09, 2), (0x11, 1), (0x12, 2), (0x18, 12), (0x19, 5), (0x1A, 1), (0x1B, 1), (0x20, 4)] ++
    [(0x23, 3), (0x24, 4), (0x25, 0), (0x26, 4), (0x28, 7), (0x29, 3), (0x2A, 0), (0x2B, 0), (0x2C, 0), (0x30, 8), (0x31, 0)] ++
    [(0x32, 0), (0x33, 0), (0x34, 0), (0x35, 0), (0x38, 10), (0x39, 6), (0x3A, 2), (0x3B, 0), (0x3C, 0), (0x3D, 2), (0x3E, 0)] ++
    [(0x3F, 1), (0x40, 4), (0x41, 0), (0x48, 1), (0x49, 1), (0x4A, 2), (0x4B, 2), (0x4C, 0), (0x4D, 0)]

/-- Hypotheses of LinkErrorsAndOutboundOrder: exactly 20 ms; a byte between frames; length bytes 2 and 251; frames with a bad sum
and with tag 0; an unknown kind; each request one byte long and one short; a load of 28 bytes; a DECK_COMMAND of one; each
queue, with 15 and 16 places held. -/
theorem witness_link_errors :
    (∀ k ∈ [15, 16], let s : State := { linkWith 0 k with link := { (linkWith 0 k).link with rx := .frame [3], byteAt := 5 } }
      s.asserted = false ∧ s.link.rx = .frame [3] ∧ s.link.byteAt + ms 20 = 20000005 ∧ s.places = k) ∧
    (State.reset.asserted = false ∧ State.reset.link.rx = .hunting ∧ (0xA4 : Byte) ≠ 0xA5 ∧ (2 : Byte).toNat < 3 ∧
      250 < (251 : Byte).toNat) ∧
    ((3 : Byte).toNat = 3 ∧ [(1 : Byte), 5, 0xF8].length = 3 ∧ [(3 : Byte), 1, 5, 0xF8].foldl (· + ·) 0 ≠ 0 ∧
      [(1 : Byte), 0, 0xFC].getD 1 0 = 0 ∧ [(3 : Byte), 1, 0, 0xFC].foldl (· + ·) 0 = 0) ∧
    (let r := req 0x03 []
     (ask 0x03 []).asserted = false ∧ (ask 0x03 []).places < 16 ∧ (ask 0x03 []).link.input.head? = some r ∧
       paramCount r.kind.toNat = none) ∧
    (∀ x ∈ counts ++ [(0x21, 29), (0x22, 29), (0x10, 2)], ∀ n ∈ [x.2 + 1, x.2 - 1],
      (ask x.1 (List.replicate n 0)).places < 16 ∧
        (ask x.1 (List.replicate n 0)).link.input.head? = some (req x.1 (List.replicate n 0)) ∧
        (req x.1 (List.replicate n 0)).kind.toNat = x.1 ∧ (req x.1 (List.replicate n 0)).params.length = n) ∧
    ((linkWith 0 1).link.replies ≠ [] ∧ State.reset.link.replies = [] ∧ State.reset.link.notices ≠ []) ∧
    (let s : State := { State.reset with link := { State.reset.link with notices := [] } }
     s.asserted = false ∧ s.link.replies = [] ∧ s.link.notices = []) := by decide

/-- Hypotheses of LinkErrorsAndOutboundOrder: 28 bytes are no whole records. -/
theorem witness_broken_load (rs : List (List Byte)) (h : rs.flatten = List.replicate 28 0) :
    ∃ x ∈ rs, x.length ≠ 29 + 8 * byteN x 28 := by
  cases rs with
  | nil => exact absurd (congrArg List.length h) (by decide)
  | cons x xs =>
    refine ⟨x, List.mem_cons_self, fun e => ?_⟩
    have n := congrArg List.length h
    rw [List.flatten_cons, List.length_append, List.length_replicate] at n
    omega

/-- The decks present with record standing at the recorder. -/
def recording : State := decksOn.setPort 0 { deck with standing := true }

/-- Hypotheses of DeadlinesAndSilenceAbortTheEdit, the silence, at exactly 2,000 ms. -/
theorem witness_silence :
    (∃ (s : State) (t : Time), s.asserted = false ∧ s.link.expired = false ∧ s.link.restartAt + ms s.link.limit = t ∧
      (s.port s.recorder).standing = false) ∧
    (∃ (s : State) (t : Time), s.asserted = false ∧ s.link.expired = false ∧ s.link.restartAt + ms s.link.limit = t ∧
      (s.port s.recorder).standing = true ∧ s.link.stopTaken = false ∧ s.safeStop = false ∧
      s.edit.phase.abortable = true ∧ s.edit.abort = none ∧ s.link.masked .silenceStop = false) :=
  ⟨⟨State.reset, 2000000000, by decide⟩, ⟨{ recording with edit := editing .perform .editing 9 }, 2000000000, by decide⟩⟩

/-- Hypotheses of SetFormatRestartsTheSuite in two formats, and of its refusal by a channel. -/
theorem witness_set_format :
    (∃ (s : State) (r : Request), Takes s 0x48 r ∧ SuiteFormat.ofCode (byteN r.params 0) = some .f25 ∧
      (s.chan 0).st ≠ .idle) ∧
    (∃ (s : State) (r : Request), Takes s 0x48 r ∧ SuiteFormat.ofCode (byteN r.params 0) = some .f30d ∧
      s.edit.phase = .idle ∧ s.run.active = false ∧ ∀ d, (s.chan d).st = .idle) :=
  ⟨⟨asked (withChan (chasing .seek)) 0x48 [0], req 0x48 [0], by decide⟩, ⟨ask 0x48 [2], req 0x48 [2], by decide⟩⟩

/-- Hypotheses of SettingsAreClampedAndStored, SET_RECORDER and SET_NOTICE_MASK. -/
theorem witness_recorder :
    (∃ (s : State) (r : Request), Takes s 0x49 r ∧ byteN r.params 0 = Deck.num 5 ∧ s.edit.phase ≠ .idle) ∧
    (∃ (s : State) (r : Request), Takes s 0x49 r ∧ byteN r.params 0 = Deck.num 5 ∧ s.edit.phase = .idle ∧
      (s.chan 5).owner ≠ some .link) ∧
    (∃ (s : State) (r : Request), Takes s 0x49 r ∧ byteN r.params 0 = Deck.num 0 ∧ s.edit.phase = .idle ∧
      (s.chan 0).owner = some .link ∧ (s.chan 0).st ≠ .idle) ∧
    (∃ (s : State) (r : Request), Takes s 0x4A r ∧ natAt r.params 0 2 = 65535) :=
  ⟨⟨asked { State.reset with edit := editing .preview .cueing 9 } 0x49 [6], req 0x49 [6], by decide⟩,
    ⟨ask 0x49 [6], req 0x49 [6], by decide⟩, ⟨asked (withChan (chasing .seek)) 0x49 [1], req 0x49 [1], by decide⟩,
    ⟨ask 0x4A [255, 255], req 0x4A [255, 255], by decide⟩⟩

/-- Hypotheses of SoftResetPendsAndTakesEffect: no safe stop, and one whose decks are done. -/
theorem witness_soft_reset :
    (∃ (s : State) (r : Request), Takes s 0x4C r ∧ (s.port s.recorder).standing = false) ∧
    (∃ (s : State) (r : Request), Takes s 0x4C r ∧ (s.port s.recorder).standing = true) ∧
    (∃ s : State, s.asserted = false ∧ s.link.resetPending = true ∧ s.link.okAhead = 0 ∧ s.link.safe = some [] ∧
      s.link.safe.all List.isEmpty = true ∧ s.link.masked .hello = false) ∧
    (∃ s : State, s.asserted = false ∧ s.link.resetPending = true ∧ s.link.okAhead = 0 ∧ s.link.safe = none ∧
      s.link.safe.all List.isEmpty = true ∧ s.link.masked .hello = false) :=
  let p (x : Option (List Deck)) : State :=
    { State.reset with link := { State.reset.link with resetPending := true, safe := x } }
  ⟨⟨ask 0x4C [], req 0x4C [], by decide⟩, ⟨asked recording 0x4C [], req 0x4C [], by decide⟩, ⟨p (some []), by decide⟩,
    ⟨p none, by decide⟩⟩

/-! ## Witnesses: commands handed and taken, decks lost -/

/-- Port 1 as given on an IDLE line. -/
def idleOn (p : Port) : State := onPort { p with line := .idle }

/-- That port with an edit. -/
def handing (p : Port) (e : Edit) : State := { idleOn p with edit := e }

/-- The recorder on an IDLE line at frame n now, event 10's edit in EDITING. -/
def handingAt (p : Port) (n : Nat) : State := (handing p (editing .perform .editing 9)).setReader 0 (playing (n - 1) 0)

/-- The premises of the hand at deck 1. -/
abbrev Hands (s : State) : Prop := s.link.expired = false ∧ (s.port 0).line = .idle

/-- No EMERGENCY item at deck 1, whose port is not DISABLED. -/
abbrev Free (s : State) : Prop := Hands s ∧ (s.port 0).emerg = none ∧ (s.port 0).presence ≠ .disabled

/-- Nor a SEQUENCER item. -/
abbrev Below (s : State) : Prop := Free s ∧ (s.port 0).seqSlot = { first := none, second := none }

/-- The RECORD_OFF of an EMERGENCY item is left. -/
def offWaits : Port := { deck with emerg := some ⟨true, true, false⟩, standing := true, quiet := true }

/-- Hypotheses of DeckLineStatesAndPolls, the hand: a busy line; RECORD_OFF of an EMERGENCY item in an abort of EDITING, without
an abort, in another phase and in a safe stop; its STOP for each of its takers; a DISABLED port. -/
theorem witness_hand_emergency :
    (decksOn.link.expired = false ∧ (decksOn.port 0).line ≠ .idle) ∧
    (let s := handing offWaits { editing .perform .editing 9 with abort := some .aborted }
     Hands s ∧ (s.port 0).emerg = some ⟨true, true, false⟩ ∧ s.edit.phase = .editing ∧ s.edit.abort.isSome = true ∧
       s.safeStop = false) ∧
    (let s := handing offWaits (editing .perform .editing 9)
     Hands s ∧ (s.port 0).emerg = some ⟨true, true, false⟩ ∧ s.edit.abort = none) ∧
    (let s := handing offWaits { editing .perform .release 9 with abort := some .aborted }
     Hands s ∧ (s.port 0).emerg = some ⟨true, true, false⟩ ∧ s.edit.phase ≠ .editing) ∧
    (let s := { handing offWaits { editing .perform .editing 9 with abort := some .aborted } with
       link := { State.reset.link with safe := some [0] } }
     Hands s ∧ (s.port 0).emerg = some ⟨true, true, false⟩ ∧ s.safeStop = true) ∧
    (∀ a ∈ [true, false], ∀ b ∈ [true, false],
     Hands (idleOn { deck with emerg := some ⟨false, a, b⟩ }) ∧
       ((idleOn { deck with emerg := some ⟨false, a, b⟩ }).port 0).emerg = some ⟨false, a, b⟩) ∧
    (let s := idleOn { deck with presence := .disabled, servo := some ⟨.stop, 0, 0⟩ }
     Hands s ∧ (s.port 0).emerg = none ∧ (s.port 0).presence = .disabled) := by and_intros <;> decide

/-- Hypotheses of DeckLineStatesAndPolls, the hand of the SEQUENCER slot: an item's first and second command; RECORD_ON in ROLLING
and EDITING, in POSTROLL and in a safe stop; RECORD_OFF in EDITING at one frame and two past the record-off point, and in
another phase. -/
theorem witness_hand_sequencer :
    (let s := idleOn { deck with seqSlot := { first := some .stop, second := some (.locate 5) } }
     Free s ∧ (s.port 0).seqSlot.first = some .stop ∧ (s.port 0).seqSlot.second = some (.locate 5)) ∧
    (let s := idleOn { deck with seqSlot := { first := none, second := some (.locate 5) } }
     Free s ∧ (s.port 0).seqSlot.first = none ∧ (s.port 0).seqSlot.second = some (.locate 5)) ∧
    (∀ ph ∈ [Phase.rolling, .editing, .postroll], ∀ x ∈ [none, some [(0 : Deck)]],
     let s := { handing { deck with seqSlot := { first := some (.recordOn 31 .insert), second := none } }
       (editing .perform ph 9) with link := { State.reset.link with safe := x } }
     Free s ∧ (s.port 0).seqSlot.first = some (.recordOn 31 .insert) ∧ s.edit.phase = ph ∧ s.safeStop = x.isSome) ∧
    (∀ n ∈ [15248, 15249, 15250],
     let s := handingAt { deck with standing := true, quiet := true, seqSlot := { first := some .recordOff, second := none } }
       n
     Free s ∧ (s.port 0).seqSlot.first = some .recordOff ∧ s.edit.phase = .editing ∧ s.safeStop = false ∧ s.recNow = some n ∧
       SuiteFormat.d .f25 n (SuiteFormat.addFrames .f25 15250 (-2)) = n - 15248) ∧
    (let s := handing { deck with seqSlot := { first := some .recordOff, second := none } } (editing .perform .release 9)
     Free s ∧ (s.port 0).seqSlot.first = some .recordOff ∧ s.edit.phase ≠ .editing) := by and_intros <;> decide

/-- Hypotheses of DeckLineStatesAndPolls, the hand of the SERVO slot: PLAY and VARISPEED of the channel's own chase, the speeds at,
below and above the deck's range; commands of an earlier chase, and of a channel in FAULT; a LOCATE. -/
theorem witness_hand_servo :
    (∀ c ∈ [DeckCmd.play, .varispeed 799, .varispeed 800, .varispeed 1201, .locate 5],
     let s := (idleOn { deck with servo := some ⟨c, 1, 0⟩ }).setChan 0 (chasing .locked)
     Below s ∧ (s.port 0).servo = some ⟨c, 1, 0⟩ ∧ c.isRecord = false ∧ (s.chan 0).gen = 1 ∧ (s.chan 0).st = .locked ∧
       s.safeStop = false ∧ ((s.port 0).ident.bind Identity.range) = some (800, 1200)) ∧
    (let s := (idleOn { deck with ident := none, servo := some ⟨.varispeed 499, 1, 0⟩ }).setChan 0 (chasing .locked)
     Below s ∧ (s.port 0).servo = some ⟨.varispeed 499, 1, 0⟩ ∧ ((s.port 0).ident.bind Identity.range).getD (500, 1500) = (500, 1500)) ∧
    (∀ x ∈ [(ChaseState.locked, 0), (.fault, 1), (.idle, 1)],
     let s := (idleOn { deck with servo := some ⟨.play, x.2, 0⟩ }).setChan 0 (chasing x.1)
     Below s ∧ (s.port 0).servo = some ⟨.play, x.2, 0⟩ ∧
       ((s.chan 0).gen ≠ x.2 ∨ (s.chan 0).st = .fault ∨ (s.chan 0).st = .idle)) := by and_intros <;> decide

/-- Hypotheses of DeckLineStatesAndPolls, the hand of the PASS and POLL slots: each alone and held by the quiet window or its hold; no
command waiting. -/
theorem witness_hand_low :
    (∀ q ∈ [true, false], ∀ h ∈ [true, false], ∀ x ∈ [none, some (PassCmd.mk .stop 0x10 7)], ∀ y ∈ [none, some DeckCmd.timeSense],
     let s := idleOn { deck with quiet := q, hold := h, pass := x, poll := y }
     Below s ∧ (s.port 0).servo = none ∧ (s.port 0).quiet = q ∧ (s.port 0).hold = h ∧ (s.port 0).pass = x ∧
       (s.port 0).poll = y) ∧
    (DeckCmd.stop.isRecord = false ∧ DeckCmd.timeSense.isRecord = false) := by and_intros <;> decide

/-- A poll's third failure in a row. -/
def lastFail : Port := { polled with fails := 2, replyFrom := 5 }

/-- The premises of DeckFailuresAreCounted at a deck that is lost at exactly 12 ms. -/
abbrev Loses (s : State) (d : Deck) : Prop :=
  s.asserted = false ∧ s.safeStop = false ∧ s.link.expired = false ∧ (s.port d).presence = .present ∧
    (s.port d).flight = some ⟨.statusSense, .poll⟩ ∧ (s.port d).fails = 2 ∧ (s.port d).line = .awaiting ∧ (s.port d).poll = none ∧
    (s.port d).emerg = none ∧ (s.port d).replyFrom + ms 12 = 12000005 ∧
    ∀ x, (s.port x).line = .idle → (s.port x).emerg = none ∧ (s.port x).seqSlot = { first := none, second := none }

/-- Deck 1 lost with its own channel active and decks 2 to 4 chasing it: on a busy line, on an IDLE line, on a DISABLED port. -/
def lostMaster : State :=
  let f := { chasing .locked with master := some (.deck 0) }
  (((((({ decksOn with ports := (decksOn.ports.set 0 lastFail).set 2 { deck with line := .idle } } : State).setPort 3
    { deck with presence := .disabled }).setChan 0 (chasing .rolling)).setChan 1 f).setChan 2 f).setChan 3 f).setChan 4
    { f with st := .fault }

/-- Hypotheses of DeckFailuresAreCounted: a chase of the lost deck and its followers; an edit in each phase that
loses its recorder, with record standing or not and the quiet window open, or its source. -/
theorem witness_deck_lost :
    (Loses lostMaster 0 ∧ 0 ∉ lostMaster.edit.involved ∧ (∀ x ∈ [(0 : Deck), 1, 2, 3], (lostMaster.chan x).active = true ∧
        (lostMaster.chan x).owner = some .link) ∧
      (∀ x ∈ [(1 : Deck), 2, 3, 4], (lostMaster.chan x).master = some (.deck 0)) ∧ (lostMaster.chan 4).st = .fault ∧
      (lostMaster.port 1).line ≠ .idle ∧ (lostMaster.port 2).line = .idle ∧ (lostMaster.port 3).presence = .disabled ∧
      (lostMaster.chan 5).st = .idle) ∧
    (∀ x ∈ [true, false],
     let s : State := { onPort { lastFail with standing := x, quiet := x } with edit := editing .perform .editing 9 }
     Loses s 0 ∧ 0 ∈ s.edit.involved ∧ s.edit.phase.abortable = true ∧ s.edit.abort = none ∧ s.recorder = 0 ∧
       (s.port 0).quiet = x) ∧
    (∀ ph ∈ [Phase.cueing, .rolling, .editing, .postroll], ∀ x ∈ [true, false],
     let s : State := { (onPort { deck with standing := x }).setPort 1 lastFail with edit := editing .perform ph 9 }
     Loses s 1 ∧ 1 ∈ s.edit.involved ∧ s.edit.phase.abortable = true ∧ s.edit.abort = none ∧ s.recorder ∈ s.edit.involved ∧
       (s.port s.recorder).standing = x) := by and_intros <;> decide

/-- The command codes of Table 12-5 with the lengths of their data. -/
def dataLengths : List (Nat × Nat) :=
  [(0x10, 0), (0x11, 0), (0x12, 0), (0x20, 0), (0x21, 0), (0x22, 2), (0x23, 4), (0x24, 2), (0x30, 2), (0x31, 0)]

/-- A DECK_COMMAND with those bytes, taken. -/
abbrev Passes (s : State) (ps : List Byte) : Prop := Takes (asked s 0x10 ps) 0x10 (req 0x10 ps)

/-- Hypotheses of DeckCommandWaitsInThePassSlot, the checks in their order: decks 0 and 7; codes between the commands; each command
a byte long and short; RECORD_ON of each edit kind byte, and RECORD_OFF; a DISABLED port and an ABSENT one; a claimed deck; a
LOCATE to no label; an occupied slot. -/
theorem witness_deck_checks :
    (∀ ps ∈ [[(0 : Byte), 0x11], [7, 0x11], [0, 0x99]], Passes State.reset ps ∧ (byteN ps 0 < 1 ∨ 6 < byteN ps 0)) ∧
    (∀ c ∈ [(0x0F : Byte), 0x13, 0x1F, 0x25, 0x2F, 0x32], Passes decksOn [6, c] ∧ byteN [6, c] 0 = Deck.num 5 ∧
      ∀ x ∈ dataLengths, c.toNat ≠ x.1) ∧
    (∀ x ∈ dataLengths, ∀ n ∈ [x.2 + 1, x.2 - 1], Passes decksOn ([1, BitVec.ofNat 8 x.1] ++ List.replicate n 0)) ∧
    (∀ data ∈ [[(0x30 : Byte), 31, 0], [0x30, 31, 1], [0x30, 31, 2], [0x30, 0, 255], [0x31]], Passes State.reset (1 :: data)) ∧
    (∀ ps ∈ [[(1 : Byte), 0x11], [1, 0x20]], Passes (onPort { deck with presence := .disabled }) ps) ∧
    (Passes State.reset [1, 0x20] ∧ (State.reset.port 0).presence = .absent) ∧
    (∀ c ∈ [Claim.sequencer, .link], let s := onPort { deck with claim := c }
     Passes s [1, 0x20] ∧ (s.port 0).presence = .present ∧ (s.port 0).claim ≠ .free) ∧
    (Passes decksOn [1, 0x23, 23, 59, 59, 25] ∧ (decksOn.port 0).presence = .present ∧ (decksOn.port 0).claim = .free ∧
      (labelAt [(1 : Byte), 0x23, 23, 59, 59, 25] 2).legal .f25 = false) ∧
    (∀ ps ∈ [[(1 : Byte), 0x11], [1, 0x20], [1, 0x23, 23, 59, 59, 24]],
     let s := onPort { deck with pass := some ⟨.play, 0x10, 7⟩ }
     Passes s ps ∧ (s.port 0).presence = .present ∧ (s.port 0).claim = .free ∧ (s.port 0).pass.isSome = true) := by
  and_intros <;> decide

/-! ## Witnesses: chase channels of an edit, masters, speeds -/

/-- A chase channel of the sequencer in a phase of event 10's edit, past its sync point or not. -/
def leaving (c : Channel) (r : Reader) (ph : Phase) (passed : Bool) : State :=
  { sampled { c with owner := some .sequencer } r deck with edit := { editing .perform ph 9 with syncPassed := passed } }

/-- The phases in which an edit may be aborted. -/
def abortable : List Phase := [.cueing, .rolling, .editing, .postroll]

/-- Hypotheses of ChannelLocksAndUnlocks and ChannelRollsOrFaults on a channel of the sequencer, in each phase that may be aborted,
on either side of the sync point: the second sample outside the unlock window, a slave on line time and a master without a
position; NO_MOTION at a roll count of 1 and of 0; a fifth LEAD seek one line beyond the seek window, in VARISPEED and LOCKED. -/
theorem witness_edit_hears :
    (∀ ph ∈ abortable, ∀ passed ∈ [true, false],
     let s := leaving { chasing .locked with outWin := 1 } (playing 2159999 49) ph passed
     Errs s 49 ∧ (s.chan 0).owner = some .sequencer ∧ s.edit.syncPassed = passed ∧ s.edit.phase = ph) ∧
    (∀ ph ∈ abortable, ∀ passed ∈ [true, false],
     let s := leaving (chasing .locked) { playing 1 0 with src := .line } ph passed
     Errs s (-625) ∧ (s.reader 0).src = .line ∧ s.edit.syncPassed = passed ∧ s.edit.phase = ph) ∧
    (∀ ph ∈ abortable, ∀ passed ∈ [true, false],
     let s := leaving { chasing .locked with master := some (.deck 5) } (playing 0 0) ph passed
     Samples s ∧ (s.sampleOf 0 1).slave.isSome = true ∧ (s.sampleOf 0 1).target = none ∧ s.edit.phase = ph) ∧
    (∀ ph ∈ abortable, ∀ passed ∈ [true, false], ∀ n ∈ [0, 1],
     let s := leaving { chasing .rolling with roll := n } lost ph passed
     Samples s ∧ (s.chan 0).owner = some .sequencer ∧ (s.chan 0).st = .rolling ∧ (s.chan 0).roll ≤ 1 ∧ s.atSpeed 0 = false ∧
       s.edit.syncPassed = passed ∧ s.edit.phase.abortable = true ∧ s.edit.abort = none ∧ s.recorder ∈ s.edit.involved) ∧
    (∀ ph ∈ abortable, ∀ passed ∈ [true, false], ∀ st ∈ [ChaseState.varispeed, .locked],
     let s := leaving { chasing st with seeks := 4 } (playing 250 624) ph passed
     Samples s ∧ (s.chan 0).owner = some .sequencer ∧ (s.chan 0).seeks = 4 ∧ (s.reader 0).src ≠ .line ∧
       (s.sampleOf 0 1).err = some (-(156251 : Int)) ∧ s.set.seekWin * s.fmt.lpf = 156250 ∧ s.edit.syncPassed = passed ∧
       s.edit.phase.abortable = true ∧ s.edit.abort = none ∧ s.recorder ∈ s.edit.involved) := by and_intros <;> decide

/-- Channel 1 on deck 6, whose reader and flags are given, its slave at frame 0. -/
def mastered (o : Owner) (r : Reader) (flags : BitVec 10) : State :=
  ((sampled { chasing .varispeed with owner := some o, master := some (.deck 5) } (playing 2159999 0) deck).setReader 5 r).setPort 5
    { deck with flags := some flags }

/-- Hypotheses of DrivenChannelPostsItsSpeed, Table 5-4: no master, the house clock, and a deck, of either owner: on LTC and the
flywheel at play speed forward; in reverse; at a slow speed; on line time with PLAYING, with RECORDING and with neither flag;
without a position. -/
theorem witness_masters :
    (((withChan { chasing .varispeed with master := none }).chan 0).master = none ∧
      ((withChan (chasing .varispeed)).chan 0).master = some .house) ∧
    (∀ o ∈ [Owner.link, .sequencer],
      (∀ x ∈ [Source.ltc, .flywheel, .line], ∀ dir ∈ [Direction.forward, .reverse], ∀ cls ∈ [SpeedClass.play, .slow],
        let s := mastered o { playing 99 0 with src := x, dir := dir, cls := cls } 8
        (s.chan 0).master = some (.deck 5) ∧ (s.chan 0).owner = some o ∧ (s.extrap 5 (s.startInstant 1)).isSome = true ∧
          (s.reader 5).src = x) ∧
      (∀ flags ∈ [(0 : BitVec 10), 16],
        let s := mastered o { playing 99 0 with src := .line } flags
        (s.extrap 5 (s.startInstant 1)).isSome = true ∧ (s.port 5).flag 3 = false ∧ (s.port 5).flag 4 = (flags == 16)) ∧
      (let s := mastered o lost 8
       (s.chan 0).master = some (.deck 5) ∧ s.extrap 5 (s.startInstant 1) = none)) := by and_intros <;> decide

/-- Hypotheses of DrivenChannelPostsItsSpeed on any master and slot: errors of 0, 624 and 625 lines in VARISPEED and LOCKED, with a
VARISPEED of the same speed and of another waiting, a PLAY waiting, and the last speed the same, another and none; a LOCKED
slave on line time, and the same beyond the seek window. -/
theorem witness_speeds :
    (∀ st ∈ [ChaseState.varispeed, .locked], ∀ x ∈ [0, 624, 625],
     let s := sampled (chasing st) (playing 2159999 x) deck
     Errs s x ∧ (s.chan 0).st = st ∧ (s.chan 0).speed = none ∧ (s.port 0).servo = none) ∧
    (∀ x ∈ [(none, some 1032), (none, some 900), (some (DeckCmd.varispeed 1032), none), (some (.varispeed 900), some 1032),
       (some .play, some 900)],
     let s := sampled { chasing .varispeed with speed := x.2 } (playing 2159999 624) { deck with servo := x.1.map fun c => ⟨c, 1, 0⟩ }
     Errs s 624 ∧ (s.chan 0).speed = x.2 ∧ (s.port 0).servo.map ServoCmd.cmd = x.1) ∧
    (let s := sampled (chasing .locked) { playing 1 0 with src := .line } deck
     Samples s ∧ (s.sampleOf 0 1).cond = .atPlay ∧ (s.sampleOf 0 1).err = some (-625) ∧ (s.reader 0).src = .line) ∧
    (let s := sampled (chasing .locked) { playing 251 0 with src := .line } deck
     Samples s ∧ (s.sampleOf 0 1).cond = .atPlay ∧ (s.sampleOf 0 1).err = some (-(156875 : Int)) ∧ (s.reader 0).src = .line) ∧
    (let s := mastered .link { playing 99 0 with src := .line } 8
     Samples s ∧ (s.sampleOf 0 1).cond = .atPlay ∧ (s.sampleOf 0 1).err.isSome = true) := by and_intros <;> decide

/-! ## Witnesses: refused loads, Table 6-4, Table 7-3 -/

/-- A list of n events beside the number 1. -/
def manyEvents (n : Nat) : List (Nat × Event) := (List.range n).map fun i => (i + 2, pendingEvent)

/-- Hypotheses of LoadTakesARecordAtThePointer, cases 3 and 4 of R103: a valid record at the active event's number, and at a new
number with 249 and 250 events. -/
theorem witness_load_refused :
    (let s : State := { listed with list := { listed.list with active := some 10, ptr := 10 } }
     Takes (asked s 0x22 cutBytes) 0x22 (req 0x22 cutBytes) ∧ invalidReason .f25 0 cutBytes = none ∧ s.list.ptr = 10 ∧
       s.list.low ≤ 10 ∧ 10 ≤ s.list.high ∧ s.list.active = some 10) ∧
    (∀ n ∈ [249, 250],
     let s : State := { State.reset with list := { EventList.initial with events := manyEvents n } }
     Takes (asked s 0x22 cutBytes) 0x22 (req 0x22 cutBytes) ∧ s.list.ptr = 1 ∧ s.list.get 1 = none ∧ s.list.active ≠ some 1 ∧
       s.list.events.length = n) := by
  refine ⟨by and_intros <;> decide, fun n _ => ⟨⟨rfl, show State.reset.places < 16 by decide, rfl, rfl, by decide⟩, rfl, ?_, nofun, ?_⟩⟩
  · simp [EventList.get, manyEvents]
  · simp [manyEvents]

/-- cutBytes with a byte changed. -/
def cutWith (l : List (Nat × Byte)) : List Byte := l.foldl (fun r x => r.set x.1 x.2) cutBytes

/-- Table 6-4: a record whose first failing check is each of the ten, most with a later one failing too, and records at
the ends of what is valid. -/
theorem test_invalid_reasons :
    [cutWith [(2, 60), (0, 3)], cutWith [(14, 2), (15, 24)], cutWith [(0, 3), (28, 5)], cutWith [(9, 0)], cutWith [(9, 7)],
      cutWith [(14, 7)], cutWith [(22, 3), (23, 0xE8)], cutWith [(24, 2)], cutWith [(27, 2)], cutWith [(28, 5), (7, 0)],
      cutWith [(28, 1)] ++ [9, 0, 0, 0, 0, 1, 1, 0], cutWith [(28, 1)] ++ [8, 0, 0, 0, 2, 0x72, 1, 0],
      cutWith [(28, 1)] ++ [8, 0, 0, 0, 2, 0x71, 0, 26], cutWith [(7, 0), (14, 2)], cutWith [(14, 2)], cutWith [(9, 1)],
      cutWith [(14, 1)], cutWith [(0, 1), (20, 1)], cutWith [(14, 3), (21, 251)], cutWith [(0, 1), (14, 3), (21, 225), (23, 26)],
      cutWith [(28, 1)] ++ [8, 0xFF, 0xFD, 0x11, 2, 0x71, 1, 0], cutWith [(28, 1), (27, 1), (26, 0)] ++ [8, 0, 3, 0xE9, 2, 0x71, 1, 0],
      cutWith [(27, 1), (26, 0xE0)]].map (invalidReason .f25 0) =
      ([[Invalid.timecodeInvalid, .timecodeInvalid], List.replicate 7 .fieldRange, List.replicate 4 .triggerRange,
        [.spanRange, .sameSource, .sourceIsRecorder, .sourceIsRecorder, .noBSource, .transitionRange, .transitionRange],
        [.triggerRange, .triggerRange, .noTracks]].flatten.map some : List (Option Invalid)) ∧
    [cutBytes, cutWith [(21, 251)], cutWith [(14, 3), (21, 250)], cutWith [(0, 1), (14, 3), (21, 225), (23, 25)],
      cutWith [(27, 1), (26, 1)], cutWith [(28, 1)] ++ [8, 0xFF, 0xFD, 0x12, 2, 0x71, 0, 25],
      cutWith [(28, 1)] ++ [1, 0, 3, 0xE8, 0, 1, 0, 1]].map (invalidReason .f25 0) = List.replicate 7 none := by
  and_intros <;> decide

/-- Table 7-3: its checks in their order, and decks that pass them. -/
theorem test_claim_checks :
    (let lacks (c : Caps) : Port := { deck with ident := some { vtr with caps := c } }
     let both : EventFields := { cutEvent with b := some { deck := 5, inAt := 0 }, kind := .insert }
     (State.reset.claimCheck { cutEvent with a := 0 } .preview = some .sourceIsRecorder) ∧
     (decksOn.setPort 0 Port.initial).claimCheck cutEvent .review = some .deckAbsent ∧
     (decksOn.setPort 5 Port.initial).claimCheck both .perform = some .deckAbsent ∧
     (decksOn.setPort 5 Port.initial).claimCheck cutEvent .perform = none ∧
     (decksOn.setPort 5 { deck with ident := none }).claimCheck both .preview = some .notChaseable ∧
     (onPort { deck with ident := none }).claimCheck both .preview = none ∧
     (onPort { deck with ident := none }).claimCheck cutEvent .perform = some .notCapable ∧
     (onPort { deck with ident := none }).claimCheck { cutEvent with a := 0 } .review = none ∧
     decksOn.claimCheck both .perform = none ∧
     ∀ c : Caps, c.record = true → c.insert = false → (onPort (lacks c)).claimCheck both .perform = some .notCapable ∧
       (onPort (lacks c)).claimCheck cutEvent .perform = none) := by
  refine ⟨by decide, by decide, by decide, by decide, by decide, by decide, by decide, by decide, by decide, ?_⟩
  rintro ⟨a, b, c, d, e⟩ h1 h2
  cases a <;> cases b <;> cases c <;> cases d <;> cases e <;> first | decide | exact absurd h1 (by decide) | exact absurd h2 (by decide)

/-! ## Witnesses: outcomes, stops of a recording, runs, notices, formats -/

/-- Deck 1 awaits the reply to a command, failure count 1. -/
def awaits (c : DeckCmd) (o : Origin) : Port := { deck with line := .awaiting, flight := some ⟨c, o⟩, fails := 1 }

/-- The premises of SequencerTakesItsOutcomes, any command, at exactly 12 ms. -/
abbrev AnyOutcome (s : State) (c : DeckCmd) (o : Origin) : Prop :=
  s.asserted = false ∧ s.safeStop = false ∧ s.link.expired = false ∧ (s.port 0).line = .awaiting ∧ (s.port 0).stray = none ∧
    (s.port 0).rx = none ∧ (s.port 0).presence = .present ∧ (s.port 0).fails < 2 ∧ (s.port 0).replyFrom + ms 12 = 12000000 ∧
    (s.port 0).flight = some ⟨c, o⟩

/-- A channel's command in flight, of its latest start and LOCATE or of earlier ones, with an edit. -/
def servoOf (c : DeckCmd) (x : Channel) (e : Edit) : State := { (onPort (awaits c (.servo 1 0))).setChan 0 x with edit := e }

/-- The sequencer's channel in a state of chase, in event 10's edit whose source A is deck 1. -/
def sequencerChan (st : ChaseState) : Channel := { chasing st with owner := some .sequencer }

/-- Hypotheses of SequencerTakesItsOutcomes, an EMERGENCY item's RECORD_OFF and STOP, and a chase channel's LOCATE, PLAY, VARISPEED
and STOP: its own, in SEEK and out of it; of another start, of another LOCATE, in IDLE and FAULT; of the link and of the
sequencer in each phase. -/
theorem witness_servo_outcomes :
    (∀ a ∈ [true, false], ∀ b ∈ [true, false],
     let s := onPort { awaits .recordOff .emergencyOff with emerg := some ⟨false, a, b⟩ }
     AnyOutcome s .recordOff .emergencyOff ∧ (s.port 0).emerg = some ⟨false, a, b⟩) ∧
    (let s : State := { onPort (awaits .stop (.emergencyStop true false)) with
       edit := { editing .perform .release 9 with stops := [0, 1] } }
     AnyOutcome s .stop (.emergencyStop true false) ∧ s.edit.phase = .release ∧ ∃ x ∈ s.edit.stops, x ≠ (0 : Deck)) ∧
    (∀ c ∈ [DeckCmd.locate 5, .play, .varispeed 900, .stop], ∀ st ∈ [ChaseState.seek, .parked, .rolling, .varispeed, .locked],
     let s := servoOf c (chasing st) Edit.idle
     AnyOutcome s c (.servo 1 0) ∧ c.isSense = false ∧ (s.chan 0).gen = 1 ∧ (s.chan 0).loc = 0 ∧ (s.chan 0).active = true ∧
       (s.chan 0).owner = some .link ∧ (s.port 0).emerg = none ∧ (s.port 0).seqSlot = { first := none, second := none }) ∧
    (∀ x ∈ [{ chasing .seek with gen := 2 }, { chasing .seek with loc := 1 }, chasing .idle, chasing .fault],
     let s := servoOf (.locate 5) x Edit.idle
     AnyOutcome s (.locate 5) (.servo 1 0) ∧ ¬((s.chan 0).gen = 1 ∧ (s.chan 0).active = true ∧ (s.chan 0).loc = 0)) ∧
    (∀ ph ∈ abortable, ∀ src ∈ [none, some (0 : Deck)],
     let s := servoOf .play (sequencerChan .rolling) { editing .perform ph 9 with srcA := src }
     AnyOutcome s .play (.servo 1 0) ∧ (s.chan 0).owner = some .sequencer ∧ s.edit.phase.abortable = true ∧ s.edit.abort = none ∧
       s.recorder ∈ s.edit.involved ∧ (s.port 0).emerg = none ∧
       (s.port 0).seqSlot = { first := none, second := none }) := by and_intros <;> decide

/-- Hypotheses of SequencerTakesItsOutcomes, a channel's LOCATE posted again: a master without a position, one AT_PLAY up to the
goal, one STOPPED 25 frames off; and a PLAY, at roll counts of 2 and more. -/
theorem witness_reposts :
    (let s := sampled { chasing .seek with relocate := true, target := some 5, master := some (.deck 5) } lost deck
     Samples s ∧ (s.chan 0).st = .seek ∧ (s.chan 0).relocate = true ∧ (s.chan 0).acked = false ∧ (s.chan 0).target = some 5 ∧
       (s.sampleOf 0 1).cond = .noPosition) ∧
    (let s := sampled { chasing .seek with relocate := true, kind := some .lead, target := some 0 } lost deck
     Samples s ∧ (s.chan 0).relocate = true ∧ (s.chan 0).acked = false ∧ (s.sampleOf 0 1).cond = .atPlay ∧
       (s.sampleOf 0 1).frame .f25 = some 0 ∧ SuiteFormat.d .f25 0 0 < 1) ∧
    (∀ g ∈ [975, 1025],
     let s := sampled { follower .seek with relocate := true, kind := some .follow, target := some g } lost deck
     Samples s ∧ (s.chan 0).relocate = true ∧ (s.chan 0).acked = false ∧ (s.sampleOf 0 1).cond = .stopped ∧
       (s.sampleOf 0 1).frame .f25 = some 1000 ∧ (SuiteFormat.d .f25 1000 g).natAbs = 25) ∧
    (∀ n ∈ [2, 35],
     let s := sampled { chasing .rolling with replay := true, roll := n } lost deck
     Samples s ∧ (s.chan 0).st = .rolling ∧ (s.chan 0).replay = true ∧ (s.sampleOf 0 1).cond ≠ .stopped ∧ s.atSpeed 0 = false ∧
       2 ≤ (s.chan 0).roll) := by and_intros <;> decide

/-- Event 10's edit in EDITING with record standing on a port of its recorder. -/
def recordingOn (p : Port) : State := { onPort { p with standing := true } with edit := editing .perform .editing 9 }

/-- Hypotheses of DeadlinesAndSilenceAbortTheEdit and AbortAndAllStop with record standing: the recorder's line busy, and IDLE with
the quiet window open; at exactly 2,000 ms; the other involved deck's line busy and IDLE. -/
theorem witness_recording : ∀ p ∈ [deck, { deck with line := .idle, quiet := true }], ∀ q ∈ [deck, { deck with line := .idle }],
    let s := (recordingOn p).setPort 1 q
    Recording s ∧ s.asserted = false ∧ s.link.expired = false ∧ s.link.restartAt + ms s.link.limit = 2000000000 ∧
      s.link.stopTaken = false ∧ Takes (asked s 0x2A []) 0x2A (req 0x2A []) ∧ Takes (asked s 0x2B []) 0x2B (req 0x2B []) ∧
      (s.chan s.recorder).owner ≠ some .link ∧ s.edit.involved.Nodup ∧ (1 : Deck) ∈ s.edit.involved ∧
      (2 : Deck) ∉ s.edit.involved ∧ (2 : Deck) ∉ s.edit.sources := by decide

/-- Hypotheses of SoftResetPendsAndTakesEffect with record standing: the recorder's line busy and IDLE, a claimed deck whose STOP
of RELEASE waits and one without; the safe stop's STOP in flight. -/
theorem witness_safe_stop :
    (∀ p ∈ [deck, { deck with line := .idle }],
     let s : State := { ((onPort { p with standing := true }).setPort 1 { deck with
       claim := .sequencer, seqSlot := { first := none, second := some .stop } }).setPort 2 { p with claim := .link } with
       edit := editing .perform .release 9 }
     Takes (asked s 0x4C []) 0x4C (req 0x4C []) ∧ (s.port s.recorder).standing = true ∧ s.edit.phase = .release ∧
       (s.port 1).claim ≠ .free ∧ (s.port 1).presence ≠ .disabled ∧ (s.port 1).emerg = none ∧
       (s.port 1).seqSlot.second = some .stop ∧ (s.port 2).claim ≠ .free ∧ (s.port 2).emerg = none ∧
       (s.port 2).seqSlot = { first := none, second := none } ∧ (s.port 5).claim = .free) ∧
    (∀ toSeq ∈ [true, false], ∀ ds ∈ [[(0 : Deck)], [0, 5]],
     let p := awaits .stop (.emergencyStop toSeq true)
     let s : State := { onPort p with link := { State.reset.link with safe := some ds } }
     s.asserted = false ∧ s.link.safe = some ds ∧ (s.port 0).line = .awaiting ∧ (s.port 0).stray = none ∧ (s.port 0).rx = none ∧
       (s.port 0).presence = .present ∧ (s.port 0).flight = some ⟨.stop, .emergencyStop toSeq true⟩ ∧ (s.port 0).fails < 2 ∧
       (s.port 0).replyFrom + ms 12 = 12000000) := by and_intros <;> decide

/-- START_RUN of events 10 to 20 with the direction, mode, loop and policy given. -/
def startBytes (dir mode loop policy : Byte) : List Byte := [0, 10, 0, 20, dir, mode, loop, policy]

/-- Deck 2's port, that event 10's source needs. -/
def sourceOn (s : State) (p : Port) : State := s.setPort 1 p

/-- Hypotheses of RunStartsItsEvent: a start of either policy and direction and a CONTINUE in every mode, with the source PRESENT
and ABSENT; REVIEW takes no notice of the source. -/
theorem witness_run_modes : ∀ m ∈ [(0, EditMode.perform), (1, .preview), (2, .review)], ∀ p ∈ [deck, Port.initial],
    ∀ b ∈ [(0 : Byte), 1],
    let s := sourceOn ready p
    let h : State := { s with run := { runAt .held with mode := some m.2 } }
    Takes (asked s 0x30 (startBytes b m.1 0 b)) 0x30 (req 0x30 (startBytes b m.1 0 b)) ∧ s.run.active = false ∧
      s.edit.phase = .idle ∧ EditMode.ofCode m.1.toNat = some m.2 ∧ s.ref.st = .locked ∧ s.list.get 10 = some pendingEvent ∧
      s.claimCheck cutEvent m.2 = (if p.presence = .present ∨ m.2 = .review then none else some .deckAbsent) ∧
      s.link.expired = false ∧ Takes (asked h 0x31 []) 0x31 (req 0x31 []) ∧ h.run.st = .held ∧ h.run.current = some 10 := by decide

/-- A list of events 1, 10 and 999 of given statuses. -/
def statuses (a b c : EventStatus) : List (Nat × Event) :=
  [(1, { pendingEvent with status := a }), (10, { pendingEvent with status := b }), (999, { pendingEvent with status := c })]

/-- R138: the search in both directions from the start of the range and beyond a number, by policy and range. -/
theorem test_search :
    (let x : Run := { runAt .executing with first := some 1, last := some 999 }
     let back : Run := { x with dir := .reverse }
     let all : Run := { x with policy := .all }
     let l := statuses .failed .skipped .incomplete
     NumbersOk (l.map Prod.fst) ∧
       [x.search l none, x.search l (some 1), x.search l (some 999), back.search l none, back.search l (some 999),
         back.search l (some 1)] = [some 1, some 999, none, some 999, some 1, none] ∧
       [x.search (statuses .done .pending .done) none, all.search (statuses .done .pending .done) none,
         x.search (statuses .done .done .done) none, all.search (statuses .skipped .skipped .skipped) none,
         (runAt .executing).search (statuses .pending .done .pending) none] = [some 10, some 1, none, none, none]) := by decide

/-- Hypotheses of RunStartsItsEvent, the refusals of START_RUN and CONTINUE in their order, each with the later ones met too: a
malformed direction, mode and policy; an edit; each active run; the ranges 0..20, 20..10, 10..1000; a loop in PERFORM and
REVIEW; no reference; no event eligible; a cursor not HELD; an absent event. -/
theorem witness_run_refused :
    (∀ ps ∈ [startBytes 2 0 1 0, startBytes 0 3 1 0, startBytes 0 0 1 2],
     Takes (asked recording 0x30 ps) 0x30 (req 0x30 ps) ∧ (1 < byteN ps 4 ∨ 2 < byteN ps 5 ∨ 1 < byteN ps 7)) ∧
    (let s : State := { State.reset with edit := editing .preview .release 9 }
     Takes (asked s 0x30 [0, 0, 0, 1, 0, 0, 1, 0]) 0x30 (req 0x30 [0, 0, 0, 1, 0, 0, 1, 0]) ∧ s.edit.phase ≠ .idle) ∧
    (∀ st ∈ [RunState.executing, .held, .pausing], let s : State := { State.reset with run := runAt st }
     Takes (asked s 0x30 (startBytes 0 0 1 0)) 0x30 (req 0x30 (startBytes 0 0 1 0)) ∧ s.run.active = true) ∧
    (∀ x ∈ [[(0 : Byte), 0, 0, 20], [0, 20, 0, 10], [0, 10, 3, 0xE8]],
     let ps := x ++ [0, 0, 1, 0]
     Takes (ask 0x30 ps) 0x30 (req 0x30 ps) ∧ State.reset.run.active = false ∧ State.reset.edit.phase = .idle ∧
       ¬(1 ≤ natAt ps 0 2 ∧ natAt ps 0 2 ≤ natAt ps 2 2 ∧ natAt ps 2 2 ≤ 999)) ∧
    (∀ m ∈ [(0 : Byte), 2], Takes (ask 0x30 (startBytes 0 m 255 0)) 0x30 (req 0x30 (startBytes 0 m 255 0)) ∧
      State.reset.ref.st ≠ .locked) ∧
    Takes (ask 0x30 (startBytes 0 0 0 0)) 0x30 (req 0x30 (startBytes 0 0 0 0)) ∧
    (Takes (ask 0x30 (startBytes 1 1 1 1)) 0x30 (req 0x30 (startBytes 1 1 1 1)) ∧ State.reset.list.events = []) ∧
    (∀ st ∈ [RunState.idle, .executing, .pausing, .ended],
     let s : State := { State.reset with run := { runAt st with mode := some .perform } }
     Takes (asked s 0x31 []) 0x31 (req 0x31 []) ∧ s.run.st ≠ .held) ∧
    (let s : State := { State.reset with run := { runAt .held with mode := some .perform } }
     Takes (asked s 0x31 []) 0x31 (req 0x31 []) ∧ s.list.get 10 = none) ∧
    (let s : State := { listed with run := { runAt .held with mode := some .perform } }
     Takes (asked s 0x31 []) 0x31 (req 0x31 []) ∧ (s.list.get 10).isSome = true ∧ s.ref.st ≠ .locked) := by and_intros <;> decide

/-- Events 10 and 12 with the run held at 10, up to n, in a mode. -/
def heldRun (n : Nat) (m : EditMode) (loop : Bool) : State :=
  { ready with
    list := { EventList.initial with
      events := [(3, pendingEvent), (10, pendingEvent), (12, { pendingEvent with fields := { cutEvent with a := 5 } })] }
    run := { runAt .held with first := some 3, last := some n, mode := some m, loop := loop, wraps := 65535, started := 65535 } }

/-- The events after a SKIP of 10. -/
def skipped (s : State) : List (Nat × Event) :=
  s.list.events.map fun y => if s.run.current = some y.1 then (y.1, { y.2 with status := .skipped, failure := none }) else y

/-- Hypotheses of SkipStopAndPauseRun, SKIP: a cursor not HELD; the end of the list without a loop and with nothing left; its
event gone; the next event and the first again, in each mode, with the source PRESENT and ABSENT; no reference. -/
theorem witness_skip :
    (∀ st ∈ [RunState.idle, .executing, .pausing, .ended],
     let s : State := { State.reset with run := runAt st }
     Takes (asked s 0x32 []) 0x32 (req 0x32 []) ∧ s.run.st ≠ .held) ∧
    (let s := heldRun 11 .preview false
     Takes (asked s 0x32 []) 0x32 (req 0x32 []) ∧ s.run.search (skipped s) s.run.current = none ∧ s.run.loop = false) ∧
    (let s : State := { heldRun 10 .preview true with run := { (heldRun 10 .preview true).run with first := some 10 } }
     Takes (asked s 0x32 []) 0x32 (req 0x32 []) ∧ s.run.search (skipped s) s.run.current = none ∧ s.run.loop = true ∧
       s.run.search (skipped s) none = none) ∧
    (let s : State := { State.reset with run := runAt .held }
     Takes (asked s 0x32 []) 0x32 (req 0x32 []) ∧ s.list.get 10 = none ∧ s.run.search (skipped s) s.run.current = none) ∧
    (∀ m ∈ [EditMode.perform, .preview, .review], ∀ p ∈ [deck, Port.initial],
     let s := (heldRun 12 m false).setPort 5 p
     Takes (asked s 0x32 []) 0x32 (req 0x32 []) ∧ s.run.search (skipped s) s.run.current = some 12 ∧ s.edit.phase = .idle ∧
       s.ref.st = .locked ∧ s.link.expired = false ∧ NumbersOk (numbers s.list) ∧
       s.claimCheck { cutEvent with a := 5 } m = (if p.presence = .present ∨ m = .review then none else some .deckAbsent)) ∧
    (let s := heldRun 10 .preview true
     Takes (asked s 0x32 []) 0x32 (req 0x32 []) ∧ s.run.search (skipped s) s.run.current = none ∧
       s.run.search (skipped s) none = some 3 ∧ s.claimCheck cutEvent .preview = none ∧ s.link.masked .runState = false) ∧
    (let s : State := { heldRun 12 .perform false with ref := State.reset.ref }
     Takes (asked s 0x32 []) 0x32 (req 0x32 []) ∧ s.run.search (skipped s) s.run.current = some 12 ∧ s.ref.st ≠ .locked) := by
  and_intros <;> decide

/-- A notice of deck 1's presence, of given count. -/
def presenceNotice (n : Nat) : Notice := { kind := .deckPresence, source := 1, content := [.u 1 0], stamp := 7, count := n }

/-- Hypotheses of LinkErrorsAndOutboundOrder, a notice entered: masked and not; in a table without its pair, with it first and last, at
counts 1, 254 and 255. -/
theorem witness_enter :
    (let s : State := { State.reset with link := { State.reset.link with mask := 1 } }
     s.link.mask.getLsbD NoticeKind.deckPresence.code = true) ∧
    (State.reset.link.mask.getLsbD NoticeKind.deckPresence.code = false ∧ State.reset.link.notices ≠ [] ∧
      ∀ n ∈ State.reset.link.notices, ¬(n.kind = .deckPresence ∧ n.source = 1)) ∧
    (∀ n ∈ [1, 254, 255], ∀ x ∈ [State.reset.link.notices ++ [presenceNotice n], presenceNotice n :: State.reset.link.notices],
     let s : State := { State.reset with link := { State.reset.link with notices := x } }
     s.link.mask.getLsbD NoticeKind.deckPresence.code = false ∧ ∃ m ∈ s.link.notices, m.kind = .deckPresence ∧ m.source = 1 ∧ m.count = n) := by
  and_intros <;> decide

/-- The conditions under which SET_FORMAT is refused. -/
abbrev Busy (s : State) : Prop :=
  s.edit.phase ≠ .idle ∨ s.run.st = .executing ∨ s.run.st = .held ∨ s.run.st = .pausing ∨ ∃ d, (s.chan d).st ≠ .idle

/-- Hypotheses of SetFormatRestartsTheSuite: a code of 3; an edit in each phase, each state of the run and of a channel, the
refusing ones and the others, for each format. -/
theorem witness_format :
    (Takes (ask 0x48 [3]) 0x48 (req 0x48 [3]) ∧ Takes (ask 0x48 [255]) 0x48 (req 0x48 [255])) ∧
    (∀ ph ∈ Phase.release :: abortable, let s : State := { State.reset with edit := editing .preview ph 9 }
     Takes (asked s 0x48 [0]) 0x48 (req 0x48 [0]) ∧ Busy s) ∧
    (∀ st ∈ [RunState.idle, .executing, .held, .pausing, .ended], let s : State := { State.reset with run := runAt st }
     Takes (asked s 0x48 [1]) 0x48 (req 0x48 [1]) ∧ (Busy s ↔ st ∉ [RunState.idle, .ended])) ∧
    (∀ st ∈ [ChaseState.idle, .seek, .fault], let s := decksOn.setChan 5 (chasing st)
     Takes (asked s 0x48 [2]) 0x48 (req 0x48 [2]) ∧ (Busy s ↔ st ≠ .idle)) ∧
    (let s := (onPort { deck with servo := some ⟨.locate 2159999, 1, 0⟩ }).setReader 0 { playing 5 0 with src := .line }
     Takes (asked s 0x48 [1]) 0x48 (req 0x48 [1]) ∧ ¬Busy s ∧ (s.reader 0).src ≠ .none ∧ (s.reader 1).src = .none ∧
       s.link.notices ≠ [] ∧ SuiteFormat.ofCode 1 = some .f30) := by and_intros <;> decide

/-! ## Witnesses: loads of several records, REF_WARNING, EDIT_PHASE -/

/-- Hypotheses of LoadTakesARecordAtThePointer for several records: none at all; two and three valid ones; a bad label first,
last, and after a bad field; the second past the high end; the pointer at 999 and 1000; 249 events, so that the list is full after
the first. -/
theorem witness_load_many :
    (∀ rs ∈ [[], [cutBytes, cutBytes], [cutBytes, cutWith [(0, 3)], cutWith [(2, 60)]], [cutWith [(2, 60)], cutBytes, cutBytes]],
      ∀ s ∈ [State.reset, windowed 10 10 10, windowed 1 999 999, windowed 1 999 1000],
      Takes (asked s 0x21 rs.flatten) 0x21 (req 0x21 rs.flatten) ∧ Takes (asked s 0x22 rs.flatten) 0x22 (req 0x22 rs.flatten) ∧
        (∀ x ∈ rs, x.length = 29 + 8 * byteN x 28) ∧ s.list.low ≤ 1000 ∧ s.list.ptr ≤ 1000) ∧
    (∀ n ∈ [248, 249], let s : State := { State.reset with list := { EventList.initial with events := manyEvents n } }
      Takes (asked s 0x21 (cutBytes ++ cutBytes)) 0x21 (req 0x21 (cutBytes ++ cutBytes)) ∧ s.list.get 1 = none ∧
        s.list.events.length = n) := by
  refine ⟨by decide, fun n _ => ⟨⟨rfl, show State.reset.places < 16 by decide, rfl, rfl, by decide⟩, ?_, ?_⟩⟩
  · simp [EventList.get, manyEvents]
  · simp [manyEvents]

/-- R102, R104: a load of a valid record, one with a bad field and one with a bad label reports the bad field at number 2. -/
theorem test_load_many :
    (nx (exec .loadEvents (ask 0x21 (cutBytes ++ cutWith [(0, 3)] ++ cutWith [(2, 60)])))).link.replies.map Reply.vals =
      [vCat [[.u 1 Result.eventInvalid.code, .u 1 1, .u 1 2, .u 1 0, .u 1 1, .u 2 2, .u 1 Invalid.fieldRange.code],
        [.u 2 1, .u 2 999, .u 2 4, .u 1 1]]] := by decide

/-- LOCKED with an edit in a phase, in a safe stop or not. -/
def lockedIn (ph : Phase) (safe : Option (List Deck)) : State :=
  { lockedAt 1 with edit := editing .perform ph 9, link := { State.reset.link with safe := safe } }

/-- Hypotheses of MissingPulsesAndTimerSteps on REF_WARNING: every phase, in a safe stop and not, at 40.064 ms. -/
theorem witness_ref_warning : ∀ ph ∈ [Phase.idle, .claim, .cueing, .rolling, .editing, .postroll, .release], ∀ x ∈ [none, some [(0 : Deck)]],
    let s := lockedIn ph x
    s.asserted = false ∧ s.ref.st = .locked ∧ s.ref.timerFrom + s.fmt.lpf * s.fmt.linePeriod + s.fmt.linePeriod = exact 40064000 ∧
      s.edit.phase = ph ∧ s.link.safe = x ∧ s.edit.warns.ref = false := by decide

/-- Hypotheses of EditEndsInPostrollAndRelease on EDIT_PHASE: a phase kept, and each other one, with a cue point and without. -/
theorem witness_phases : ∀ ph ∈ [Phase.claim, .cueing, .rolling, .editing, .postroll, .release], ∀ x ∈ [none, some 14875],
    let s : State := { decksOn with edit := { editing .review ph 9 with cueR := x } }
    s.edit.phase = ph ∧ ph ≠ .idle ∧ s.edit.active = some (10, cutEvent) ∧ s.edit.mode = some .review ∧ s.edit.cueR = x := by
  decide

/-- R134: the EDIT_PHASE notice of event 10's move from ROLLING to EDITING, recorder at frame 14,998. -/
theorem test_edit_phase :
    (((recAt { editing .preview .rolling 9 with cueR := some 14875, preroll := 125 } 14998).setPhase .editing).link.notices.filterMap
      fun n => if n.kind = .editPhase then some (n.content.take 4 ++ n.content.drop 6) else none) =
      [[.u 2 10, .u 1 1, .u 1 4, .u 1 3, .u 1 1, .u 2 125, .u 1 1, .lab 14875, .u 1 0, .u 1 0, .raw [0]]] := by decide

/-- Hypotheses of EndOfEditIsWritten and TransitionsAndBitSync: EDIT_PHASE is not masked; a reader without a pending interval. -/
theorem witness_end_notice : (lastStop none .notSent .idle 10 false .preview).link.masked .editPhase = false ∧
    (State.reset.reader 0).pend = none := by decide

/-! ## Witnesses: damaged replies, identities, what an abort tells, claims, schedules -/

/-- A PRESENT deck, or one in p, whose command of the POLL slot awaits its reply. -/
def pollsFor (p : Port) (c : DeckCmd) : State := withPort { p with line := .awaiting, flight := some ⟨c, .poll⟩, fails := 1 }

/-- Bytes without errors, as a line gives them. -/
def clean (bs : List Byte) : List LineChar := bs.map fun b => ⟨b, false⟩

/-- Hypotheses of DeckRepliesAreTaken, an IDENT_REPLY: an ABSENT deck, a PRESENT one with another identity and with the one
carried; 16 data bytes with both capabilities and with neither. -/
theorem witness_ident_replies :
    (∀ p ∈ [Port.initial, deck, { deck with ident := none }],
      let s := pollsFor p .identify
      s.asserted = false ∧ (s.port 0).line = .awaiting ∧ (s.port 0).stray = none ∧ (s.port 0).rx = none ∧
        (s.port 0).flight = some ⟨.identify, .poll⟩ ∧ ((s.port 0).presence = .absent ∨ (s.port 0).presence = .present)) ∧
    (5 + 4 + 2 + (clean [0x41, 0x42, 0x43, 0x44, 0x45]).length = 16 ∧ 5 + (List.replicate 11 (0x41 : Byte)).length = 16) := by
  and_intros <;> decide

/-- Table 4-7, R190: preroll 768, Smin 499, Smax 1,536, delays 16 and 3 and play start 61 are clamped, with a model text of one
byte; Smin 1,100 and Smax 900 are brought to 1,000, and INSERT is dropped without RECORD. -/
theorem test_identities :
    (let i := identityOf [9, 0x07, 3, 0, 61, 0x01, 0xF3, 0x06, 0x00, 16, 3, 0x41]
     i.model = [0x41] ∧ i.caps = ⟨true, true, true, false, false⟩ ∧ i.range = some (500, 1500) ∧ i.minPreroll = 750 ∧
       i.delays = some (15, 3) ∧ i.playStart = 60) ∧
    (let i := identityOf [0, 0x05, 2, 0xEE, 60, 0x04, 0x4C, 0x03, 0x84]
     i.caps = ⟨true, false, false, false, false⟩ ∧ i.range = some (1000, 1000) ∧ i.delays = none) := by and_intros <;> decide

/-- Replies damaged in each way of R51 and R190: length bytes 1 and 19 with a byte after them; a parity error; a wrong check byte; no
reply code; an ACK with data, a NAK with none and one with two bytes; a STATUS_REPLY to PLAY, an ACK to STATUS_SENSE; an IDENT_REPLY
of 10 data bytes where both capabilities ask for 11, and of 4. -/
def damaged : List (DeckCmd × List LineChar) :=
  [(.statusSense, clean [1, 4]), (.statusSense, clean [19, 0x82]),
    (.play, [⟨2, false⟩, ⟨0x80, true⟩, ⟨0x82, false⟩]), (.play, [⟨2, true⟩, ⟨0x80, false⟩, ⟨0x82, false⟩]),
    (.play, clean [2, 0x80, 0x83]), (.play, clean [2, 0x85, 0x87]), (.play, clean [3, 0x80, 0, 0x83])] ++
  [(.play, clean [2, 0x81, 0x83]), (.play, clean [4, 0x81, 1, 1, 0x85]), (.play, clean [4, 0x82, 0, 0, 0x86]),
    (.statusSense, clean [2, 0x80, 0x82]), (.identify, clean [12, 0x84, 0, 3, 0, 0, 0, 0, 0, 0, 0, 0, 0x8B]),
    (.identify, clean [6, 0x84, 0, 0, 0, 0, 0x82])]

/-- R51, R190: every whole one of them is judged LINE_ERROR, and one of them taken on the line ends the command so. -/
theorem test_damaged_replies :
    (∀ x ∈ damaged.drop 2, judgeReply x.1 (x.2.any LineChar.bad) (x.2.map LineChar.byte) = .lineError) ∧
    (let p := (nx (exec (.deckReplyReceived 0 (clean [1, 4]) 5) (pollsFor deck .play))).port 0
     p.line = .recovering ∧ p.fails = 2 ∧ p.late = .nothing ∧ p.flight = none) := by and_intros <;> decide

/-- Hypotheses of DeckFailuresAreCounted on the damaged replies of the test: a deck whose poll awaits its reply, and the bytes with
a length byte outside 2 to 18, or whole with an error mark, a wrong check byte or a wrong code and count. -/
theorem witness_damaged : ∀ x ∈ damaged,
    let s := pollsFor deck x.1
    let bytes := x.2.map LineChar.byte
    let n := bytes.headD 0
    let count := n.toNat - 2
    let code := byteN bytes 1
    s.asserted = false ∧ (s.port 0).presence = .present ∧ (s.port 0).flight = some ⟨x.1, .poll⟩ ∧ (s.port 0).fails = 1 ∧
      (s.port 0).line = .awaiting ∧ (s.port 0).stray = none ∧ (s.port 0).rx = none ∧
      (n.toNat < 2 ∨ 18 < n.toNat ∨ x.2.length = n.toNat + 1 ∧ ((∃ c ∈ x.2, c.bad = true) ∨ bytes.foldl (· ^^^ ·) 0 ≠ 0 ∨
        ¬(code = 0x80 ∧ count = 0 ∧ x.1 ≠ .identify ∧ x.1 ≠ .statusSense ∧ x.1 ≠ .timeSense ∨ code = 0x81 ∧ count = 1 ∨
          code = 0x82 ∧ count = 2 ∧ x.1 = .statusSense ∨ code = 0x83 ∧ count = 4 ∧ x.1 = .timeSense ∨
          code = 0x84 ∧ 5 + (if (bytes.getD 3 0).getLsbD 0 then 4 else 0) + (if (bytes.getD 3 0).getLsbD 1 then 2 else 0) ≤ count ∧
            x.1 = .identify))) := by decide

/-- Hypotheses of FramesCarryTheirChecks: the longest parameters of a frame. -/
theorem witness_longest_frame : (List.replicate 247 (0 : Byte)).length ≤ 247 :=
  Nat.le_of_eq List.length_replicate

/-- R48, Table 12-5: a SHUTTLE at -1,000 ppt, a LOCATE to 00:10:00:00 and a RECORD_ON of INSERT on all tracks. -/
theorem test_command_frames : DeckCmd.frame .f25 (.shuttle (-1000)) = [4, 0x22, 0xFC, 0x18, 0xC2] ∧
    DeckCmd.frame .f25 (.locate 15000) = [6, 0x23, 0, 10, 0, 0, 0x2F] ∧
    DeckCmd.frame .f25 (.recordOn 31 .insert) = [4, 0x30, 31, 1, 0x2A] := by decide

/-- Channel 1 parked at frame g, of an owner, on a master, deck 6, if that is it, on a reader with given flags. -/
def parkedOn (o : Owner) (m : Master) (r : Reader) (flags : BitVec 10) (g : Nat) : State :=
  ((sampled { chasing .parked with owner := some o, master := some m, target := some g } lost deck).setReader 5 r).setPort 5
    { deck with flags := some flags }

/-- Hypotheses of ChannelRollsOrFaults, a parked channel, its target exactly the play start ahead of the park position, a frame
more, and at it: the house clock; a deck on LTC and on the flywheel at play speed, and on line time with PLAYING and with
RECORDING; and a deck at rest in a chase of the sequencer. -/
theorem witness_parked :
    (∀ g ∈ [0, 10, 11],
      let s := parkedOn .link .house lost 0 g
      Samples s ∧ (s.chan 0).st = .parked ∧ (s.chan 0).target = some g ∧ (s.port 0).playStart = 10 ∧
        SuiteFormat.dLines .f25 (SuiteFormat.addLines .f25 (s.clockAt 1 * 625) 0) (g * 625) = -((g * 625 : Nat) : Int)) ∧
    (∀ x ∈ [(Owner.link, playing 99 0, (0 : BitVec 10)), (.link, { playing 99 0 with src := .flywheel }, 0),
        (.link, { playing 100 0 with src := .line, cls := .still }, 8), (.link, { playing 100 0 with src := .line, cls := .still }, 16),
        (.sequencer, { playing 99 0 with cls := .still }, 0)], ∀ g ∈ [100, 110, 111],
      let s := parkedOn x.1 (.deck 5) x.2.1 x.2.2 g
      Samples s ∧ (s.chan 0).st = .parked ∧ (s.chan 0).target = some g ∧
        s.extrap 5 (s.startInstant s.due.chase[(0 : Deck).val]) = some 62500 ∧
        SuiteFormat.dLines .f25 (SuiteFormat.addLines .f25 62500 0) (g * 625) = -(((g - 100) * 625 : Nat) : Int) ∧
        (s.sampleOf 0 1).cond = .atPlay) := by and_intros <;> decide

/-- s with decks 2 and 3 the sources of its edit, their channels, one LOCKED and one in FAULT, the sequencer's, and the engine in a
state with a plan of an owner. -/
def sourced (s : State) (st : EngineState) (o : Owner) : State :=
  let c (x : ChaseState) : Channel := { chasing x with owner := some .sequencer, master := some (.deck 0) }
  { (s.setChan 1 (c .locked)).setChan 2 (c .fault) with
    edit := { s.edit with involved := [0, 1, 2], srcA := some 1, srcB := some 2 }
    engine := { engineIn st 400 with plan := some (mixPlan o none), preview := true } }

/-- The engine states. -/
def engineStates : List EngineState := [.idle, .armed, .running, .held, .manual]

/-- What `sourced` holds, that an abort and RELEASE act on. -/
abbrev Sourced (s : State) (st : EngineState) (o : Owner) : Prop :=
  s.asserted = false ∧ s.safeStop = false ∧ s.edit.sources = [1, 2] ∧ s.edit.involved.Nodup ∧ s.recorder ∈ s.edit.involved ∧
    (s.chan 1).owner = some .sequencer ∧ (s.chan 1).st = .locked ∧ (s.chan 2).owner = some .sequencer ∧
    (s.chan 2).st = .fault ∧ s.engine.st = st ∧ (s.engine.seqPlan = true ↔ o = .sequencer) ∧
    s.link.masked .chaseState = false ∧ s.link.masked .transitionState = false

/-- Hypotheses of AbortAndAllStop and EditEndsInPostrollAndRelease with channels of the sequencer, in each engine state, with a
plan of either owner: an edit in POSTROLL with deadline 1. -/
theorem witness_sourced : ∀ st ∈ engineStates, ∀ o ∈ [Owner.sequencer, .link],
    let s := sourced { decksOn with edit := editing .perform .postroll 1 } st o
    Sourced s st o ∧ 0 < s.due.seq ∧ s.edit.active = some (10, cutEvent) ∧ s.edit.abort = none ∧ s.edit.phase = .postroll ∧
      s.edit.deadline = 1 ∧ Takes (asked s 0x2A []) 0x2A (req 0x2A []) ∧ Takes (asked s 0x2B []) 0x2B (req 0x2B []) ∧
      (∀ d ∈ s.edit.involved, (s.port d).line ≠ .idle ∧ (s.port d).seqSlot = { first := none, second := none }) := by decide

/-- Event 10 in EDITING at deadline 1, the recorder at frame n, with RECORD_OFF posted or not and record standing or not. -/
def outAt (standing posted : Bool) (n : Nat) (st : EngineState) : State :=
  sourced ((recAt { editing .perform .editing 1 with offPosted := posted } n).setPort 0 { deck with standing := standing }) st
    .sequencer

/-- Hypotheses of DeadlinesAndSilenceAbortTheEdit on EDITING's deadline, with record standing and not: one frame before the
record-off point 15,248, and at it with RECORD_OFF posted. -/
theorem witness_out_timeout : ∀ standing ∈ [true, false], ∀ x ∈ [(15247, false), (15248, true)], ∀ st ∈ engineStates,
    let s := outAt standing x.2 x.1 st
    Sourced s st .sequencer ∧ (s.port s.recorder).standing = standing ∧ 0 < s.due.seq ∧
      s.edit.active = some (10, cutEvent) ∧ s.edit.mode = some .perform ∧ s.edit.abort = none ∧ s.edit.deadline = 1 ∧
      s.edit.replay = false ∧ s.edit.phase = .editing ∧ s.recFrame (s.startInstant s.due.seq) = some x.1 ∧
      s.fmt.addFrames cutEvent.recOut (-(s.edit.offDelay : Int)) = 15248 ∧ s.edit.offPosted = x.2 := by decide

/-- Those hypotheses with record standing. -/
theorem witness_out_recording : ∀ x ∈ [(15247, false), (15248, true)], ∀ st ∈ engineStates,
    Recording (outAt true x.2 x.1 st) := by decide

/-- R129, R154, R93: ABORT withdraws an ARMED plan, holds a RUNNING one of the sequencer, leaves a RUNNING take, and clears both
channels. -/
theorem test_abort_told : ∀ x ∈ [(EngineState.armed, Owner.sequencer, EngineState.idle), (.running, .sequencer, .held),
      (.running, .link, .running), (.manual, .sequencer, .manual)],
    let u := nx (exec .abortEdit (asked (sourced { decksOn with edit := editing .perform .postroll 1 } x.1 x.2.1) 0x2A []))
    u.engine.st = x.2.2 ∧ u.engine.level = 400 ∧ u.engine.preview = false ∧ (u.chan 1).st = .idle ∧ (u.chan 2).st = .idle := by
  decide

/-- A suite in which EXECUTE claims deck 1, the recorder, and deck 2, on a line of deck 1: deck 2 chases the house, deck 5
follows deck 2 and deck 4 the house. -/
def claimable (p : Port) : State :=
  ((((ready.setPort 0 p).setChan 1 (chasing .seek)).setChan 4 (follower .locked)).setChan 3 (chasing .locked)).setPort 1
    { deck with servo := some { cmd := .varispeed 900, gen := 1, loc := 0 }, claim := .link }

/-- Hypotheses of ExecuteClaimsFailsOrIsRefused, the LOCATEs and the cancelled chases: the recorder's line busy and IDLE, in
every mode; a mode code of 3. -/
theorem witness_claim :
    (∀ p ∈ [deck, { deck with line := .idle }], ∀ m ∈ [(0, EditMode.perform), (1, .preview), (2, .review)],
      let s := claimable p
      Takes (asked s 0x29 [0, 10, m.1]) 0x29 (req 0x29 [0, 10, m.1]) ∧ EditMode.ofCode m.1.toNat = some m.2 ∧
        s.claimCheck cutEvent m.2 = none ∧ (m.2 ≠ .review → involvedDecks s.recorder cutEvent m.2 = [0, 1])) ∧
    (∀ p ∈ [deck, { deck with line := .idle }],
      let s := claimable p
      s.edit.phase = .idle ∧ s.run.active = false ∧ s.ref.st = .locked ∧ s.list.get 10 = some pendingEvent ∧
        s.link.expired = false ∧ (s.port 0).ident = some vtr ∧
        (∀ d ∈ [(0 : Deck), 1], (s.port d).seqSlot = { first := none, second := none } ∧ (s.port d).emerg = none)) ∧
    (let s := claimable deck
     (s.chan 1).owner = some .link ∧ (s.chan 1).st ≠ .idle ∧ (s.chan 4).owner = some .link ∧ (s.chan 4).st ≠ .idle ∧
       (s.chan 4).master = some (.deck 1) ∧ (s.chan 3).owner = some .link ∧ (s.chan 3).master = some .house ∧
       s.link.masked .chaseState = false) ∧
    (Takes (asked ready 0x29 [0, 10, 3]) 0x29 (req 0x29 [0, 10, 3]) ∧ byteN [0, 10, 3] 2 = 3) := by and_intros <;> decide

/-- R93, R114: in PERFORM the LOCATE to 14,875 waits for the recorder's busy line and the one to A's cue point 89,875 for deck 2's;
deck 2 and its follower are cancelled, the chase of deck 4 on the house clock goes on. -/
theorem test_claim :
    let u := nx (exec .executeEvent (asked (claimable deck) 0x29 [0, 10, 0]))
    (u.port 0).seqSlot = { first := some (.locate 14875), second := none } ∧
      (u.port 1).seqSlot = { first := some (.locate 89875), second := none } ∧ (u.port 1).servo = none ∧
      (u.port 1).claim = .sequencer ∧ (u.chan 1).st = .idle ∧ (u.chan 4).st = .idle ∧ (u.port 4).claim = .free ∧
      (u.chan 3).st = .locked := by and_intros <;> decide

/-- Hypotheses of PanelTransitions and OutputsActPulseAndTally, malformed fields: a type of 3, a curve of 2, sources of 10; outputs
0 and 9 and an action of 3. -/
theorem witness_malformed :
    (∀ x ∈ [[(3 : Byte), 0, 0, 0, 0, 0], [0, 2, 0, 0, 0, 0], [0, 0, 0, 0, 10, 0], [0, 0, 0, 0, 0, 10]],
      Takes (ask 0x39 x) 0x39 (req 0x39 x) ∧ (2 < byteN x 0 ∨ 1 < byteN x 1 ∨ 9 < byteN x 4 ∨ 9 < byteN x 5)) ∧
    (∀ x ∈ [[(0 : Byte), 0, 1, 5], [9, 1, 0, 0], [1, 3, 0, 0]],
      Takes (ask 0x40 x) 0x40 (req 0x40 x) ∧ (byteN x 0 = 0 ∨ 8 < byteN x 0 ∨ 2 < byteN x 1)) := by and_intros <;> decide

/-- Entries of output 8 at frame 100, house line 100: late, missed, waiting, marked, in frame and OFF in frame. -/
def several : List GpiEntry :=
  [entryAt 98, entryAt 97, entryAt 101, { entryAt 200 with inFrame := true }, entryAt 100, { entryAt 100 with line := 101 },
    { entryAt 100 with action := .off }]

/-- Hypotheses of EntryIsJudgedAtAFrameStart and OutputsActPulseAndTally on several entries: in each phase, with a position and
without; at a line, a marked entry behind an unmarked one and one whose line is not reached. -/
theorem witness_several :
    (∀ ph ∈ [Phase.rolling, .editing, .postroll],
      let s : State := { judging 100 100 ph false with gpi := { (judging 100 100 ph false).gpi with sched := several } }
      s.asserted = false ∧ s.due.gpi = 1 ∧ (∀ x ∈ s.gpi.sched, x.late = false) ∧ s.edit.phase = ph ∧ s.safeStop = false ∧
        s.recFrame (s.startInstant 1) = some 100 ∧ (s.setReader 0 lost).recFrame (s.startInstant 1) = none) ∧
    (let x := { entryAt 100 with inFrame := true }
     let s := gpiAt 100 0 quietOut [entryAt 100, { x with line := 101 }, x, x]
     s.asserted = false ∧ s.due.gpi = 0 ∧ s.gpi.sched = [entryAt 100, { x with line := 101 }] ++ x :: [x] ∧
       (∀ y ∈ [entryAt 100, { x with line := 101 }], y.inFrame = true → s.ref.line < y.line) ∧ x.line = s.ref.line) := by
  and_intros <;> decide

/-- R165, R166: of those entries two wait, one newly marked, and the last one leaves output 8 off. -/
theorem test_several :
    let u := State.judgeAll 100 (some 100) several (judging 100 100 .editing false)
    u.2 = [entryAt 101, { entryAt 100 with line := 101, inFrame := true }] ∧ (u.1.gpi.out 7).on = false ∧
      u.1.edit.warns.gpiLate = true ∧ u.1.edit.warns.gpiMissed = true := by decide

/-! ## Witnesses: bytes of a deck line, the hand of RECORD_ON, channels at one sample -/

/-- Bytes of a deck line without errors. -/
def chars (l : List Byte) : List LineChar := l.map fun b => ⟨b, false⟩

/-- A frame begun, two bytes of a length of 4 taken, the second in error. -/
def begunFrame : RxFrame := { bytes := [4, 0x82], bad := true }

/-- Hypotheses of DeckLineStatesAndPolls on bytes: those that complete a frame, at the bad length bytes 1 and 19, the lengths 2
and 18, and after two of five bytes; those that end at the last but one; on a late reply, none of it or two bytes taken, of a
PRESENT and an ABSENT deck; once it is counted; on a stray frame in every state of the line that may hold one. -/
theorem witness_bytes :
    (∀ x ∈ [(([] : List Byte), ([1] : List Byte)), ([], [19]), ([], [2, 0x80, 0x82]), ([], 18 :: List.replicate 18 7),
        ([4, 0x82], [0, 0, 0x86])],
      let n := byteN (x.1 ++ (chars x.2).map LineChar.byte) 0
      chars x.2 ≠ [] ∧ ((n < 2 ∨ 18 < n) ∧ x.1 = [] ∧ (chars x.2).length = 1 ∨
        2 ≤ n ∧ n ≤ 18 ∧ (x.1 ++ (chars x.2).map LineChar.byte).length = n + 1)) ∧
    (∀ x ∈ [(([] : List Byte), ([2, 0x80] : List Byte)), ([], 18 :: List.replicate 17 7), ([4, 0x82], [0])],
      let n := byteN (x.1 ++ (chars x.2).map LineChar.byte) 0
      chars x.2 ≠ [] ∧ 2 ≤ n ∧ n ≤ 18 ∧ (x.1 ++ (chars x.2).map LineChar.byte).length ≤ n) ∧
    (∀ f ∈ [{ bytes := [], bad := false }, begunFrame], ∀ a ∈ [Presence.present, .absent],
      let s := withPort { deck with line := .recovering, presence := a, late := .reply f, fails := 1 }
      s.asserted = false ∧ (s.port 0).presence = a ∧ a ≠ .disabled ∧ (s.port 0).fails < 2 ∧ (s.port 0).line = .recovering ∧
        (s.port 0).stray = none ∧ (s.port 0).late = .reply f ∧
        (f.bytes = [] ∨ 2 ≤ byteN f.bytes 0 ∧ byteN f.bytes 0 ≤ 18 ∧ f.bytes.length ≤ byteN f.bytes 0)) ∧
    (let s := withPort { deck with line := .recovering, fails := 1 }
     (s.port 0).line = .recovering ∧ (s.port 0).stray = none ∧ (s.port 0).late = .nothing) ∧
    (∀ x ∈ [(LineState.idle, none), (.sending, none), (.idle, some begunFrame), (.sending, some begunFrame),
        (.awaiting, some begunFrame), (.recovering, some begunFrame)],
      let s := withPort { deck with line := x.1, stray := x.2, fails := 1 }
      (s.port 0).line ≠ .receiving ∧ ((s.port 0).line = .awaiting ∨ (s.port 0).line = .recovering →
        (s.port 0).stray.isSome = true) ∧ (s.port 0).stray = x.2 ∧ (s.port 0).fails = 1) := by and_intros <;> decide

/-- Hypotheses of DeckLineStatesAndPolls on the gap and the end of RECOVERING at exactly 3 ms: nothing open, a stray frame, a late
reply, and both, with the failures they count up to 2; and the hand with the timer expired, where the silence stop is taken
already or a safe stop is in progress. -/
theorem witness_gaps :
    (∀ st ∈ [none, some begunFrame], ∀ l ∈ [LateState.nothing, noneYet, .reply begunFrame],
      let s := withPort { deck with line := .recovering, stray := st, late := l, byteAt := 5, replyFrom := 5 }
      s.asserted = false ∧ (s.port 0).presence = .present ∧ (s.port 0).line ≠ .receiving ∧ (s.port 0).line = .recovering ∧
        (s.port 0).fails = 0 ∧ (s.port 0).stray = st ∧ (s.port 0).late = l ∧ (s.port 0).byteAt + ms 3 = 3000005 ∧
        (s.port 0).replyFrom + ms 3 = 3000005) ∧
    (∀ x ∈ [(true, none), (false, some [(0 : Deck)])],
      let s : State := { idleOn deck with link := { State.reset.link with expired := true, stopTaken := x.1, safe := x.2 } }
      s.link.expired = true ∧ s.link.stopTaken = x.1 ∧ s.safeStop = !x.1 ∧ (s.port 0).line = .idle) := by
  and_intros <;> decide

/-- R52: a late reply of which two bytes have come is broken by the gap and counted once. -/
theorem test_late_gap :
    let u := nx (exec (.deckGapTimeout 0 3000000) (withPort { deck with line := .recovering, late := .reply begunFrame }))
    (u.port 0).late = .nothing ∧ (u.port 0).fails = 1 ∧ (u.port 0).line = .recovering := by decide

/-- RECORD_ON of event 10 in the SEQUENCER slot, or not, with the recorder on an IDLE line at frame n, its edit in a phase, the
silence timer expired. -/
def expiredAt (p : Port) (e : Edit) (n : Nat) : State :=
  { (recAt e n).setPort 0 { p with line := .idle } with link := { State.reset.link with expired := true } }

/-- RECORD_ON waits. -/
def onWaits : Port := { deck with seqSlot := { first := some (.recordOn 31 .assemble), second := none } }

/-- Hypotheses of DeadlinesAndSilenceAbortTheEdit with the timer expired before the hand: one that makes record stand, one that
does not, one with record standing in RELEASE; the record-on point 14,998 and the in point with delay 0; and the expiry with an
abort held, and in a safe stop. -/
theorem witness_expired :
    (let s := expiredAt onWaits (editing .perform .editing 9) 14999
     let v := ({ s with link := { s.link with expired := false } } : State).hand 0
     s.link.expired = true ∧ s.link.stopTaken = false ∧ s.safeStop = false ∧ Recording v) ∧
    (let s := expiredAt deck (editing .perform .editing 9) 14999
     let v := ({ s with link := { s.link with expired := false } } : State).hand 0
     s.link.expired = true ∧ s.link.stopTaken = false ∧ s.safeStop = false ∧ (v.port s.recorder).standing = false) ∧
    (let s := expiredAt { deck with standing := true } (editing .perform .release 9) 14999
     let v := ({ s with link := { s.link with expired := false } } : State).hand 0
     s.link.expired = true ∧ s.link.stopTaken = false ∧ s.safeStop = false ∧ (v.port s.recorder).standing = true ∧
       v.edit.phase.abortable = false) ∧
    (∀ x ∈ [(2, 14998), (0, 15000)],
      let s := expiredAt deck { editing .perform .rolling 9 with onDelay := x.1 } x.2
      s.asserted = false ∧ 0 < s.due.seq ∧ s.link.expired = true ∧ s.link.stopTaken = false ∧ s.safeStop = false ∧
        s.edit.active = some (10, cutEvent) ∧ s.edit.mode = some .perform ∧ s.edit.abort = none ∧ s.edit.phase = .rolling ∧
        s.edit.syncPassed = true ∧ s.recorder ∈ s.edit.involved ∧ s.recFrame (s.startInstant s.due.seq) = some x.2 ∧
        SuiteFormat.d .f25 x.2 (SuiteFormat.addFrames .f25 15000 (-(x.1 : Int))) = 0 ∧
        (SuiteFormat.d .f25 x.2 15000 < 0 ∨ (s.edit.onDelay = 0 ∧ SuiteFormat.d .f25 x.2 15000 = 0)) ∧
        (∀ d, (s.port d).emerg = none ∧ (s.port d).standing = false) ∧ (s.port s.recorder).presence ≠ .disabled ∧
        (s.port s.recorder).seqSlot = { first := none, second := none } ∧ (s.port s.recorder).line = .idle) ∧
    (let s : State := { recording with edit := { editing .perform .editing 9 with abort := some .noLock } }
     s.asserted = false ∧ s.link.expired = false ∧ s.link.restartAt + ms s.link.limit = 2000000000 ∧
       (s.port s.recorder).standing = true ∧ s.link.stopTaken = false ∧ s.safeStop = false ∧ s.edit.abort = some .noLock) ∧
    (let s : State := { recording with link := { State.reset.link with safe := some [0] } }
     s.asserted = false ∧ s.link.expired = false ∧ s.link.restartAt + ms s.link.limit = 2000000000 ∧
       (s.port s.recorder).standing = true ∧ s.safeStop = true) := by and_intros <;> decide

/-- R180: the expiry first, the silence stop is taken at the hand: RECORD_OFF waits behind RECORD_ON on the line. -/
theorem test_expired_hand :
    let u := nx (exec (.commandSent 0 5) ((expiredAt deck (editing .perform .editing 9) 14999).setPort 0 onWaits))
    u.edit.abort = some .silence ∧ u.edit.phase = .editing ∧ (u.port 0).flight = some ⟨.recordOn 31 .assemble, .sequencer⟩ ∧
      (u.port 0).emerg = some ⟨true, true, false⟩ ∧ u.link.stopTaken = true := by decide

/-- Hypotheses of SyncAndRecordPoints: RECORD_ON posted on an IDLE line at the record-on point and at the in point with delay 0;
RECORD_OFF behind RECORD_ON, and in the place of a second command, on a busy line; behind RECORD_ON on an IDLE line. -/
theorem witness_record_hands :
    (∀ x ∈ [(2, 14998), (0, 15000)],
      let s := (recAt { editing .perform .rolling 9 with onDelay := x.1 } x.2).setPort 0 { deck with line := .idle }
      TestsAt s cutEvent .perform .rolling x.2 ∧ s.edit.syncPassed = true ∧
        (s.port s.recorder).seqSlot = { first := none, second := none } ∧ (s.port s.recorder).line = .idle ∧
        (s.port s.recorder).emerg = none ∧ (s.port s.recorder).presence ≠ .disabled) ∧
    (∀ x ∈ [(some (DeckCmd.recordOn 31 .assemble), none), (some (.recordOn 31 .assemble), some DeckCmd.play), (none, some .play)],
      let s := (recAt (editing .perform .editing 9) 15248).setPort 0 { deck with seqSlot := { first := x.1, second := x.2 } }
      TestsAt s cutEvent .perform .editing 15248 ∧ s.edit.offPosted = false ∧ 2 ≤ s.edit.deadline ∧
        (s.port s.recorder).line ≠ .idle ∧ (s.port s.recorder).seqSlot = { first := x.1, second := x.2 }) ∧
    (let s := (recAt (editing .perform .editing 9) 15248).setPort 0 { onWaits with line := .idle }
     TestsAt s cutEvent .perform .editing 15248 ∧ s.edit.offPosted = false ∧ 2 ≤ s.edit.deadline ∧
       (s.port s.recorder).line = .idle ∧ (s.port s.recorder).emerg = none ∧ (s.port s.recorder).presence ≠ .disabled ∧
       (s.port s.recorder).seqSlot.first = some (.recordOn 31 .assemble) ∧ (s.port s.recorder).seqSlot.second = none) ∧
    (recAt (editing .perform .rolling 9) 15000).recorder ∈ (recAt (editing .perform .rolling 9) 15000).edit.involved := by
  and_intros <;> decide

/-- Hypotheses of SequencerTakesItsOutcomes with the reply taken in time, 1 ns and 12 ms less 1 ns after AWAITING was entered: every
command of the sequencer, an EMERGENCY item's two, and a chase channel's. -/
theorem witness_in_time : ∀ t ∈ [1, 11999999],
    (∀ x ∈ [(DeckCmd.locate 5, Phase.cueing), (.play, .rolling), (.stop, .release), (.recordOn 31 .assemble, .editing),
        (.recordOff, .editing)],
      let s := sequenced x.1 x.2
      Outcomes s x.1 ∧ s.edit.phase = x.2 ∧ (s.port 0).replyFrom < t ∧ t < (s.port 0).replyFrom + ms 12) ∧
    (∀ x ∈ [(DeckCmd.recordOff, Origin.emergencyOff), (.stop, .emergencyStop true false)],
      let s : State := { onPort { awaits x.1 x.2 with emerg := some ⟨false, true, false⟩ } with
        edit := { editing .perform .release 9 with stops := [0, 1] } }
      AnyOutcome s x.1 x.2 ∧ t < (s.port 0).replyFrom + ms 12) ∧
    (∀ c ∈ [DeckCmd.locate 5, .play, .varispeed 900, .stop],
      let s := servoOf c (chasing .seek) Edit.idle
      AnyOutcome s c (.servo 1 0) ∧ t < (s.port 0).replyFrom + ms 12) := by decide

/-- R115, R50: an ACK 1 ns after the last byte of LOCATE marks its deck. -/
theorem test_ack_in_time : (nx (exec (.deckReplyReceived 0 (chars [2, 0x80, 0x82]) 1) (sequenced (.locate 5) .cueing))).edit.acked[0] =
    true := by decide

/-- A channel in SEEK whose LOCATE is cued, as `cuedDeck` shows. -/
def cuedChan (c : Channel) : Channel := { c with st := .seek, acked := true }

/-- Hypotheses of SeeksFollowLeadAndPark and ChannelRollsOrFaults for a channel that parks at its sample: a STOPPED master with the
target 26 and 25 frames away; a running one with the target a frame past the park frame, at 3 and 4 seeks; the roll point at
the play start and a frame before it; and the fifth seek of a channel of the sequencer, in PARKED and SEEK. -/
theorem witness_parks :
    (∀ g ∈ [974, 975],
      let s := sampled { cuedChan (follower .seek) with kind := some .follow, target := some g } lost cuedDeck
      let x := s.sampleOf 0 1
      Samples s ∧ (s.chan 0).active = true ∧ (s.chan 0).owner = some .link ∧ x.cond = .stopped ∧ x.frame .f25 = some 1000 ∧
        (SuiteFormat.d .f25 1000 g).natAbs = 1000 - g ∧ (s.chan 0).acked = true ∧ (s.port 0).fresh = true ∧
        (s.port 0).flag 6 = true ∧ (s.chan 0).relocate = false ∧ (s.chan 0).replay = false) ∧
    (∀ n ∈ [0, 3, 4],
      let s := sampled { cuedChan (chasing .seek) with target := some 2159999, seeks := n } lost cuedDeck
      let x := s.sampleOf 0 1
      Samples s ∧ x.cond = .atPlay ∧ x.frame .f25 = some 0 ∧ x.target = some 0 ∧ (s.chan 0).seeks = n ∧
        (s.chan 0).owner = some .link ∧ SuiteFormat.dLines .f25 0 (2159999 * 625) = 625) ∧
    (∀ g ∈ [0, 10, 11],
      let s := sampled { cuedChan (chasing .seek) with target := some g } lost cuedDeck
      Samples s ∧ (s.chan 0).st = .seek ∧ (s.chan 0).acked = true ∧ (s.port 0).fresh = true ∧ (s.port 0).flag 6 = true ∧
        (s.chan 0).master = some .house ∧ (s.port 0).playStart = 10 ∧
        SuiteFormat.dLines .f25 (SuiteFormat.addLines .f25 (s.clockAt 1 * 625) 0) (g * 625) = -((g * 625 : Nat) : Int)) ∧
    (∀ st ∈ [ChaseState.parked, .seek], ∀ sync ∈ [true, false],
      let s : State := { sampled { chasing st with owner := some .sequencer, target := some 2159999, seeks := 4 } lost deck with
        edit := { editing .perform .rolling 9 with syncPassed := sync, srcA := some 0 } }
      let x := s.sampleOf 0 1
      Samples s ∧ (s.chan 0).owner = some .sequencer ∧ (s.chan 0).seeks = 4 ∧ (s.chan 0).st = st ∧ x.cond = .atPlay ∧
        x.target = some 0 ∧ SuiteFormat.dLines .f25 0 (2159999 * 625) = 625 ∧ (s.chan 0).acked = false ∧
        (s.chan 0).kind = none ∧ s.edit.syncPassed = sync ∧ s.edit.phase.abortable = true ∧ s.edit.abort = none ∧
        s.recorder ∈ s.edit.involved ∧ (0 : Deck) ∈ s.edit.sources) := by and_intros <;> decide

/-- Hypotheses of ChannelLocksAndUnlocks in ROLLING: a roll count of 2 without play speed; play speed with errors of 12 and 13 lines,
at 3 and 4 counted, without a target, and without a position. -/
theorem witness_speeds_up :
    (let s := sampled { chasing .rolling with roll := 2 } lost deck
     Samples s ∧ (s.sampleOf 0 1).cond ≠ .stopped ∧ s.atSpeed 0 = false ∧ (s.chan 0).roll = 2 ∧ (s.chan 0).replay = false) ∧
    (∀ n ∈ [3, 4], ∀ e ∈ [12, 13],
      let s := sampled { chasing .rolling with inWin := n } (playing 2159999 e) deck
      Errs s e ∧ s.atSpeed 0 = true ∧ (s.reader 0).src = .ltc ∧ s.set.lockWin = 12 ∧ s.set.lockCount = 5) ∧
    (let s := sampled { chasing .rolling with master := some (.deck 5) } (playing 0 0) deck
     Samples s ∧ (s.sampleOf 0 1).cond ≠ .stopped ∧ s.atSpeed 0 = true ∧ (s.sampleOf 0 1).slave.isSome = true ∧
       (s.sampleOf 0 1).target = none) ∧
    (let s := sampled (chasing .rolling) { playing 0 0 with mark := none } deck
     Samples s ∧ (s.sampleOf 0 1).cond ≠ .stopped ∧ s.atSpeed 0 = true ∧ (s.sampleOf 0 1).slave = none) := by
  and_intros <;> decide

/-- Hypotheses of PortEnableAndDisable, ChaseIsSetAndCleared and SettingsAreClampedAndStored for the deck numbers 0 and 7; and a
PRESENT deck disabled with its own chase and its followers', on a busy line, an IDLE line and a DISABLED port. -/
theorem witness_deck_numbers :
    (∀ n ∈ [(0 : Byte), 7], Takes (ask 0x12 [n, 1]) 0x12 (req 0x12 [n, 1]) ∧ Takes (ask 0x1A [n]) 0x1A (req 0x1A [n]) ∧
      Takes (ask 0x49 [n]) 0x49 (req 0x49 [n]) ∧ (n.toNat = 0 ∨ 6 < n.toNat)) ∧
    (Takes (asked lostMaster 0x12 [1, 0]) 0x12 (req 0x12 [1, 0]) ∧ (lostMaster.port 0).claim ≠ .sequencer ∧
      (lostMaster.port 0).presence = .present ∧ 0 ∉ lostMaster.edit.involved ∧ lostMaster.safeStop = false ∧
      lostMaster.link.expired = false ∧
      (∀ x, (lostMaster.port x).line = .idle →
        (lostMaster.port x).emerg = none ∧ (lostMaster.port x).seqSlot = { first := none, second := none })) := by
  and_intros <;> decide

/-- Hypotheses of RunActsOnTheWrittenStatus and the notices: RUN_STATE, EDIT_PHASE, EDIT_END and CHASE_STATE are not masked at
reset. -/
theorem witness_unmasked : ∀ k ∈ [NoticeKind.runState, .editPhase, .editEnd, .chaseState, .transitionState, .silenceStop, .deckPresence],
    State.reset.link.masked k = false := by decide

/-! ## Witnesses: PASS commands, free lines, frame starts taken late, starts that test nothing -/

/-- A PASS command awaits its reply on a deck's line, after a failure count n. -/
def passing (p : Port) (c : DeckCmd) (n : Nat) : Port :=
  { p with line := .awaiting, flight := some ⟨c, .pass 0x10 7⟩, fails := n, replyFrom := 5, byteAt := 5 }

/-- Hypotheses of DeckRepliesAreTaken and DeckFailuresAreCounted for a PASS command, on a PRESENT and an ABSENT deck: a reply to
each command; exactly 12 ms; exactly 3 ms of a broken reply; the third failure in a row. -/
theorem witness_passing : Origin.isPass (.pass 0x10 7) = true ∧ DeckCmd.stop.isSense = false ∧
    (∀ c ∈ [DeckCmd.statusSense, .identify, .timeSense, .stop], ∀ p ∈ [deck, Port.initial], ∀ n ∈ [0, 1],
     let s := withPort (passing p c n)
     s.asserted = false ∧ (s.port 0).line = .awaiting ∧ (s.port 0).stray = none ∧ (s.port 0).rx = none ∧
       (s.port 0).presence = p.presence ∧ p.presence ≠ .disabled ∧ (s.port 0).flight = some ⟨c, .pass 0x10 7⟩ ∧
       (s.port 0).fails = n ∧ n < 2 ∧ (s.port 0).replyFrom + ms 12 = 12000005) ∧
    (∀ p ∈ [deck, Port.initial],
     let s := withPort { passing p .stop 1 with line := .receiving }
     s.asserted = false ∧ (s.port 0).line = .receiving ∧ (s.port 0).byteAt + ms 3 = 3000005) ∧
    (let s := withPort (passing deck .play 2)
     (s.port 0).presence = .present ∧ (s.port 0).fails = 2 ∧ (s.port 0).poll = none ∧ (s.port 0).emerg = none ∧
       s.edit.phase = .idle ∧ (∀ e, (s.chan e).st = .idle)) := by and_intros <;> decide

/-- R70: a NAK of a PASS command, and a TIME_REPLY with an illegal label, are the deferred replies NAKED and TIMECODE_INVALID; 12 ms
without a reply, TIMEOUT (Table 11-3 and section 12 number them). -/
theorem test_pass_endings :
    (nx (exec (.deckReplyReceived 0 (chars [3, 0x81, 4, 0x86]) 9) (withPort (passing deck .play 0)))).link.replies =
      [{ kind := 0x90, tag := 7, vals := [.u 1 0x13, .u 1 4] }] ∧
    (nx (exec (.deckReplyReceived 0 (chars [6, 0x83, 0, 0, 0, 25, 0x9C]) 9) (withPort (passing deck .timeSense 0)))).link.replies =
      [{ kind := 0x90, tag := 7, vals := [.u 1 5] }] ∧
    (nx (exec (.replyTimeout 0 12000005) (withPort (passing deck .play 0)))).link.replies =
      [{ kind := 0x90, tag := 7, vals := [.u 1 0x15] }] := by decide

/-- Hypotheses of DeckCommandWaitsInThePassSlot, the commands: SHUTTLE at both ends of its field, VARISPEED beyond the range, and a
SENSE command on an ABSENT deck. -/
theorem witness_pass_commands :
    (∀ x ∈ [([0x80, 0]), [0x7F, 0xFF]], Passes decksOn ([1, 0x22] ++ x) ∧ (decksOn.port 0).presence = .present ∧
      (decksOn.port 0).claim = .free ∧ (decksOn.port 0).pass = none) ∧
    (Passes decksOn [1, 0x24, 0xFF, 0xFF] ∧ ((decksOn.port 0).ident.bind Identity.range).getD (500, 1500) = (800, 1200)) ∧
    (Passes State.reset [1, 0x12] ∧ (State.reset.port 0).presence = .absent ∧ (State.reset.port 0).pass = none) := by
  and_intros <;> decide

/-- R56, R57, R187: DECK_PRESENCE carries presence ABSENT and cause FAILURES alone; attached, the type code 1 and the capability
set of an IDENT_REPLY follow presence and cause. -/
theorem test_presence_content :
    (((nx (exec (.replyTimeout 0 12000005) (withPort (passing deck .play 2)))).link.notices.filter fun n =>
      n.kind == .deckPresence).map Notice.content) = [[.u 1 1, .u 1 0]] ∧
    (((nx (exec (.deckReplyReceived 0 (chars [7, 0x84, 1, 0x18, 0, 0, 0, 0x9A]) 9)
      (pollsFor Port.initial .identify))).link.notices.filter fun n => n.kind == .deckPresence).map Notice.content) =
      [[.u 1 2, .u 1 2, .u 1 1, .u 1 0x18]] := by decide

/-- R69: the SHUTTLE speeds -32,768 and 32,767 are clamped to -30,000 and 30,000. -/
theorem test_shuttle_clamped : ∀ x ∈ [([(0x80 : Byte), 0], (-30000 : Int)), ([0x7F, 0xFF], 30000)],
    ((nx (exec .deckCommand (asked decksOn 0x10 ([1, 0x22] ++ x.1)))).port 0).pass.map PassCmd.cmd = some (.shuttle x.2) := by decide

/-- Hypotheses of AbortAndAllStop and SoftResetPendsAndTakesEffect: ALL_STOP with an abort held in EDITING, the RECORD_OFF of its
item and a PASS command waiting, and a run active; a safe stop, and a soft reset that takes effect, with PASS commands waiting and
in flight. -/
theorem witness_pass_aborted :
    (let s := asked { recordingOn { deck with
       emerg := some ⟨true, true, false⟩, pass := some (PassCmd.mk .stop 0x10 7) } with
       edit := { editing .perform .editing 9 with abort := some .aborted }, run := runAt .executing } 0x2B []
     Takes s 0x2B (req 0x2B []) ∧ s.edit.phase = .editing ∧ s.edit.abort.isSome = true ∧ s.run.active = true ∧
       (∀ d, (s.port d).line ≠ .idle) ∧ (s.port 0).presence = .present ∧ (s.port 0).emerg.isSome = true ∧
       passAborted s [0] = [{ kind := 0x90, tag := 7, vals := [.u 1 Result.aborted.code] }]) ∧
    (let s := asked (onPort { deck with standing := true, pass := some (PassCmd.mk .stop 0x10 7) }) 0x4C []
     Takes s 0x4C (req 0x4C []) ∧ (s.port s.recorder).standing = true ∧ passAborted s [s.recorder] ≠ []) ∧
    (let s : State := { onPort { passing deck .play 0 with pass := some (PassCmd.mk .stop 0x10 8) } with
       link := { State.reset.link with resetPending := true } }
     s.asserted = false ∧ s.link.resetPending = true ∧ s.link.okAhead = 0 ∧ s.link.safe.all List.isEmpty = true ∧
       s.link.masked .hello = false ∧ (s.port 0).flight = some ⟨.play, .pass 0x10 7⟩ ∧ passAborted s [0] ≠ []) := by
  and_intros <;> decide

/-- Hypotheses of ReaderFrameStartTests: a record on LINE and with no source, on the second and third frame without a word. -/
theorem witness_reader_no_ltc : ∀ x ∈ [Source.line, .none], ∀ n ∈ [1, 2, 3],
    let s := withReader { playing 5 0 with src := x, noWord := n }
    s.asserted = false ∧ 0 < s.due.reader[(0 : Deck).val] ∧ (s.reader 0).src = x ∧ (s.reader 0).noWord = n := by decide

/-- Hypotheses of EveryCommandCompletes: the last instant before a timer is due, the first of them at 3 frame periods of 40 ms; a
wrong head request, and a right one with no place. -/
theorem witness_not_due :
    (exact 119999999 < exact State.reset.ref.pulseAt + 3 * State.reset.fmt.framePeriod ∧ State.reset.asserted = false) ∧
    (let s := withPort { passing deck .stop 0 with line := .awaiting }
     (11999999 + 5 : Nat) < (s.port 0).replyFrom + ms 12) ∧
    (2999999 < ms 3 ∧ 19999999 < ms 20 ∧ 1999999999 < State.reset.link.restartAt + ms State.reset.link.limit) ∧
    (let s := withPort { Port.initial with attachAt := some 5 }
     (s.port 0).attachAt = some 5 ∧ 500000004 < 5 + ms 500) ∧
    ((ask 1 []).link.input.head? = some (req 1 []) ∧ (req 1 []).kind.toNat ≠ 2 ∧ (linkWith 1 16).places = 16) := by decide

/-- Hypotheses of HouseClockAndItsPreset and ReportsCarryTheirValues: one and two frame starts owed, with a preset and without. -/
theorem witness_preset : ∀ k ∈ [1, 2], ∀ x ∈ [none, some 2159999],
    let s : State := { clockDue with due := { State.reset.due with clock := k }, clock := { clockDue.clock with preset := x } }
    s.asserted = false ∧ s.due.clock = k ∧ s.clock.preset = x := by decide

/-- Hypotheses of DeckLineStatesAndPolls: a line in SENDING with no command; an ABSENT port with no posting made, a poll waiting or
not. -/
theorem witness_attach :
    (let s := withPort deck
     (s.port 0).line = .sending ∧ (s.port 0).flight = none) ∧
    (∀ x ∈ [none, some DeckCmd.identify],
     let s := withPort { Port.initial with poll := x }
     (s.port 0).presence = .absent ∧ (s.port 0).enabled = true ∧ (s.port 0).attachAt = none ∧ (s.port 0).poll = x) := by decide

/-- A sample of a channel whose deck's port p stands on an IDLE line. -/
abbrev OnIdle (s : State) (p : Port) : Prop := ServoFirst p ∧ p.line = .idle ∧ p.presence ≠ .disabled ∧ s.asserted = false ∧
  s.due.chase[(0 : Deck).val] = 1 ∧ s.safeStop = false ∧ s.link.expired = false

/-- Hypotheses of SeeksFollowLeadAndPark, ChannelRollsOrFaults, ChannelLocksAndUnlocks and DrivenChannelPostsItsSpeed on an IDLE
line: a FOLLOW locate; a LEAD seek, and CANNOT_CATCH; a roll; NO_MOTION of the link and of the sequencer; the speed law. -/
theorem witness_idle_samples :
    let free : Port := { deck with line := .idle }
    (let s := sampled { follower .seek with kind := some .follow, target := some 974 } lost free
     OnIdle s (s.port 0) ∧ (s.sampleOf 0 1).cond = .stopped ∧ (s.sampleOf 0 1).frame .f25 = some 1000) ∧
    (∀ n ∈ [3, 4],
     let s := sampled { chasing .seek with seeks := n } lost free
     OnIdle s (s.port 0) ∧ (s.sampleOf 0 1).cond = .atPlay ∧ (s.sampleOf 0 1).frame .f25 = some 0 ∧ (s.chan 0).seeks = n) ∧
    (let s := sampled { chasing .parked with target := some 10 } lost free
     OnIdle s (s.port 0) ∧ (s.sampleOf 0 1).target = some 0 ∧ -(SuiteFormat.dLines .f25 0 (10 * 625)) = (10 * 625 : Nat) ∧
       (s.port 0).playStart = 10) ∧
    (∀ o ∈ [Owner.link, .sequencer],
     let s := sampled { chasing .rolling with owner := some o, roll := 1 } lost free
     OnIdle s (s.port 0) ∧ s.atSpeed 0 = false ∧ (s.sampleOf 0 1).cond ≠ .stopped) ∧
    (∀ st ∈ [ChaseState.varispeed, .locked],
     let s := sampled (chasing st) (playing 0 0) free
     OnIdle s (s.port 0) ∧ (s.sampleOf 0 1).err = some (-625) ∧ (driven s 0 (-625)).1.line = .sending) := by
  and_intros <;> decide

/-- Hypotheses of SeeksFollowLeadAndPark, the samples that wait: IDLE, FAULT, a safe stop; SEEK and PARKED with no position; a LEAD
seek whose goal is not passed. -/
theorem witness_waiting_samples :
    (∀ st ∈ [ChaseState.idle, .fault], ((withChan (chasing st)).chan 0).st = st) ∧
    (∀ st ∈ [ChaseState.seek, .parked],
     let s := sampled { chasing st with master := some (.deck 5) } lost deck
     Samples s ∧ (s.sampleOf 0 1).cond = .noPosition ∧ (s.chan 0).acked = false ∧ (s.chan 0).relocate = false) ∧
    (let s := sampled { chasing .seek with kind := some .lead, target := some 0 } lost deck
     Samples s ∧ (s.sampleOf 0 1).cond = .atPlay ∧ (s.sampleOf 0 1).frame .f25 = some 0 ∧ SuiteFormat.d .f25 0 0 < 1) := by
  and_intros <;> decide

/-- Hypotheses of CueingPassesToRolling and SequencerTakesItsOutcomes on IDLE lines: every deck cued; a LOCATE and a PLAY to post
again, of the sequencer and of a channel. -/
theorem witness_idle_sequencer :
    let free : Port := { cuedDeck with line := .idle }
    let on (s : State) : State := { s with ports := Vector.replicate 6 free }
    (let s := on (cueing wipeEvent .perform true)
     SeqFirst (s.port s.recorder) ∧ (s.port s.recorder).line = .idle) ∧
    (let s := on { decksOn with edit := { editing .perform .cueing 2 with
       relocate := #v[true, false, false, false, false, false], cueR := some 14875 } }
     (∀ d ∈ s.edit.involved, SeqFirst (s.port d)) ∧ s.edit.relocate[(0 : Deck).val] = true) ∧
    (let s := on { decksOn with edit := { editing .perform .rolling 2 with replay := true } }
     (∀ d ∈ s.edit.involved, SeqFirst (s.port d)) ∧ s.recFrame (s.startInstant s.due.seq) = none) ∧
    (let s := sampled { chasing .seek with master := some (.deck 5), relocate := true, target := some 5 } lost { deck with line := .idle }
     OnIdle s (s.port 0) ∧ (s.sampleOf 0 1).cond = .noPosition) ∧
    (let s := sampled { chasing .rolling with replay := true, roll := 2 } lost { deck with line := .idle }
     OnIdle s (s.port 0) ∧ s.atSpeed 0 = false ∧ (s.sampleOf 0 1).cond ≠ .stopped) := by and_intros <;> decide

/-- Hypotheses of EditEndsInPostrollAndRelease: frame starts that test nothing, in IDLE and RELEASE, with an abort held and in a safe
stop; one frame before the record-off point in each mode and before the end of POSTROLL; the STOPs on an IDLE line. -/
theorem witness_nothing_tested :
    (∀ ph ∈ [Phase.idle, .release], ∀ x ∈ [none, some [(0 : Deck)]], ∀ why ∈ [none, some Reason.aborted],
     let s : State := { recAt { editing .perform ph 9 with abort := why } 15248 with link := { State.reset.link with safe := x } }
     s.asserted = false ∧ 0 < s.due.seq ∧ s.edit.phase = ph ∧ s.edit.abort = why ∧ s.safeStop = x.isSome) ∧
    (∀ m ∈ [EditMode.perform, .preview, .review],
     TestsAt (recAt (editing m .editing 2) 15247) cutEvent m .editing 15247 ∧ SuiteFormat.d .f25 15247 (15250 - 2) = -1) ∧
    (TestsAt (recAt (editing .perform .postroll 2) 15299) cutEvent .perform .postroll 15299 ∧
      (editing .perform .postroll 2).postroll = 50) ∧
    (let s := (recAt (editing .perform .postroll 9) 15300).setPort 0 { deck with line := .idle }
     TestsAt s cutEvent .perform .postroll 15300 ∧ SeqFirst (s.port 0) ∧ (s.port 0).line = .idle) := by
  and_intros <;> decide

/-- Hypotheses of SyncAndRecordPoints at one frame start: no position; the sync point and the record-on point, with a margin of 2
frames for the delay of 2; the record-off point too, of an event of 2 frames, on a busy and on an IDLE line; one frame before the
record-on point. -/
theorem witness_points_together :
    (let s := (recAt (editing .perform .rolling 9) 14000).setReader 0 lost
     s.recFrame (s.startInstant 1) = none ∧ s.edit.replay = false ∧ 2 ≤ s.edit.deadline) ∧
    (∀ x ∈ [LineState.sending, .idle], ∀ out ∈ [15250, 15002],
     let ev := { cutEvent with recOut := out }
     let e := { unsynced .perform with margin := 2, active := some (10, ev), offDelay := 4 }
     let s := ((recAt e 14998).setChan 1 (chasing .locked)).setPort 0 { deck with line := x }
     TestsAt s ev .perform .rolling 14998 ∧ s.edit.syncPassed = false ∧ s.edit.offPosted = false ∧ e.onDelay = 2 ∧
       SuiteFormat.d .f25 14998 (15000 - 2) = 0 ∧ (s.reader 0).src = .ltc ∧ (s.chan 1).st = .locked ∧ e.srcB = none ∧
       SuiteFormat.d .f25 14998 (out - 4) = 15002 - (out : Int) ∧ (s.port 0).line = x ∧ SeqFirst (s.port 0)) ∧
    (∀ m ∈ [EditMode.perform, .preview], TestsAt (recAt (editing m .rolling 9) 14997) cutEvent m .rolling 14997 ∧
      (editing m .rolling 9).syncPassed = true) := by and_intros <;> decide

/-- Hypotheses of EndOfEditIsWritten and RunActsOnTheWrittenStatus: the STOP of an EMERGENCY item, and each ending of a STOP. -/
theorem witness_stop_endings : ∀ o ∈ [Origin.sequencer, .emergencyStop true false],
    let s := (lastStop none .notSent .executing 12 false .preview).setPort 0
      { deck with line := .awaiting, flight := some ⟨.stop, o⟩, fails := 1, claim := .sequencer }
    LastStop s 0 10 cutEvent ∧ (s.port 0).replyFrom + ms 12 = 12000000 ∧ (s.port 0).fails < 2 := by decide

/-- Every ending of the STOP is one of those. -/
theorem witness_stop_ends : let s := lastStop none .notSent .executing 12 false .preview
    StopEnds s 0 9 (.deckReplyReceived 0 [⟨2, false⟩, ⟨0x80, false⟩, ⟨0x82, false⟩] 9) ∧
      StopEnds s 0 9 (.deckReplyReceived 0 [⟨3, false⟩, ⟨0x81, false⟩, ⟨255, false⟩, ⟨3 ^^^ 0x81 ^^^ 255, false⟩] 9) ∧
      StopEnds s 0 12000000 (.replyTimeout 0 12000000) :=
  ⟨.inl rfl, .inr (.inl ⟨255, rfl⟩), .inr (.inr ⟨rfl, by decide⟩)⟩

/-- Hypotheses of OutputsActPulseAndTally and EntryIsJudgedAtAFrameStart: three frame starts owed, taken at line 1. -/
theorem witness_gpi_late : ∀ line ∈ [1, 100],
    let s : State := { gpiAt line 3 (pulsing 1 2 0) [entryAt 98] with edit := editing .perform .editing 9 }
    s.asserted = false ∧ s.due.gpi = 3 ∧ s.gpi.sched = [entryAt 98] ∧ s.safeStop = false ∧ s.edit.phase = .editing ∧
      s.ref.line = line ∧ (gpiAt line 3 (pulsing 1 2 0) []).gpi.sched = [] := by decide

/-! ## Witnesses: settings, reports, invariants -/

/-- Hypotheses of SettingsAreClampedAndStored, with every value below and above its range. -/
theorem witness_settings :
    (∀ b ∈ [(0 : Byte), 255], ∀ x ∈ [(0x08, 2), (0x28, 7), (0x38, 10), (0x3F, 1), (0x4B, 2), (0x18, 12)],
      Takes (ask x.1 (List.replicate x.2 b)) x.1 (req x.1 (List.replicate x.2 b))) ∧
    (∃ (s : State) (r : Request), Takes s 0x4B r ∧ (s.port s.recorder).standing = false) ∧
    (∃ (s : State) (r : Request), Takes s 0x4B r ∧ (s.port s.recorder).standing = true) ∧
    (∃ (s : State) (r : Request), Takes s 0x18 r ∧ (s.chan 0).st ≠ .idle ∧ (s.chan 1).st = .idle ∧
      (s.port 0).servo = some { cmd := .varispeed 1100, gen := 1, loc := 0 }) :=
  ⟨by decide, ⟨ask 0x4B [0, 200], req 0x4B [0, 200], by decide⟩, ⟨asked recording 0x4B [0, 0], req 0x4B [0, 0], by decide⟩,
    ⟨asked ((withChan (chasing .varispeed)).setPort 0 { deck with servo := some ⟨.varispeed 1100, 1, 0⟩ }) 0x18
      (List.replicate 12 0), req 0x18 (List.replicate 12 0), by decide⟩⟩

/-- Hypotheses of ReportsCarryTheirValues: each report; both clear flags; decks 1, 6, 0 and 7; READ_EVENT EXACT and NEXT at, below and
above the one event 10, with numbers 0, 1 and 1000, and with a search code of 2. -/
theorem witness_reports :
    (∀ x ∈ [(0x01, []), (0x2C, []), (0x35, []), (0x3E, []), (0x41, []), (0x4D, []), (0x11, [(1 : Byte)]), (0x1B, [6]),
      (0x09, [6, 0]), (0x09, [1, 255]), (0x09, [0, 0]), (0x11, [7]), (0x1B, [0])], Takes (ask x.1 x.2) x.1 (req x.1 x.2)) ∧
    (State.reset.due.clock = 0 ∧ State.reset.clock.frame < State.reset.fmt.dayLen ∧
      State.reset.clock.frame = (State.reset.ref.frame + State.reset.clock.offset) % State.reset.fmt.dayLen) ∧
    (∀ d : Deck, byteN [(0 : Byte)] 0 ≠ Deck.num d ∧ byteN [(7 : Byte)] 0 ≠ Deck.num d) ∧
    (∀ x ∈ [[(0 : Byte), 10, 0], [0, 10, 1], [0, 1, 1], [0, 11, 0], [0, 11, 1], [0, 0, 0], [3, 0xE8, 1], [0, 10, 2]],
      Takes (asked listed 0x23 x) 0x23 (req 0x23 x)) ∧
    (NumbersOk (numbers listed.list) ∧ (10, pendingEvent) ∈ listed.list.events ∧
      (∀ x ∈ listed.list.events, 1 ≤ x.1 → 10 ≤ x.1) ∧ (∀ x ∈ listed.list.events, x.1 ≠ 11) ∧
      (∀ x ∈ listed.list.events, x.1 < 11)) := by decide

/-- A busy state with a command waiting. -/
def busyState : State := { ready with pending := [.linePulse 64000] }

/-- Hypotheses of the statements on the invariants: a state that meets them all and steps. -/
theorem witness_invariants : ∃ s t : State, s.link.input.length ≤ 4 ∧ s.places ≤ 16 ∧ NoticesOk s.link.notices ∧ ListOk s ∧
    EngineOk s.engine ∧ HouseOk s ∧ ClockOk s ∧ PortsOk s ∧ SettingsOk s ∧ step s = .next t ∧ t.ref.line = 2 :=
  ⟨busyState, nx (step busyState), by decide, by decide, by decide, by decide,
    ⟨by decide, by decide, by decide, trivial, by decide, by decide⟩, by decide, by decide, by decide, by decide,
    rfl, by decide⟩

end Sys2Proof.Tests
end

/-! ## Labels (R4, R6 to R9) -/

namespace Sys2Proof.Machine

/-- The fields of a label lie within their ranges at r frames a second (R4). -/
structure Label.InRange (r : Nat) (l : Label) : Prop where
  hh : l.hh ≤ 23
  mm : l.mm ≤ 59
  ss : l.ss ≤ 59
  ff : l.ff < r

/-- The number of labels before l at r frames a second, none being dropped: R6's N, and the number R7 starts from. -/
def Label.count (r : Nat) (l : Label) : Nat := ((l.hh * 60 + l.mm) * 60 + l.ss) * r + l.ff

/-- A count whose label F30D drops: the first two of a minute that is no multiple of ten (Table 1-3). -/
def DroppedCount (c : Nat) : Prop := c % 1800 < 2 ∧ c / 1800 % 10 ≠ 0

/-- A count less the labels dropped before it (R7). -/
def withoutDropped (c : Nat) : Nat := c - 2 * (c / 1800 - c / 1800 / 10)

/-! ### What is legal, and its frame number -/

theorem Label.inRange_iff (r : Nat) (l : Label) : l.InRange r ↔ l.hh ≤ 23 ∧ l.mm ≤ 59 ∧ l.ss ≤ 59 ∧ l.ff < r :=
  ⟨fun ⟨hh, mm, ss, ff⟩ => ⟨hh, mm, ss, ff⟩, fun ⟨hh, mm, ss, ff⟩ => ⟨hh, mm, ss, ff⟩⟩

theorem Label.legal_iff (f : SuiteFormat) (l : Label) :
    l.legal f = true ↔ l.InRange f.rate ∧ (f = .f30d → l.dropped = false) := by
  simp [Label.legal, inRange_iff, and_assoc, imp_iff_not_or]

theorem Label.legal_f30d_iff (l : Label) : l.legal .f30d = true ↔ l.InRange 30 ∧ l.dropped = false := by
  simp [legal_iff, SuiteFormat.rate]

theorem Label.toFrame_eq_count {f : SuiteFormat} (hf : f ≠ .f30d) (l : Label) : l.toFrame f = l.count f.rate := by
  cases f with
  | f25 => rfl
  | f30 => rfl
  | f30d => exact absurd rfl hf

/-- The minutes of a label are the whole minutes of its count, so R7 subtracts the labels dropped before it. -/
theorem Label.toFrame_f30d {l : Label} (h : l.InRange 30) : l.toFrame .f30d = withoutDropped (l.count 30) := by
  obtain ⟨hh, mm, ss, ff⟩ := h
  have minutes : l.count 30 / 1800 = l.hh * 60 + l.mm := by unfold Label.count; omega
  unfold withoutDropped
  rw [minutes]
  rfl

theorem Label.ofFrame_eq_split {f : SuiteFormat} (hf : f ≠ .f30d) (n : Nat) : Label.ofFrame f n = Label.split f.rate n := by
  cases f with
  | f25 => rfl
  | f30 => rfl
  | f30d => exact absurd rfl hf

theorem Label.ofFrame_f30d (n : Nat) : Label.ofFrame .f30d n = Label.split 30 (restoreDropped n) := rfl

/-! ### A label and its count -/

theorem Label.count_lt {r : Nat} {l : Label} (h : l.InRange r) : l.count r < 86400 * r := by
  obtain ⟨hh, mm, ss, ff⟩ := h
  have seconds : (l.hh * 60 + l.mm) * 60 + l.ss + 1 ≤ 86400 := by omega
  calc l.count r < ((l.hh * 60 + l.mm) * 60 + l.ss) * r + r := Nat.add_lt_add_left ff _
    _ = ((l.hh * 60 + l.mm) * 60 + l.ss + 1) * r := (Nat.succ_mul _ r).symm
    _ ≤ 86400 * r := Nat.mul_le_mul_right r seconds

theorem Label.split_count {r : Nat} {l : Label} (h : l.InRange r) : Label.split r (l.count r) = l := by
  obtain ⟨hh, mm, ss, ff⟩ := h
  have seconds : l.count r / r = (l.hh * 60 + l.mm) * 60 + l.ss := by
    rw [Label.count, Nat.mul_comm, Nat.mul_add_div (by omega), Nat.div_eq_of_lt ff, Nat.add_zero]
  have frames : l.count r % r = l.ff := by rw [Label.count, Nat.mul_add_mod', Nat.mod_eq_of_lt ff]
  unfold Label.split
  rw [seconds, frames]
  change _ = Label.mk l.hh l.mm l.ss l.ff
  simp only [Label.mk.injEq, and_true]
  omega

theorem Label.count_split (r n : Nat) : (Label.split r n).count r = n := by
  have seconds : (n / r / 3600 * 60 + n / r / 60 % 60) * 60 + n / r % 60 = n / r := by omega
  simp only [Label.count, Label.split, seconds, Nat.div_add_mod']

theorem Label.split_inRange {r n : Nat} (h : n < 86400 * r) : (Label.split r n).InRange r := by
  have seconds : n / r < 86400 := Nat.div_lt_of_lt_mul (by omega)
  refine ⟨?_, ?_, ?_, Nat.mod_lt n (by omega)⟩ <;> simp only [Label.split] <;> omega

theorem Label.dropped_iff {l : Label} (h : l.InRange 30) : l.dropped = true ↔ DroppedCount (l.count 30) := by
  obtain ⟨hh, mm, ss, ff⟩ := h
  have minutes : l.count 30 / 1800 % 10 = l.mm % 10 := by unfold Label.count; omega
  have first : l.count 30 % 1800 < 2 ↔ l.ss = 0 ∧ l.ff < 2 := by unfold Label.count; omega
  simp [Label.dropped, DroppedCount, minutes, first]

/-! ### A count and its frame number in F30D -/

/-- R9 restores what R7 subtracts. -/
theorem restoreDropped_withoutDropped {c : Nat} (kept : ¬DroppedCount c) : restoreDropped (withoutDropped c) = c := by
  unfold DroppedCount at kept
  unfold restoreDropped withoutDropped
  omega

/-- R7 subtracts what R9 restores. -/
theorem withoutDropped_restoreDropped (n : Nat) : withoutDropped (restoreDropped n) = n := by
  unfold restoreDropped withoutDropped
  omega

/-- R9 names no dropped label. -/
theorem restoreDropped_kept (n : Nat) : ¬DroppedCount (restoreDropped n) := by
  unfold DroppedCount restoreDropped
  omega

theorem restoreDropped_lt {n : Nat} (h : n < 2589408) : restoreDropped n < 86400 * 30 := by
  unfold restoreDropped
  omega

theorem withoutDropped_lt {c : Nat} (h : c < 86400 * 30) : withoutDropped c < 2589408 := by
  unfold withoutDropped
  omega

/-! ### Labels and frame numbers -/

theorem SuiteFormat.dayLen_eq {f : SuiteFormat} (hf : f ≠ .f30d) : f.dayLen = 86400 * f.rate := by
  cases f with
  | f25 => rfl
  | f30 => rfl
  | f30d => exact absurd rfl hf

theorem Label.toFrame_lt {f : SuiteFormat} {l : Label} (legal : l.legal f = true) : l.toFrame f < f.dayLen := by
  by_cases hf : f = .f30d
  · subst hf
    obtain ⟨range, -⟩ := (legal_f30d_iff l).mp legal
    rw [toFrame_f30d range]
    exact withoutDropped_lt (count_lt range)
  · rw [toFrame_eq_count hf, SuiteFormat.dayLen_eq hf]
    exact count_lt ((legal_iff f l).mp legal).1

theorem Label.ofFrame_toFrame {f : SuiteFormat} {l : Label} (legal : l.legal f = true) : Label.ofFrame f (l.toFrame f) = l := by
  by_cases hf : f = .f30d
  · subst hf
    obtain ⟨range, notDropped⟩ := (legal_f30d_iff l).mp legal
    have kept : ¬DroppedCount (l.count 30) := by simp [← dropped_iff range, notDropped]
    rw [toFrame_f30d range, ofFrame_f30d, restoreDropped_withoutDropped kept, split_count range]
  · rw [toFrame_eq_count hf, ofFrame_eq_split hf, split_count ((legal_iff f l).mp legal).1]

theorem Label.ofFrame_legal {f : SuiteFormat} {n : Nat} (h : n < f.dayLen) : (Label.ofFrame f n).legal f = true := by
  by_cases hf : f = .f30d
  · subst hf
    have range : (Label.split 30 (restoreDropped n)).InRange 30 := split_inRange (restoreDropped_lt h)
    refine (legal_f30d_iff _).mpr ⟨range, Bool.eq_false_iff.mpr fun dropped => restoreDropped_kept n ?_⟩
    rw [← count_split 30 (restoreDropped n)]
    exact (dropped_iff range).mp dropped
  · rw [SuiteFormat.dayLen_eq hf] at h
    rw [ofFrame_eq_split hf, legal_iff]
    exact ⟨split_inRange h, fun isF30d => absurd isF30d hf⟩

theorem Label.toFrame_ofFrame {f : SuiteFormat} {n : Nat} (h : n < f.dayLen) : (Label.ofFrame f n).toFrame f = n := by
  by_cases hf : f = .f30d
  · subst hf
    have range : (Label.split 30 (restoreDropped n)).InRange 30 := split_inRange (restoreDropped_lt h)
    rw [ofFrame_f30d, toFrame_f30d range, count_split, withoutDropped_restoreDropped]
  · rw [ofFrame_eq_split hf, toFrame_eq_count hf, count_split]

/-! ### Positions and lines (R14) -/

section
variable {f : SuiteFormat} {n l : Nat} (first : 1 ≤ l) (last : l ≤ f.lpf)
include first last

theorem SuiteFormat.position_lt (day : n < f.dayLen) : f.position n l < f.dayLen * f.lpf :=
  calc f.position n l < n * f.lpf + f.lpf := by unfold SuiteFormat.position; omega
    _ = (n + 1) * f.lpf := (Nat.succ_mul n f.lpf).symm
    _ ≤ f.dayLen * f.lpf := Nat.mul_le_mul_right f.lpf day

theorem SuiteFormat.position_div : f.position n l / f.lpf = n := by
  rw [position, Nat.mul_comm, Nat.mul_add_div (by omega), Nat.div_eq_of_lt (by omega), Nat.add_zero]

theorem SuiteFormat.position_mod : f.position n l % f.lpf + 1 = l := by
  rw [position, Nat.mul_add_mod', Nat.mod_eq_of_lt (by omega), Nat.sub_add_cancel first]

end

theorem SuiteFormat.lpf_pos (f : SuiteFormat) : 0 < f.lpf := by cases f <;> decide

theorem SuiteFormat.position_div_mod (f : SuiteFormat) (p : Nat) : f.position (p / f.lpf) (p % f.lpf + 1) = p := by
  rw [position, Nat.add_sub_cancel, Nat.div_add_mod']

end Sys2Proof.Machine

namespace Sys2Proof.Proofs

open Sys2Proof.Machine

/-- Settles O5: a legal label is one of the day, and R6 and R7 are the count of its fields and that count less the labels
dropped before it. -/
theorem legalLabelsGiveFrameNumbers : Obligations.LegalLabelsGiveFrameNumbers := by
  constructor
  · intro f l hf legal
    have inDay := Label.toFrame_lt legal
    exact ⟨Label.toFrame_eq_count hf l, by omega, by rw [Label.toFrame_eq_count hf]; simp [Label.count], rfl, rfl⟩
  · intro l legal
    obtain ⟨range, -⟩ := (Label.legal_f30d_iff l).mp legal
    have inDay : l.toFrame .f30d < 2589408 := Label.toFrame_lt legal
    have formula : l.toFrame .f30d = ((l.hh * 60 + l.mm) * 60 + l.ss) * 30 + l.ff -
      2 * (l.hh * 60 + l.mm - (l.hh * 60 + l.mm) / 10) := rfl
    exact ⟨by omega, by omega, rfl, rfl⟩

/-- Settles O6: labels and frame numbers by way of the count of labels, positions and lines by division with remainder. -/
theorem labelsFramesAndPositionsAgree : Obligations.LabelsFramesAndPositionsAgree := by
  refine ⟨fun f => ⟨fun n day => ⟨Label.ofFrame_legal day, Label.toFrame_ofFrame day⟩,
    fun l legal => ⟨Label.toFrame_lt legal, Label.ofFrame_toFrame legal⟩⟩, fun f => ⟨?_, ?_, fun s => rfl⟩⟩
  · intro n l day first last
    exact ⟨SuiteFormat.position_lt first last day, SuiteFormat.position_div first last, SuiteFormat.position_mod first last⟩
  · intro p day
    exact ⟨Nat.div_lt_of_lt_mul (by rwa [Nat.mul_comm]), Nat.mod_lt p f.lpf_pos, f.position_div_mod p⟩

end Sys2Proof.Proofs

/-! ## The day circle (R11) -/

namespace Sys2Proof.Machine

/-- On a circle of m points a difference is its own remainder, or one turn below it. -/
theorem sub_emod_eq_ite {m a b : Nat} (ha : a < m) (hb : b < m) :
    ((a : Int) - b) % m = if b ≤ a then (a : Int) - b else (a : Int) - b + m := by
  split
  · exact Int.emod_eq_of_lt (by omega) (by omega)
  · rw [← Int.add_emod_right]
    exact Int.emod_eq_of_lt (by omega) (by omega)

/-- A step of k points forward from b, for k less than one turn. -/
theorem add_mod_eq_ite {m b k : Nat} (hb : b < m) (hk : k < m) : (b + k) % m = if b + k < m then b + k else b + k - m := by
  split
  · exact Nat.mod_eq_of_lt ‹_›
  · rw [Nat.mod_eq_sub_mod (by omega)]
    exact Nat.mod_eq_of_lt (by omega)

theorem wrapDiff_of_lt_half {m a b : Nat} (h : ((a : Int) - b) % m < (m / 2 : Nat)) : wrapDiff m a b = ((a : Int) - b) % m :=
  if_pos h

theorem wrapDiff_of_not_lt_half {m a b : Nat} (h : ¬((a : Int) - b) % m < (m / 2 : Nat)) :
    wrapDiff m a b = ((a : Int) - b) % m - m :=
  if_neg h

section
variable {m h a b : Nat} (even : m = 2 * h) (ha : a < m) (hb : b < m)
include even ha hb

/-- The signed difference on a circle of 2h points, by the plain difference of the two points. -/
theorem wrapDiff_cases : (wrapDiff m a b = (a : Int) - b ∧ -(h : Int) ≤ (a : Int) - b ∧ (a : Int) - b < h) ∨
    (wrapDiff m a b = (a : Int) - b - m ∧ (h : Int) ≤ (a : Int) - b) ∨
    (wrapDiff m a b = (a : Int) - b + m ∧ (a : Int) - b < -h) := by
  have half : m / 2 = h := by omega
  have r := sub_emod_eq_ite ha hb
  by_cases lt : ((a : Int) - b) % m < (m / 2 : Nat)
  · rw [wrapDiff_of_lt_half lt]
    split at r <;> omega
  · rw [wrapDiff_of_not_lt_half lt]
    split at r <;> omega

theorem wrapDiff_range : -(h : Int) ≤ wrapDiff m a b ∧ wrapDiff m a b ≤ (h : Int) - 1 := by
  have := wrapDiff_cases even ha hb
  omega

/-- Opposite points lie half a turn below each other. -/
theorem wrapDiff_opposite (opp : ((a : Int) - b) % m = h) : wrapDiff m a b = -(h : Int) ∧ wrapDiff m b a = -(h : Int) := by
  have r := sub_emod_eq_ite ha hb
  have ab := wrapDiff_cases even ha hb
  have ba := wrapDiff_cases even hb ha
  split at r <;> omega

/-- a is ahead of b when fewer than h steps forward lead from b to a. -/
theorem wrapDiff_pos_iff : 0 < wrapDiff m a b ↔ ∃ k : Nat, 0 < k ∧ k < h ∧ a = (b + k) % m := by
  have d := wrapDiff_cases even ha hb
  constructor
  · intro pos
    refine ⟨(wrapDiff m a b).toNat, by omega, by omega, ?_⟩
    rw [add_mod_eq_ite hb (by omega)]
    split <;> omega
  · rintro ⟨k, k0, kh, step⟩
    rw [add_mod_eq_ite hb (by omega)] at step
    split at step <;> omega

/-- a is behind b when at most h steps forward lead from a to b. -/
theorem wrapDiff_neg_iff : wrapDiff m a b < 0 ↔ ∃ k : Nat, 0 < k ∧ k ≤ h ∧ b = (a + k) % m := by
  have d := wrapDiff_cases even ha hb
  constructor
  · intro neg
    refine ⟨(-wrapDiff m a b).toNat, by omega, by omega, ?_⟩
    rw [add_mod_eq_ite ha (by omega)]
    split <;> omega
  · rintro ⟨k, k0, kh, step⟩
    rw [add_mod_eq_ite ha (by omega)] at step
    split at step <;> omega

theorem wrapDiff_eq_zero_iff : wrapDiff m a b = 0 ↔ a = b := by
  have := wrapDiff_cases even ha hb
  omega

end

/-- The day has an even number of frames in every format, so that its half day is exact. -/
theorem SuiteFormat.dayLen_even (f : SuiteFormat) : 2 ∣ f.dayLen := by cases f <;> decide

end Sys2Proof.Machine

namespace Sys2Proof.Proofs

open Sys2Proof.Machine

/-- Settles O7: both circles have an even number of points, and the differences on such a circle are known. -/
theorem wrappedDifference : Obligations.WrappedDifference := by
  intro f g m circle a b ha hb
  have diff : g f a b = wrapDiff m a b ∧ g f b a = wrapDiff m b a ∧ 2 ∣ m := by
    rcases circle with ⟨rfl, rfl⟩ | ⟨rfl, rfl⟩
    · exact ⟨rfl, rfl, f.dayLen_even⟩
    · exact ⟨rfl, rfl, Dvd.dvd.mul_right f.dayLen_even _⟩
  obtain ⟨gab, gba, dvd⟩ := diff
  have even : m = 2 * (m / 2) := (Nat.mul_div_cancel' dvd).symm
  rw [gab, gba]
  obtain ⟨low, high⟩ := wrapDiff_range even ha hb
  exact ⟨wrapDiff_of_lt_half, wrapDiff_of_not_lt_half, low, high, wrapDiff_opposite even ha hb,
    wrapDiff_pos_iff even ha hb, wrapDiff_neg_iff even ha hb, wrapDiff_eq_zero_iff even ha hb⟩

end Sys2Proof.Proofs

/-! ## Rounding and the curves (R15, R153) -/

namespace Sys2Proof.Machine

/-- Halves up over an even divisor, as the formulas of R153 are written. -/
theorem roundHalfUp_even (n d : Nat) : roundHalfUp n (2 * d) = (n + d) / (2 * d) := by
  rw [roundHalfUp, ← Nat.mul_add, Nat.mul_div_mul_left _ _ two_pos]

/-- A whole multiple is not rounded. -/
theorem roundHalfUp_mul (b : Nat) {d : Nat} (hd : 0 < d) : roundHalfUp (b * d) d = b := by
  rw [roundHalfUp, show 2 * (b * d) + d = d + 2 * d * b by ring, Nat.add_mul_div_left _ _ (by omega),
    Nat.div_eq_of_lt (by omega), Nat.zero_add]

theorem roundHalfUp_mono {n n' : Nat} (d : Nat) (h : n ≤ n') : roundHalfUp n d ≤ roundHalfUp n' d :=
  Nat.div_le_div_right (by omega)

/-- Two parts of a whole multiple round to parts of it, unless they fall on a half: then both are rounded up. -/
theorem roundHalfUp_add_roundHalfUp {n n' b d : Nat} (hd : 0 < d) (whole : n + n' = b * d) (noHalf : 2 * n % (2 * d) ≠ d) :
    roundHalfUp n d + roundHalfUp n' d = b := by
  have below : roundHalfUp n d ≤ b := Laws.roundHalfUp_le n d b (by omega)
  obtain ⟨c, rfl⟩ := Nat.exists_eq_add_of_le below
  have quotient : 2 * d * roundHalfUp n d + (2 * n + d) % (2 * d) = 2 * n + d := Nat.div_add_mod _ _
  have short : (2 * n + d) % (2 * d) < 2 * d := Nat.mod_lt _ (by omega)
  have notWhole : 0 < (2 * n + d) % (2 * d) := by
    refine Nat.pos_of_ne_zero fun zero => noHalf ?_
    have : d + 2 * n ≡ d + d [MOD 2 * d] := by
      rw [Nat.ModEq, Nat.add_comm d (2 * n), zero, ← two_mul, Nat.mod_self]
    rw [Nat.ModEq.add_left_cancel' d this, Nat.mod_eq_of_lt (by omega)]
  have rest : roundHalfUp n' d = c := by
    refine Nat.div_eq_of_lt_le ?_ ?_ <;> nlinarith
  rw [rest]

/-! ### The S curve -/

/-- The numerator of the S curve's level, with 2D given as the fields up to k and the x after it. -/
theorem sCurve_numerator {d k x : Nat} (fields : 2 * d = k + x) :
    1023 * k ^ 2 * (6 * d - 2 * k) = 1023 * (k ^ 2 * (k + 3 * x)) := by
  rw [show 6 * d - 2 * k = k + 3 * x by omega, Nat.mul_assoc]

/-- The denominator 8D³ is (2D)³. -/
theorem sCurve_denominator {d k x : Nat} (fields : 2 * d = k + x) : 8 * d ^ 3 = (k + x) ^ 3 := by
  rw [← fields]
  ring

/-- The numerator does not fall from one field to the next. -/
theorem sCurve_step {d k : Nat} (h : k < 2 * d) :
    1023 * k ^ 2 * (6 * d - 2 * k) ≤ 1023 * (k + 1) ^ 2 * (6 * d - 2 * (k + 1)) := by
  obtain ⟨x, fields⟩ := Nat.exists_eq_add_of_le (Nat.succ_le_of_lt h)
  rw [sCurve_numerator (k := k) (x := x + 1) (by omega), sCurve_numerator (k := k + 1) (x := x) (by omega)]
  refine Nat.mul_le_mul_left 1023 ?_
  nlinarith [Nat.zero_le (k * x)]

/-! ### Levels -/

theorem curveLevel_linear (d k : Nat) : curveLevel .linear d k = (1023 * k + d) / (2 * d) := roundHalfUp_even _ _

theorem curveLevel_s (d k : Nat) :
    curveLevel .s d k = (1023 * k ^ 2 * (6 * d - 2 * k) + 4 * d ^ 3) / (8 * d ^ 3) := by
  have twice : 8 * d ^ 3 = 2 * (4 * d ^ 3) := by ring
  rw [curveLevel, twice, roundHalfUp_even]

theorem curveLevel_step (c : Curve) {d k : Nat} (h : k < 2 * d) : curveLevel c d k ≤ curveLevel c d (k + 1) := by
  cases c with
  | linear => exact roundHalfUp_mono _ (by omega)
  | s => exact roundHalfUp_mono _ (sCurve_step h)

theorem curveLevel_last (c : Curve) {d : Nat} (hd : 1 ≤ d) : curveLevel c d (2 * d) = 1023 := by
  cases c with
  | linear => exact roundHalfUp_mul _ (by omega)
  | s =>
    rw [curveLevel, show 1023 * (2 * d) ^ 2 * (6 * d - 2 * (2 * d)) = 1023 * (8 * d ^ 3) by
      rw [sCurve_numerator (k := 2 * d) (x := 0) rfl]; ring]
    exact roundHalfUp_mul _ (by positivity)

/-- The two levels' numerators are parts of 1023 (2D)³ for the split of 2D into k and 2D - k. -/
theorem sCurve_symmetric {d k : Nat} (hd : 1 ≤ d) (h : k ≤ 2 * d)
    (noHalf : 2 * (1023 * k ^ 2 * (6 * d - 2 * k)) % (2 * (8 * d ^ 3)) ≠ 8 * d ^ 3) :
    curveLevel .s d k + curveLevel .s d (2 * d - k) = 1023 := by
  refine roundHalfUp_add_roundHalfUp (by positivity) ?_ noHalf
  obtain ⟨x, fields⟩ := Nat.exists_eq_add_of_le h
  rw [show 2 * d - k = x by omega, sCurve_numerator fields, sCurve_numerator (k := x) (x := k) (by omega),
    sCurve_denominator fields]
  ring

theorem takeLevel_step (m d k : Nat) : takeLevel m d k ≤ takeLevel m d (k + 1) :=
  Nat.add_le_add_left (roundHalfUp_mono _ (Nat.mul_le_mul_left _ (Nat.le_succ k))) m

theorem takeLevel_first (m : Nat) {d : Nat} (hd : 1 ≤ d) : takeLevel m d 0 = m := by
  have zero := roundHalfUp_mul 0 (show 0 < 2 * d by omega)
  rw [Nat.zero_mul] at zero
  rw [takeLevel, Nat.mul_zero, zero, Nat.add_zero]

theorem takeLevel_last {m d : Nat} (hm : m ≤ 1023) (hd : 1 ≤ d) : takeLevel m d (2 * d) = 1023 := by
  rw [takeLevel, roundHalfUp_mul _ (by omega), Nat.add_sub_cancel' hm]

end Sys2Proof.Machine

namespace Sys2Proof.Proofs

open Sys2Proof.Machine

/-- Settles O41: rounding keeps the order of the numerators, and those of the S curve at k and 2D - k make up 1023 wholes. -/
theorem curvesRiseToFullLevel : Obligations.CurvesRiseToFullLevel := by
  intro d hd
  refine ⟨fun k _ => ⟨curveLevel_linear d k, curveLevel_s d k, fun m => ?_⟩,
    fun c => ⟨curveLevel_last c hd, fun k h => curveLevel_step c h⟩,
    fun m hm => ⟨takeLevel_last hm hd, takeLevel_first m hd, fun k _ => takeLevel_step m d k⟩,
    fun k h noHalf => sCurve_symmetric hd h noHalf⟩
  rw [takeLevel, roundHalfUp_even]

end Sys2Proof.Proofs

/-! ## SET_FORMAT (R17, R182) -/

namespace Sys2Proof.Machine

theorem mem_decks (d : Deck) : d ∈ decks := by revert d; decide

/-! ### Notices -/

/-- s with another notice table. -/
def State.withNotices (s : State) (l : List Notice) : State := { s with link := { s.link with notices := l } }

/-- The notice table l after an entry that s makes, unless the kind is masked (R177, R179). -/
def State.noted (s : State) (k : NoticeKind) (n : Nat) (c : List Val) (l : List Notice) : List Notice :=
  if s.link.masked k then l else noticeEnter k n c s.clock.frame l

/-- An entry touches the notice table alone. -/
theorem State.enter_eq (s : State) (k : NoticeKind) (n : Nat) (c : List Val) :
    s.enter k n c = s.withNotices (s.noted k n c s.link.notices) := by
  unfold State.enter State.noted
  split <;> rfl

/-- The notice table l after reader d of s takes the record r: an entry where the source changes (R44). -/
def State.readerNoted (s : State) (r : Reader) (c : ReaderCause) (l : List Notice) (d : Deck) : List Notice :=
  if (s.reader d).src = r.src then l else s.noted .readerState (Deck.num d) (r.noticeContent (s.reader d).src c) l

/-- A reader's new record touches the reader and the notice table alone. -/
theorem State.readerSource_eq (s : State) (d : Deck) (r : Reader) (c : ReaderCause) :
    s.readerSource d r c = (s.setReader d r).withNotices (s.readerNoted r c s.link.notices d) := by
  unfold State.readerSource State.readerNoted
  by_cases same : r.src = (s.reader d).src
  · rw [if_pos same, if_pos same.symm]
    rfl
  · rw [if_neg same, if_neg (Ne.symm same), State.enter_eq]
    rfl

/-- Several readers that take the record r. -/
def State.setReaders (s : State) (r : Reader) (ds : List Deck) : State :=
  { s with readers := ds.foldl (fun v d => v.set d.val r) s.readers }

/-- Readers that take the record r in turn: each entry has the reader's source from before. -/
theorem State.foldl_readerSource_eq (r : Reader) (c : ReaderCause) (ds : List Deck) (distinct : ds.Nodup) (s : State) :
    ds.foldl (fun s d => s.readerSource d r c) s =
      (s.setReaders r ds).withNotices (ds.foldl (s.readerNoted r c) s.link.notices) := by
  induction ds generalizing s with
  | nil => rfl
  | cons d ds ih =>
    obtain ⟨new, rest⟩ := List.nodup_cons.mp distinct
    let l := s.readerNoted r c s.link.notices d
    have others : ∀ (l : List Notice), ∀ e ∈ ds, (s.setReader d r).readerNoted r c l e = s.readerNoted r c l e := by
      intro l e he
      unfold State.readerNoted
      rw [State.reader_setReader_ne s r (ne_of_mem_of_not_mem he new)]
      rfl
    calc (d :: ds).foldl (fun s d => s.readerSource d r c) s
      _ = ds.foldl (fun s d => s.readerSource d r c) ((s.setReader d r).withNotices l) := by
        rw [List.foldl_cons, State.readerSource_eq]
      _ = (((s.setReader d r).withNotices l).setReaders r ds).withNotices (ds.foldl ((s.setReader d r).readerNoted r c) l) :=
        ih rest _
      _ = (((s.setReader d r).withNotices l).setReaders r ds).withNotices (ds.foldl (s.readerNoted r c) l) := by
        rw [List.foldl_ext _ _ l others]
      _ = (s.setReaders r (d :: ds)).withNotices ((d :: ds).foldl (s.readerNoted r c) s.link.notices) := rfl

/-- The readers named hold the record r. -/
theorem State.reader_setReaders (r : Reader) (ds : List Deck) (s : State) (d : Deck) :
    (s.setReaders r ds).reader d = if d ∈ ds then r else s.reader d := by
  induction ds generalizing s with
  | nil => rfl
  | cons e ds ih =>
    change ((s.setReader e r).setReaders r ds).reader d = _
    rw [ih]
    by_cases same : d = e
    · subst same
      simp
    · simp [same, State.reader_setReader_ne s r same]

/-! An entry depends on the mask, the house frame number and the readers alone, so the order of other updates is free. -/

section
variable (s : State) (l m : List Notice) (r : Reader) (ds : List Deck)

@[simp] theorem State.withNotices_notices : (s.withNotices l).link.notices = l := rfl

@[simp] theorem State.withNotices_withNotices : (s.withNotices l).withNotices m = s.withNotices m := rfl

@[simp] theorem State.setReaders_withNotices : (s.withNotices l).setReaders r ds = (s.setReaders r ds).withNotices l := rfl

@[simp] theorem State.noted_withNotices : (s.withNotices l).noted = s.noted := rfl

@[simp] theorem State.noted_setReaders : (s.setReaders r ds).noted = s.noted := rfl

@[simp] theorem State.readerNoted_withNotices : (s.withNotices l).readerNoted = s.readerNoted := rfl

end

/-! ### The format change -/

/-- The notice table after a format change of s: the waiting notices in the new format, then the entries of R182. -/
def State.formatNotices (s : State) (f : SuiteFormat) : List Notice :=
  let u := s.toFormat f
  u.noted .hello 0 (helloContent .format f s.recorder 0)
    (decks.foldl (u.readerNoted (Reader.initial f) .restart)
      (u.noted .referenceState 0 (refContent .acquiring none none (some .restart)) u.link.notices))

/-- A format change is that of every block but the readers, the readers at their reset values, and the notices. -/
theorem State.changeFormat_eq (s : State) (f : SuiteFormat) :
    s.changeFormat f = ((s.toFormat f).setReaders (Reader.initial f) decks).withNotices (s.formatNotices f) := by
  unfold State.changeFormat State.formatNotices
  simp only [State.enter_eq (s.toFormat f), State.foldl_readerSource_eq _ _ decks (by decide), State.hello,
    State.enter_eq _ .hello, withNotices_notices, withNotices_withNotices, setReaders_withNotices, noted_withNotices,
    noted_setReaders, readerNoted_withNotices]
  rfl

/-- SET_FORMAT is refused in an edit, an active run or a chase (R182). -/
theorem State.formatRefused_iff (s : State) : s.formatRefused = true ↔ s.edit.phase ≠ .idle ∨ s.run.st = .executing ∨
    s.run.st = .held ∨ s.run.st = .pausing ∨ ∃ d, (s.chan d).st ≠ .idle := by
  simp [State.formatRefused, Run.active, mem_decks, or_assoc]

theorem State.port_toFormat (s : State) (f : SuiteFormat) (d : Deck) : (s.toFormat f).port d = (s.port d).reduce f :=
  Vector.getElem_map _ _

/-! ### The request -/

section
variable {s : State} {r : Request}

theorem exec_setFormat (s : State) : exec .setFormat s = execSetFormat s := rfl

theorem exec_setFormat_unknown (taken : Safety.Takes s 0x48 r) (unknown : 2 < byteN r.params 0) :
    exec .setFormat s = .next (Safety.answered s r .unknownRequest []) := by
  have unnamed : SuiteFormat.ofCode (byteN r.params 0) = none := by
    unfold SuiteFormat.ofCode
    split <;> [omega; omega; omega; rfl]
  rw [exec_setFormat, execSetFormat, Laws.takeRequest_takes s r 0x48 _ taken, ← Laws.refuse_dropHead]
  simp only [unnamed]

section
variable {f : SuiteFormat} (taken : Safety.Takes s 0x48 r) (named : SuiteFormat.ofCode (byteN r.params 0) = some f)
include taken named

theorem exec_setFormat_busy (busy : s.formatRefused = true) :
    exec .setFormat s = .next (Safety.answered s r .wrongState []) := by
  have refused : s.dropHead.formatRefused = true := busy
  rw [exec_setFormat, execSetFormat, Laws.takeRequest_takes s r 0x48 _ taken, ← Laws.refuse_dropHead]
  simp only [named, refused, if_true]

theorem exec_setFormat_quiet (quiet : ¬s.formatRefused = true) :
    exec .setFormat s = .next ((s.dropHead.changeFormat f).ok r [.u 1 f.code]) := by
  have accepted : ¬s.dropHead.formatRefused = true := quiet
  rw [exec_setFormat, execSetFormat, Laws.takeRequest_takes s r 0x48 _ taken]
  simp only [named, if_neg accepted]

end

end

end Sys2Proof.Machine

namespace Sys2Proof.Proofs

open Sys2Proof.Machine

/-- Settles O50: the request is refused or restarts the suite by the case it meets; in the restart each field is that of
`State.toFormat`, but for the readers and the notice table of `State.changeFormat_eq`. -/
theorem setFormatRestartsTheSuite : Obligations.SetFormatRestartsTheSuite := by
  refine ⟨fun s r taken unknown => exec_setFormat_unknown taken unknown, fun s r f taken named => ?_⟩
  intro busy within cmd put
  refine ⟨fun h => exec_setFormat_busy taken named (s.formatRefused_iff.mpr h),
    fun h => ⟨_, exec_setFormat_quiet taken named (mt s.formatRefused_iff.mp h), ?_⟩⟩
  have value : Val.reduce f = within := by funext v; cases v <;> rfl
  have command : DeckCmd.reduce f = cmd := by funext c; cases c <;> rfl
  rw [State.changeFormat_eq, ← value, ← command]
  refine ⟨rfl, rfl, rfl, rfl, fun d => ?readers, rfl, rfl, rfl, rfl, rfl, rfl, rfl, rfl, rfl, rfl, rfl, fun d => ?ports,
    ?notices, rfl, rfl, rfl⟩
  case readers =>
    exact (State.reader_setReaders (Reader.initial f) decks (s.dropHead.toFormat f) d).trans (if_pos (mem_decks d))
  case ports => exact State.port_toFormat s.dropHead f d
  case notices => rfl

end Sys2Proof.Proofs

/-! ## Steady moves of the readers (R30 to R41) -/

namespace Sys2Proof.Laws.Steady

open Sys2Proof.Machine Sys2Proof.Safety

theorem acceptRecord (s : State) (d : Deck) (w : Word) : Steady s (s.acceptRecord d w) := ite (readerSource _ _ _ _) (refl s)

theorem goodWord (s : State) (d : Deck) (w : Word) : Steady s (s.goodWord d w) := by
  unfold State.goodWord
  dsimp only
  have taken (r : Reader) : Steady s ((s.setReader d r).acceptRecord d w) := (setReader _ _ _).trans (acceptRecord _ _ _)
  exact ite (taken _) (ite (taken _) (ite (taken _) (setReader _ _ _)))

theorem takeWord (s : State) (d : Deck) (w : TakenWord) (stamp : Nat) : Steady s (s.takeWord d w stamp) :=
  ite (goodWord _ _ _) (setReader _ _ _)

theorem release (s : State) (d : Deck) (i : Interval) : Steady s (s.release d i) := by
  unfold State.release
  dsimp only
  split
  · exact (setReader _ _ _).trans (takeWord _ _ _ _)
  · exact setReader _ _ _

theorem transition (s : State) (d : Deck) (t : Time) : Steady s (s.transition d t) := by
  unfold State.transition
  dsimp only
  split
  · exact setReader _ _ _
  · refine ite ?glitch ?interval
    case glitch => split <;> exact setReader _ _ _
    case interval =>
      split
      · exact (release _ _ _).trans (setReader _ _ _)
      · exact setReader _ _ _

theorem loseLtc (s : State) (d : Deck) (t : Nat) (c : ReaderCause) : Steady s (s.loseLtc d t c) := by
  unfold State.loseLtc
  dsimp only
  split
  · exact ite (readerSource _ _ _ _) (readerSource _ _ _ _)
  · exact readerSource _ _ _ _

theorem stillness (s : State) (d : Deck) (t : Nat) : Steady s (s.stillness d t) := by
  unfold State.stillness
  dsimp only
  exact ite (setReader _ _ _) (thenIte (setReader _ _ _) (loseLtc _ _ _ _))

theorem readerTests (s : State) (d : Deck) (t : Nat) : Steady s (s.readerTests d t) := by
  unfold State.readerTests
  dsimp only
  have lost (c : ReaderCause) : Steady s ((s.loseLtc d t c).stillness d t) := (loseLtc _ _ _ _).trans (stillness _ _ _)
  split
  · exact ite (ite (readerSource _ _ _ _) (lost _)) (ite (lost _) (stillness _ _ _))
  · exact stillness _ _ _

theorem readerStep (s : State) (d : Deck) : Steady s (s.readerStep d) := by
  unfold State.readerStep
  exact after (readerTests _ _ _) (due s _ rfl)

end Sys2Proof.Laws.Steady

/-! ## What the commands leave of the house time and of the queue of commands -/

namespace Sys2Proof.Laws

open Sys2Proof.Machine Sys2Proof.Safety

/-- The move from s to t leaves the format, the house time with its owed frame starts, and the waiting commands. -/
structure HouseKept (s t : State) : Prop where
  fmt     : t.fmt = s.fmt
  ref     : t.ref = s.ref
  clock   : t.clock = s.clock
  owed    : t.due.clock = s.due.clock
  pending : t.pending = s.pending

/-- A command's outcome is a next state that keeps the house time and the waiting commands. -/
def AnswersKept (s : State) (o : Host.Outcome State Fault Refusal) : Prop := ∃ t, o = .next t ∧ HouseKept s t

theorem Steady.houseKept {s t : State} (h : Steady s t) : HouseKept s t := by
  have same := h.base
  simp only [Laws.base, Prod.mk.injEq] at same
  obtain ⟨fmt, -, -, ref, clock, -, -, pending, owed, -, -⟩ := same
  exact ⟨fmt, ref, clock, owed, pending⟩

namespace HouseKept

theorem refl (s : State) : HouseKept s s := ⟨rfl, rfl, rfl, rfl, rfl⟩

theorem trans {s t u : State} (a : HouseKept s t) (b : HouseKept t u) : HouseKept s u :=
  ⟨b.fmt.trans a.fmt, b.ref.trans a.ref, b.clock.trans a.clock, b.owed.trans a.owed, b.pending.trans a.pending⟩

theorem after {s t u : State} (b : HouseKept t u) (a : HouseKept s t) : HouseKept s u := a.trans b

theorem ite {s t u : State} {p : Prop} [Decidable p] (a : HouseKept s t) (b : HouseKept s u) :
    HouseKept s (if p then t else u) := by split <;> assumption

theorem foldl {α : Type} (f : State → α → State) (h : ∀ s a, HouseKept s (f s a)) (l : List α) (s : State) :
    HouseKept s (l.foldl f s) := by
  induction l generalizing s with
  | nil => exact refl s
  | cons a l ih => exact (h s a).trans (ih _)

/-! ### Single fields -/

theorem reply (s : State) (k t : Byte) (v : List Val) : HouseKept s (s.reply k t v) := (Steady.reply s k t v).houseKept

theorem ok (s : State) (r : Request) (v : List Val) : HouseKept s (s.ok r v) := reply _ _ _ _

theorem refuse (s : State) (r : Request) (x : Result) : HouseKept s (s.refuse r x) := reply _ _ _ _

theorem link (s : State) (l : Link) : HouseKept s { s with link := l } := ⟨rfl, rfl, rfl, rfl, rfl⟩

theorem list (s : State) (l : EventList) : HouseKept s { s with list := l } := ⟨rfl, rfl, rfl, rfl, rfl⟩

theorem set (s : State) (x : Settings) : HouseKept s { s with set := x } := ⟨rfl, rfl, rfl, rfl, rfl⟩

theorem engine (s : State) (e : Engine) : HouseKept s { s with engine := e } := ⟨rfl, rfl, rfl, rfl, rfl⟩

theorem due (s : State) (x : Due) (owed : x.clock = s.due.clock) : HouseKept s { s with due := x } :=
  ⟨rfl, rfl, rfl, owed, rfl⟩

theorem engineMove (s : State) (e : Engine) (c : TransCause) : HouseKept s (s.engineMove e c) :=
  (Steady.enter _ _ _ _ (by decide)).houseKept.after (engine s e)

theorem setPort (s : State) (d : Deck) (p : Port) : HouseKept s (s.setPort d p) := ⟨rfl, rfl, rfl, rfl, rfl⟩

/-! ### The control link -/

theorem linkReply (s : State) (k t : Byte) (x : Result) : HouseKept s (s.linkReply k t x) := ite (reply _ _ _ _) (link _ _)

theorem damagedFrame (s : State) : HouseKept s s.damagedFrame := (link _ _).trans (linkReply _ _ _ _)

theorem validFrame (s : State) (t : Time) (r : Request) : HouseKept s (s.validFrame t r) :=
  ite ((link _ _).trans (linkReply _ _ _ _)) ((link _ _).trans (link _ _))

theorem linkByte (t : Time) (s : State) (b : Byte) : HouseKept s (s.linkByte t b) := by
  unfold State.linkByte
  split
  · exact ite (link _ _) (refl s)
  · dsimp only
    have held (l : Link) : HouseKept s { s with link := l } := link s l
    exact ite ((held _).trans (damagedFrame _)) (ite (held _) (ite ((held _).trans (validFrame _ _ _))
      ((held _).trans (damagedFrame _))))

/-! ### The resets -/

theorem abortPass (s : State) (d : Deck) : HouseKept s (s.abortPass d) := by
  unfold State.abortPass
  dsimp only
  have inFlight : HouseKept s (match (s.port d).flight with
      | some { cmd, origin := .pass kind tag } => s.passAborted { cmd, kind, tag }
      | _ => s) := by split <;> [exact reply _ _ _ _; exact refl s]
  split
  · exact inFlight.trans (reply _ _ _ _)
  · exact inFlight

theorem softValues (s : State) (t : Time) : HouseKept s (s.softValues t) := ⟨rfl, rfl, rfl, rfl, rfl⟩

theorem hello (s : State) (c : HelloCause) : HouseKept s (s.hello c) := (Steady.enter _ _ _ _ (by decide)).houseKept

theorem beginSafeStop (s : State) : HouseKept s s.beginSafeStop :=
  (link s _).trans (foldl _ (fun _ _ => (Steady.postEmergency _ _ _ _).houseKept) _ _)

end HouseKept

/-! ### The frames of a command -/

section
variable {s : State}

theorem running_kept {f : State → State} (h : ∀ s, HouseKept s (f s)) : AnswersKept s (running s f) :=
  ⟨_, rfl, .ite (.refl s) (h s)⟩

theorem timed_kept {t : Time} {f : State → State} (h : ∀ s, HouseKept s (f s)) : AnswersKept s (timed s t f) :=
  running_kept fun s => (h (s.tick t)).after ⟨rfl, rfl, rfl, rfl, rfl⟩

theorem takeRequest_kept {k : Byte} {f : Request → State → State} (h : ∀ r s, HouseKept s (f r s)) :
    AnswersKept s (takeRequest k s f) := by
  refine running_kept fun s => ?_
  have dropped : HouseKept s s.dropHead := HouseKept.link s _
  split
  · exact .ite (.ite (dropped.trans (h _ _)) (dropped.trans (.refuse _ _ _))) (.refl s)
  · exact .refl s

end

end Sys2Proof.Laws

/-! ## The house time through every command (R2, R21, section 2.7) -/

namespace Sys2Proof.Laws

open Sys2Proof.Machine Sys2Proof.Safety

/-- The commands that set the format, the house time or the frame starts it owes. -/
def setsHouse : Instr → Bool
  | .powerOn => true
  | .resetLineRelease _ => true
  | .framePulse _ _ => true
  | .linePulse _ => true
  | .noPulseTimeout _ => true
  | .latePulseTimeout _ => true
  | .timerLineStep _ => true
  | .houseClockFrameStart => true
  | .setHouseTime => true
  | .setFormat => true
  | _ => false

/-! ### Timed rows and frame starts -/

section
variable (s : State) (d : Deck) (t : Time)

theorem softResetEffect_kept : AnswersKept s (execSoftResetEffect t s) :=
  timed_kept fun s => .ite
    (((HouseKept.foldl _ HouseKept.abortPass _ _).trans (.softValues _ _)).trans (.hello _ _)) (.refl s)

theorem bitSyncTimeout_kept : AnswersKept s (execBitSyncTimeout d t s) := by
  refine timed_kept fun s => ?_
  dsimp only
  split
  · exact .ite (Steady.setReader _ _ _).houseKept (.refl s)
  · exact .refl s

theorem commandSent_kept : AnswersKept s (execCommandSent d t s) :=
  timed_kept fun s => .ite (.ite (.setPort _ _ _) ((HouseKept.setPort _ _ _).trans (Steady.hand _ _).houseKept)) (.refl s)

theorem replyTimeout_kept : AnswersKept s (execReplyTimeout d t s) :=
  timed_kept fun s => .ite (Steady.endCommand _ _ _ _ _).houseKept (.refl s)

theorem deckGapTimeout_kept : AnswersKept s (execDeckGapTimeout d t s) :=
  timed_kept fun s => .ite (.ite (Steady.endCommand _ _ _ _ _).houseKept
    ((Steady.breakStray _ _).trans (Steady.breakLate _ _)).houseKept) (.refl s)

theorem recoveryQuiet_kept : AnswersKept s (execRecoveryQuiet d t s) :=
  timed_kept fun s => .ite ((((Steady.breakStray _ _).trans (Steady.breakLate _ _)).houseKept.trans (.setPort _ _ _)).trans
    (Steady.hand _ _).houseKept) (.refl s)

theorem attachTimer_kept : AnswersKept s (execAttachTimer d t s) :=
  timed_kept fun s => .ite ((Steady.putIdentify _ _).trans (Steady.hand _ _)).houseKept (.refl s)

theorem deckPortFrameStart_kept : AnswersKept s (execDeckPortFrameStart d s) := by
  refine running_kept fun s => .ite ?_ (.refl s)
  exact ((Steady.hand _ _).houseKept.after (.setPort _ _ _)).after (HouseKept.due s _ rfl)

theorem transitionFieldStart_kept : AnswersKept s (execTransitionFieldStart s) := by
  refine running_kept fun s => ?_
  split
  · exact .refl s
  · exact (Steady.engineField _ _).houseKept.after (HouseKept.due s _ rfl)

theorem mixerFieldStart_kept : AnswersKept s (execMixerFieldStart s) := by
  refine running_kept fun s => ?_
  split <;> exact ⟨rfl, rfl, rfl, rfl, rfl⟩

theorem mixerSendLine_kept : AnswersKept s (execMixerSendLine s) := by
  refine running_kept fun s => ?_
  split
  · exact .refl s
  · exact .ite ⟨rfl, rfl, rfl, rfl, rfl⟩ (.refl s)

theorem gpiLineFire_kept : AnswersKept s (execGpiLineFire s) := by
  refine running_kept fun s => ?_
  split
  · exact .refl s
  · exact .ite ((Steady.fire _ _ _ _).after (Steady.gpi s _)).houseKept (.refl s)

theorem linkGapTimeout_kept : AnswersKept s (execLinkGapTimeout t s) := by
  refine timed_kept fun s => ?_
  split
  · exact .refl s
  · exact .ite (.damagedFrame s) (.refl s)

theorem unknownRequest_kept : AnswersKept s (execUnknownRequest s) := by
  refine running_kept fun s => ?_
  split
  · exact .ite ((HouseKept.link s _).trans (.refuse _ _ _)) (.refl s)
  · exact .refl s

theorem outboundSend_kept : AnswersKept s (execOutboundSend s) := by
  refine running_kept fun s => ?_
  split <;> exact ⟨rfl, rfl, rfl, rfl, rfl⟩

theorem silenceTimeout_kept : AnswersKept s (execSilenceTimeout t s) :=
  timed_kept fun s => .ite ((HouseKept.link s _).trans (Steady.silenceCheck _).houseKept) (.refl s)

end

/-! ### Requests -/

section
variable (s : State)

theorem getReader_kept : AnswersKept s (execGetReader s) := by
  refine takeRequest_kept fun r s => ?_
  split
  · exact .refuse _ _ _
  · exact (HouseKept.ok _ _ _).after (.ite (Steady.setReader _ _ _).houseKept (.refl s))

theorem deckCommand_kept : AnswersKept s (execDeckCommand s) := by
  refine takeRequest_kept fun r s => ?_
  split
  · exact .refuse _ _ _
  · dsimp only
    split
    · exact .refuse _ _ _
    · exact (HouseKept.setPort _ _ _).trans (Steady.hand _ _).houseKept
    · exact .refuse _ _ _

theorem getDeck_kept : AnswersKept s (execGetDeck s) := by
  refine takeRequest_kept fun r s => ?_
  split <;> exact .reply _ _ _ _

theorem setPortEnable_kept : AnswersKept s (execSetPortEnable s) := by
  refine takeRequest_kept fun r s => ?_
  split
  · exact .refuse _ _ _
  · exact .ite (.ite ((HouseKept.ok _ _ _).trans (Steady.enablePort _ _).houseKept) (.ok _ _ _))
      (.ite (.reply _ _ _ _) (.ite (.ok _ _ _) ((HouseKept.ok _ _ _).trans (Steady.disablePort _ _).houseKept)))

theorem setServoParams_kept : AnswersKept s (execSetServoParams s) :=
  takeRequest_kept fun _ s => ((HouseKept.set s _).trans (.foldl _ (fun _ _ =>
    ((Steady.reclampServo _ _).trans (Steady.idleLead _ _)).houseKept) _ _)).trans (.ok _ _ _)

theorem setChase_kept : AnswersKept s (execSetChase s) := by
  refine takeRequest_kept fun r s => ?_
  split
  · dsimp only
    split
    · exact .refuse _ _ _
    · exact (Steady.linkChase _ _ _ _).houseKept.trans (.ok _ _ _)
  · exact .refuse _ _ _

theorem clearChase_kept : AnswersKept s (execClearChase s) := by
  refine takeRequest_kept fun r s => ?_
  split
  · exact .refuse _ _ _
  · exact .ite (.refuse _ _ _) ((Steady.clearLink _ _ _).houseKept.trans (.ok _ _ _))

theorem getChase_kept : AnswersKept s (execGetChase s) := by
  refine takeRequest_kept fun r s => ?_
  split <;> exact .reply _ _ _ _

theorem HouseKept.load (s : State) (r : Request) (ptr : Nat) : HouseKept s (s.load r ptr) := by
  unfold State.load
  split
  · exact .refuse _ _ _
  · exact (HouseKept.list s _).trans (.reply _ _ _ _)

theorem readEvent_kept : AnswersKept s (execReadEvent s) := by
  refine takeRequest_kept fun r s => .ite (.refuse _ _ _) (.ite (.refuse _ _ _) ?_)
  split <;> exact .reply _ _ _ _

theorem executeEvent_kept : AnswersKept s (execExecuteEvent s) := by
  refine takeRequest_kept fun r s => ?_
  dsimp only
  split
  · exact .refuse _ _ _
  · exact .ite (.refuse _ _ _) (.ite (.refuse _ _ _) (.ite (.refuse _ _ _)
      ((HouseKept.ok _ _ _).trans (Steady.startEdit _ _ _).houseKept)))

theorem allStop_kept : AnswersKept s (execAllStop s) :=
  takeRequest_kept fun _ _ => (HouseKept.ok _ _ _).trans ((((Steady.abort _ _).trans
    (.foldl _ (fun _ _ => Steady.clearLink _ _ _) _ _)).trans (Steady.stopAll _ _)).trans (Steady.endRun _ _)).houseKept

theorem startRun_kept : AnswersKept s (execStartRun s) := by
  refine takeRequest_kept fun r s => ?_
  dsimp only
  split
  · split
    · exact .refuse _ _ _
    · exact .refuse _ _ _
    · exact (HouseKept.ok _ _ _).trans ((Steady.runTake _ _ _).after (Steady.run _ _)).houseKept
  · exact .refuse _ _ _

theorem continueRun_kept : AnswersKept s (execContinueRun s) := by
  refine takeRequest_kept fun r s => .ite (.refuse _ _ _) ?_
  split
  · exact .refuse _ _ _
  · exact .ite (.refuse _ _ _) (.ite (.refuse _ _ _) ((HouseKept.ok _ _ _).trans (Steady.runTake _ _ _).houseKept))

theorem skipEvent_kept : AnswersKept s (execSkipEvent s) := by
  refine takeRequest_kept fun r s => .ite (.refuse _ _ _) ((Steady.runAdvance _).houseKept.after ?_)
  split
  · exact (HouseKept.ok s r []).trans (.list _ _)
  · exact .ok _ _ _

theorem pauseRun_kept : AnswersKept s (execPauseRun s) := by
  refine takeRequest_kept fun r s => ?_
  have moved (x : Run) (why : RunReason) : HouseKept s ((s.ok r []).runMove x why) :=
    (HouseKept.ok _ _ _).trans (Steady.runMove _ _ _).houseKept
  split
  · exact moved _ _
  · exact .ok _ _ _
  · exact moved _ _
  · exact .refuse _ _ _
  · exact .refuse _ _ _

theorem stopRun_kept : AnswersKept s (execStopRun s) :=
  takeRequest_kept fun _ _ => .ite ((HouseKept.ok _ _ _).trans (Steady.endRun _ _).houseKept) (.refuse _ _ _)

theorem prepareTransition_kept : AnswersKept s (execPrepareTransition s) := by
  refine takeRequest_kept fun r s => ?_
  dsimp only
  split
  · exact (HouseKept.engine s _).trans (.ok _ _ _)
  · exact .refuse _ _ _

theorem autoTake_kept : AnswersKept s (execAutoTake s) := by
  refine takeRequest_kept fun r s => ?_
  have moved (e : Engine) (v : List Val) : HouseKept s ((s.ok r v).engineMove e .take) :=
    (HouseKept.ok _ _ _).trans (.engineMove _ _ _)
  dsimp only
  split
  · exact moved _ _
  · exact moved _ _
  · exact .refuse _ _ _
  · exact .refuse _ _ _
  · split
    · exact .refuse _ _ _
    · refine .ite (.refuse _ _ _) ?_
      split
      · exact (HouseKept.engine s _).trans (.ok _ _ _)
      · exact moved _ _
      · exact moved _ _

theorem HouseKept.warnManual (s : State) (p : Prop) [Decidable p] : HouseKept s (if p then s.warnManual else s) :=
  .ite (Steady.warnManual s).houseKept (.refl s)

theorem cutNow_kept : AnswersKept s (execCutNow s) :=
  takeRequest_kept fun _ s => .ite (.refuse _ _ _) (((HouseKept.warnManual s _).trans (.ok _ _ _)).trans (.engineMove _ _ _))

theorem resetTransition_kept : AnswersKept s (execResetTransition s) := by
  refine takeRequest_kept fun r s => ?_
  have warned (p : Prop) [Decidable p] : HouseKept s ((if p then s.warnManual else s).ok r []) :=
    (HouseKept.warnManual s _).trans (.ok _ _ _)
  exact .ite ((warned _).trans (.engine _ _)) ((warned _).trans (.engineMove _ _ _))

theorem lever_kept : AnswersKept s (execLever s) := by
  refine takeRequest_kept fun r s => ?_
  have position : clamp 0 1023 (natAt r.params 0 2) ≤ 1023 := by unfold clamp; omega
  exact (Steady.moveLever s _ position).houseKept.trans (.ok _ _ _)

theorem gpiSet_kept : AnswersKept s (execGpiSet s) := by
  refine takeRequest_kept fun r s => ?_
  split
  · exact (Steady.gpi s _).houseKept.trans (.ok _ _ _)
  · exact .refuse _ _ _

theorem setRecorder_kept : AnswersKept s (execSetRecorder s) := by
  refine takeRequest_kept fun r s => ?_
  split
  · exact .refuse _ _ _
  · exact .ite (.refuse _ _ _) (((HouseKept.link s _).trans (Steady.clearLink _ _ _).houseKept).trans (.ok _ _ _))

theorem setSilenceLimit_kept : AnswersKept s (execSetSilenceLimit s) :=
  takeRequest_kept fun _ s => .ite (.refuse _ _ _) ((HouseKept.link s _).trans (.ok _ _ _))

theorem softReset_kept : AnswersKept s (execSoftReset s) := by
  refine takeRequest_kept fun r s => ?_
  have pends := (HouseKept.ok s r []).trans (.link _
    { (s.ok r []).link with resetPending := true, input := [], okAhead := (s.ok r []).link.replies.length })
  exact .ite (pends.trans (.beginSafeStop _)) pends

end

/-- Every other command answers a next state and keeps the house time. -/
theorem exec_kept (c : Instr) (other : setsHouse c = false) (s : State) : AnswersKept s (exec c s) := by
  have report (k : Byte) (v : State → List Val) : AnswersKept s (takeRequest k s fun r s => s.ok r (v s)) :=
    takeRequest_kept fun _ _ => .ok _ _ _
  unfold exec
  cases c with
  | powerOn | resetLineRelease | framePulse | linePulse | noPulseTimeout | latePulseTimeout | timerLineStep
  | houseClockFrameStart | setHouseTime | setFormat => exact absurd other (by simp [setsHouse])
  | resetLineAssert => exact ⟨_, rfl, rfl, rfl, rfl, rfl, rfl⟩
  | softResetEffect t => exact softResetEffect_kept s t
  | tcTransition d t => exact timed_kept fun s => (Steady.transition s d t).houseKept
  | bitSyncTimeout d t => exact bitSyncTimeout_kept s d t
  | readerFrameTests d => exact running_kept fun s => .ite (Steady.readerStep s d).houseKept (.refl s)
  | stillCountReached d => exact running_kept fun s => .ite (Steady.readerStep s d).houseKept (.refl s)
  | commandSent d t => exact commandSent_kept s d t
  | replyTimeout d t => exact replyTimeout_kept s d t
  | deckReplyReceived d cs t => exact timed_kept fun s => (Steady.portBytes s d t cs).houseKept
  | deckGapTimeout d t => exact deckGapTimeout_kept s d t
  | recoveryQuiet d t => exact recoveryQuiet_kept s d t
  | lateReplyReceived d cs t => exact timed_kept fun s => (Steady.portBytes s d t cs).houseKept
  | strayFrameReceived d cs t => exact timed_kept fun s => (Steady.portBytes s d t cs).houseKept
  | attachTimer d t => exact attachTimer_kept s d t
  | deckPortFrameStart d => exact deckPortFrameStart_kept s d
  | chaseSample d => exact running_kept fun s => .ite (Steady.sample s d).houseKept (.refl s)
  | rollCountExpired d => exact running_kept fun s => .ite (Steady.sample s d).houseKept (.refl s)
  | sequencerFrameStart => exact running_kept fun s => .ite (Steady.seqStep s).houseKept (.refl s)
  | cueTimeout => exact running_kept fun s => (Steady.timeoutStep s _).houseKept
  | rollTimeout => exact running_kept fun s => (Steady.timeoutStep s _).houseKept
  | outTimeout => exact running_kept fun s => (Steady.timeoutStep s _).houseKept
  | postrollTimeout => exact running_kept fun s => .ite (Steady.seqStep s).houseKept (.refl s)
  | transitionFieldStart => exact transitionFieldStart_kept s
  | mixerFieldStart => exact mixerFieldStart_kept s
  | mixerSendLine => exact mixerSendLine_kept s
  | gpiFrameStart => exact running_kept fun s => .ite (Steady.gpiFrame s).houseKept (.refl s)
  | gpiLineFire => exact gpiLineFire_kept s
  | gpiPulseEnd o => exact running_kept fun s => .ite (Steady.gpi s _).houseKept (.refl s)
  | frameReceived bs t => exact timed_kept fun s => .foldl _ (HouseKept.linkByte t) _ _
  | linkGapTimeout t => exact linkGapTimeout_kept s t
  | unknownRequest => exact unknownRequest_kept s
  | outboundSend => exact outboundSend_kept s
  | silenceTimeout t => exact silenceTimeout_kept s t
  | getReference => exact report 0x01 _
  | setReaderParams => exact takeRequest_kept fun _ s => (HouseKept.set s _).trans (.ok _ _ _)
  | getReader => exact getReader_kept s
  | deckCommand => exact deckCommand_kept s
  | getDeck => exact getDeck_kept s
  | setPortEnable => exact setPortEnable_kept s
  | setServoParams => exact setServoParams_kept s
  | setChase => exact setChase_kept s
  | clearChase => exact clearChase_kept s
  | getChase => exact getChase_kept s
  | setLoadWindow => exact takeRequest_kept fun _ s => .ite ((HouseKept.list s _).trans (.ok _ _ _)) (.refuse _ _ _)
  | loadEvents => exact takeRequest_kept fun _ s => .load s _ _
  | loadContinue => exact takeRequest_kept fun _ s => .load s _ _
  | readEvent => exact readEvent_kept s
  | deleteEvents => exact takeRequest_kept fun _ s => .ite ((HouseKept.list s _).trans (.ok _ _ _)) (.refuse _ _ _)
  | clearList => exact takeRequest_kept fun _ s => .ite (.refuse _ _ _) ((HouseKept.list s _).trans (.ok _ _ _))
  | resetStatus => exact takeRequest_kept fun _ s => .ite ((HouseKept.list s _).trans (.ok _ _ _)) (.refuse _ _ _)
  | setEditTimes => exact takeRequest_kept fun _ s => (HouseKept.set s _).trans (.ok _ _ _)
  | executeEvent => exact executeEvent_kept s
  | abortEdit =>
    exact takeRequest_kept fun _ _ => .ite (.refuse _ _ _) ((HouseKept.ok _ _ _).trans (Steady.abort _ _).houseKept)
  | allStop => exact allStop_kept s
  | getEdit => exact report 0x2C _
  | startRun => exact startRun_kept s
  | continueRun => exact continueRun_kept s
  | skipEvent => exact skipEvent_kept s
  | pauseRun => exact pauseRun_kept s
  | stopRun => exact stopRun_kept s
  | getRun => exact report 0x35 fun s => s.run.report
  | setRouting => exact takeRequest_kept fun _ s => (HouseKept.engine s _).trans (.ok _ _ _)
  | prepareTransition => exact prepareTransition_kept s
  | autoTake => exact autoTake_kept s
  | cutNow => exact cutNow_kept s
  | resetTransition => exact resetTransition_kept s
  | lever => exact lever_kept s
  | getTransition => exact report 0x3E _
  | setMixerSendLine => exact takeRequest_kept fun _ s => (HouseKept.ok _ _ _).after ⟨rfl, rfl, rfl, rfl, rfl⟩
  | gpiSet => exact gpiSet_kept s
  | getGpi => exact report 0x41 _
  | setRecorder => exact setRecorder_kept s
  | setNoticeMask => exact takeRequest_kept fun _ s => (HouseKept.link s _).trans (.ok _ _ _)
  | setSilenceLimit => exact setSilenceLimit_kept s
  | softReset => exact softReset_kept s
  | getLinkStatus => exact report 0x4D _

end Sys2Proof.Laws

/-! ## The reference unit and the house clock, case by case (R18 to R27) -/

namespace Sys2Proof.Machine

theorem SuiteFormat.dayLen_pos (f : SuiteFormat) : 0 < f.dayLen := by cases f <;> decide

theorem SuiteFormat.addFrames_cast (f : SuiteFormat) (n : Nat) (z : Int) : (f.addFrames n z : Int) = (n + z) % f.dayLen :=
  Int.toNat_of_nonneg (Int.emod_nonneg _ (by exact_mod_cast f.dayLen_pos.ne'))

theorem SuiteFormat.addFrames_lt (f : SuiteFormat) (n : Nat) (z : Int) : f.addFrames n z < f.dayLen := by
  have below : (f.addFrames n z : Int) < f.dayLen :=
    f.addFrames_cast n z ▸ Int.emod_lt_of_pos _ (by exact_mod_cast f.dayLen_pos)
  exact_mod_cast below

theorem SuiteFormat.addFrames_nat (f : SuiteFormat) (n k : Nat) : f.addFrames n k = (n + k) % f.dayLen := by
  have cast := f.addFrames_cast n k
  exact_mod_cast cast

/-- The frames from a frame n + z of the day on to a frame p. -/
theorem SuiteFormat.addFrames_neg (f : SuiteFormat) (p n : Nat) (z : Int) :
    f.addFrames p (-(f.addFrames n z : Int)) = (((p : Int) - (n + z)) % f.dayLen).toNat := by
  rw [addFrames, addFrames_cast, ← sub_eq_add_neg, Int.sub_emod_emod]

section
variable (s : State) (t : Time) (c : AbsentCause)

/-- The next line of the frame; after the last line of field 1 it is a field 2 start. -/
theorem State.nextLine_eq : s.nextLine = { s with
    ref := { s.ref with line := s.ref.line + 1 }
    due := if s.ref.line = s.fmt.field1Last then s.due.field2Start s.ref.frame else s.due } := by
  unfold State.nextLine
  simp only [SuiteFormat.firstLine, if_true, Nat.add_right_cancel_iff]
  split <;> rfl

/-- ABSENT after LOCKED. -/
def State.absentFromLocked : State :=
  (({ s with ref := { s.ref with st := .absent, stepAt := max s.ref.stepAt (exact t - s.fmt.linePeriod) } } : State).enter
    .referenceState 0 (refContent .absent (some c) none none)).refLost

/-- ABSENT after ACQUIRING. -/
def State.absentFromAcquiring : State :=
  ({ s with ref := { s.ref with st := .absent, good := 0 } } : State).enter .referenceState 0
    (refContent .absent (some c) none none)

variable {s t c}

theorem State.goAbsent_locked (locked : s.ref.st = .locked) : s.goAbsent t c = s.absentFromLocked t c := by
  simp [State.goAbsent, State.absentFromLocked, locked]

theorem State.goAbsent_acquiring (acquiring : s.ref.st = .acquiring) : s.goAbsent t c = s.absentFromAcquiring c := by
  simp [State.goAbsent, State.absentFromAcquiring, acquiring]

/-! ### A line pulse -/

theorem State.takeLine_absent (absent : s.ref.st = .absent) :
    s.takeLine t = { s with ref := { s.ref with lineCount := s.ref.lineCount + 1 } } := by
  simp only [State.takeLine, absent]

theorem State.takeLine_unopened (acquiring : s.ref.st = .acquiring) (unopened : s.ref.lineCount = 0) : s.takeLine t = s := by
  simp only [State.takeLine, acquiring, if_pos unopened]

theorem State.takeLine_acquiring (acquiring : s.ref.st = .acquiring) (opened : 0 < s.ref.lineCount)
    (fits : s.ref.lineCount + 1 ≤ s.fmt.lpf) :
    s.takeLine t = { s with ref := { s.ref with lineCount := s.ref.lineCount + 1 } } := by
  simp only [State.takeLine, acquiring, if_neg opened.ne', if_neg fits.not_gt]

theorem State.takeLine_acquiring_over (acquiring : s.ref.st = .acquiring) (opened : 0 < s.ref.lineCount)
    (past : s.fmt.lpf < s.ref.lineCount + 1) : s.takeLine t = s.absentFromAcquiring .lineCount := by
  simp only [State.takeLine, acquiring, if_neg opened.ne', if_pos past, State.goAbsent_acquiring]

theorem State.takeLine_locked (locked : s.ref.st = .locked) (fits : s.ref.lineCount + 1 ≤ s.fmt.lpf) :
    s.takeLine t = { s with
      ref := { s.ref with line := s.ref.line + 1, lineCount := s.ref.lineCount + 1, stepAt := exact t }
      due := if s.ref.line = s.fmt.field1Last then s.due.field2Start s.ref.frame else s.due } := by
  simp only [State.takeLine, locked, if_neg fits.not_gt, State.nextLine_eq]

theorem State.takeLine_locked_over (locked : s.ref.st = .locked) (past : s.fmt.lpf < s.ref.lineCount + 1) :
    s.takeLine t = s.absentFromLocked t .lineCount := by
  simp only [State.takeLine, locked, if_pos past, State.goAbsent_locked]

/-! ### A frame pulse -/

/-- The frame that a frame pulse at t opens. -/
def RefUnit.opened (r : RefUnit) (t : Time) : RefUnit := { r with lineCount := 1, pulseAt := t }

theorem State.takeFrame_absent (absent : s.ref.st = .absent) :
    s.takeFrame t = ({ s with ref := { s.ref.opened t with st := .acquiring, good := 0 } } : State).enter .referenceState 0
      (refContent .acquiring none none (some .pulse)) := by
  simp only [State.takeFrame, absent]
  rfl

theorem State.takeFrame_unopened (acquiring : s.ref.st = .acquiring) (unopened : s.ref.lineCount = 0) :
    s.takeFrame t = { s with ref := s.ref.opened t } := by
  simp only [State.takeFrame, acquiring, if_pos unopened]
  rfl

theorem State.takeFrame_acquiring (acquiring : s.ref.st = .acquiring) (whole : s.ref.lineCount = s.fmt.lpf)
    (few : s.ref.good < 3) : s.takeFrame t = { s with ref := { s.ref.opened t with good := s.ref.good + 1 } } := by
  have opened : s.ref.lineCount ≠ 0 := whole ▸ s.fmt.lpf_pos.ne'
  have notFourth : s.ref.good + 1 < 4 := by omega
  simp only [State.takeFrame, acquiring, if_neg opened, if_pos whole]
  exact if_pos notFourth

theorem State.takeFrame_lock {n : Nat} (acquiring : s.ref.st = .acquiring) (whole : s.ref.lineCount = s.fmt.lpf)
    (good : s.ref.good + 1 = n) (enough : 4 ≤ n) :
    s.takeFrame t = ({ s with ref := { s.ref.opened t with good := n } } : State).lock t := by
  subst good
  have opened : s.ref.lineCount ≠ 0 := whole ▸ s.fmt.lpf_pos.ne'
  have fourth : ¬s.ref.good + 1 < 4 := by omega
  simp only [State.takeFrame, acquiring, if_neg opened, if_pos whole]
  exact if_neg fourth

theorem State.takeFrame_acquiring_broken (acquiring : s.ref.st = .acquiring) (opened : s.ref.lineCount ≠ 0)
    (broken : s.ref.lineCount ≠ s.fmt.lpf) :
    s.takeFrame t = ({ s with ref := s.ref.opened t } : State).absentFromAcquiring .lineCount := by
  simp only [State.takeFrame, acquiring, if_neg opened, if_neg broken]
  exact State.goAbsent_acquiring acquiring

theorem State.takeFrame_locked (locked : s.ref.st = .locked) (whole : s.ref.lineCount = s.fmt.lpf) :
    s.takeFrame t = { s with
      ref := { s.ref.opened t with
        line := 1, frame := s.fmt.addFrames s.ref.frame 1, stepAt := exact t, timerFrom := exact t }
      due := s.due.frameStart (s.fmt.addFrames s.ref.frame 1) } := by
  simp only [State.takeFrame, locked, if_pos whole]
  rfl

theorem State.takeFrame_locked_broken (locked : s.ref.st = .locked) (broken : s.ref.lineCount ≠ s.fmt.lpf) :
    s.takeFrame t = ({ s with ref := s.ref.opened t } : State).absentFromLocked t .lineCount := by
  simp only [State.takeFrame, locked, if_neg broken]
  exact State.goAbsent_locked locked

/-- The lock in field 1: back to line 1 of the frame. -/
theorem State.lock_field1 (field1 : s.fmt.inField2 s.ref.line = false) :
    s.lock t = ({ s with ref := { s.ref with st := .locked, line := 1, stepAt := exact t, timerFrom := exact t } } :
      State).enter .referenceState 0 (refContent .locked none (some (1 - (s.ref.line : Int))) none) := by
  simp [State.lock, realignJump, field1]

/-- The lock in field 2: on to line 1 of the next frame. -/
theorem State.lock_field2 (field2 : s.fmt.inField2 s.ref.line = true) :
    s.lock t = ({ s with
      ref := { s.ref with
        st := .locked, line := 1, frame := s.fmt.addFrames s.ref.frame 1, stepAt := exact t, timerFrom := exact t }
      due := s.due.frameStart (s.fmt.addFrames s.ref.frame 1) } : State).enter .referenceState 0
        (refContent .locked none (some ((s.fmt.lpf : Int) - s.ref.line + 1)) none) := by
  simp [State.lock, realignJump, field2, State.frameStart]

/-! ### The frame timer -/

theorem State.timerStep_within (within : s.ref.line < s.fmt.lpf) :
    s.timerStep = { s with
      ref := { s.ref with line := s.ref.line + 1, stepAt := s.ref.stepAt + s.fmt.linePeriod }
      due := if s.ref.line = s.fmt.field1Last then s.due.field2Start s.ref.frame else s.due } := by
  simp only [State.timerStep, if_pos within, State.nextLine_eq]

theorem State.timerStep_last (last : ¬s.ref.line < s.fmt.lpf) :
    s.timerStep = { s with
      ref := { s.ref with
        line := 1, frame := s.fmt.addFrames s.ref.frame 1, stepAt := s.ref.stepAt + s.fmt.linePeriod
        timerFrom := s.ref.stepAt + s.fmt.linePeriod }
      due := s.due.frameStart (s.fmt.addFrames s.ref.frame 1) } := by
  simp only [State.timerStep, if_neg last]
  rfl

/-! ### The house clock -/

theorem State.clockStep_running (none : s.clock.preset = none) :
    s.clockStep = { s with
      clock := { s.clock with frame := (s.clock.frame + 1) % s.fmt.dayLen }
      due := { s.due with clock := s.due.clock - 1 } } := by
  simp only [State.clockStep, none]
  rw [← SuiteFormat.addFrames_nat]
  rfl

theorem State.clockStep_preset {p : Nat} (held : s.clock.preset = some p) :
    s.clockStep = { s with
      clock :=
        { frame := p, offset := (((p : Int) - (s.ref.frame + 1 - s.due.clock)) % s.fmt.dayLen).toNat, preset := none }
      due := { s.due with clock := s.due.clock - 1 } } := by
  simp only [State.clockStep, held, State.startFrame, SuiteFormat.addFrames_neg, add_sub_assoc]

end

end Sys2Proof.Machine

/-! ## The house time stays consistent (R2, R21, section 2.7) -/

namespace Sys2Proof.Laws

open Sys2Proof.Machine Sys2Proof.Safety

/-- The move from s to t keeps the house time consistent, and leaves the waiting commands. -/
structure HouseStays (s t : State) : Prop where
  house   : HouseOk s → ClockOk s → HouseOk t ∧ ClockOk t
  pending : t.pending = s.pending

theorem HouseKept.stays {s t : State} (h : HouseKept s t) : HouseStays s t := by
  obtain ⟨fmt, ref, clock, owed, pending⟩ := h
  refine ⟨fun house time => ?_, pending⟩
  simp only [HouseOk, ClockOk, fmt, ref, clock, owed]
  exact ⟨house, time⟩

/-- A due record with the same frame starts owed to the clock as another. -/
theorem field2Start_clock (p : Prop) [Decidable p] (x : Due) (n : Nat) :
    (if p then x.field2Start n else x).clock = x.clock := by split <;> rfl

namespace HouseStays

theorem trans {s t u : State} (a : HouseStays s t) (b : HouseStays t u) : HouseStays s u :=
  ⟨fun house time => (a.house house time).elim b.house, b.pending.trans a.pending⟩

/-- `trans` with the later move first, so that the state between is known when the earlier one is checked. -/
theorem after {s t u : State} (b : HouseStays t u) (a : HouseStays s t) : HouseStays s u := a.trans b

/-- A reference unit outside LOCKED with house line and reference frame as they were. -/
theorem unlocked (s : State) (r : RefUnit) (line : r.line = s.ref.line) (frame : r.frame = s.ref.frame)
    (left : r.st ≠ .locked) : HouseStays s { s with ref := r } := by
  refine ⟨fun house time => ?_, rfl⟩
  obtain ⟨first, last, day, -⟩ := house
  simp only [HouseOk, ClockOk, line, frame]
  exact ⟨⟨first, last, day, fun locked => absurd locked left⟩, time⟩

theorem enter (s : State) (c : List Val) : HouseStays s (s.enter .referenceState 0 c) :=
  (Steady.enter _ _ _ _ (by decide)).houseKept.stays

theorem absentFromLocked (s : State) (r : RefUnit) (line : r.line = s.ref.line) (frame : r.frame = s.ref.frame) (t : Time)
    (c : AbsentCause) : HouseStays s (({ s with ref := r } : State).absentFromLocked t c) := by
  unfold State.absentFromLocked State.refLost
  exact after (Steady.warn _ _).houseKept.stays (after (enter _ _) (unlocked s _ line frame (by simp)))

theorem absentFromAcquiring (s : State) (r : RefUnit) (line : r.line = s.ref.line) (frame : r.frame = s.ref.frame)
    (c : AbsentCause) : HouseStays s (({ s with ref := r } : State).absentFromAcquiring c) :=
  after (enter _ _) (unlocked s _ line frame (by simp))

/-- A frame start: the reference frame and the frame starts owed to the clock rise by one. -/
theorem frameStart (s : State) (r : RefUnit) (line : r.line = 1) (frame : r.frame = s.fmt.addFrames s.ref.frame 1)
    (count : r.st = .locked → r.lineCount = 1) :
    HouseStays s { s with ref := r, due := s.due.frameStart (s.fmt.addFrames s.ref.frame 1) } := by
  refine ⟨fun house time => ?_, rfl⟩
  obtain ⟨inDay, offset, preset, sum⟩ := time
  simp only [HouseOk, ClockOk, line, frame, Due.frameStart]
  refine ⟨⟨le_rfl, s.fmt.lpf_pos, s.fmt.addFrames_lt _ _, count⟩, inDay, offset, preset, ?_⟩
  have next : (s.clock.frame + s.due.clock + 1) % s.fmt.dayLen = (s.ref.frame + s.clock.offset + 1) % s.fmt.dayLen :=
    Nat.ModEq.add_right 1 sum
  rw [show (1 : Int) = (1 : Nat) from rfl, SuiteFormat.addFrames_nat, Nat.mod_add_mod, ← Nat.add_assoc, next]
  congr 1
  omega

/-- The next line of the frame, with the line count in step with it in LOCKED. -/
theorem lineStep (s : State) (r : RefUnit) (line : r.line = s.ref.line + 1) (fits : s.ref.line < s.fmt.lpf)
    (frame : r.frame = s.ref.frame) (count : HouseOk s → r.st = .locked → r.lineCount = r.line) :
    HouseStays s { s with
      ref := r, due := if s.ref.line = s.fmt.field1Last then s.due.field2Start s.ref.frame else s.due } := by
  refine ⟨fun house time => ?_, rfl⟩
  have ⟨_, _, day, _⟩ := house
  simp only [HouseOk, ClockOk, field2Start_clock]
  rw [frame]
  exact ⟨⟨by omega, by omega, day, count house⟩, time⟩

theorem takeLine (s : State) (t : Time) : HouseStays s (s.takeLine t) := by
  cases st : s.ref.st with
  | absent =>
    rw [State.takeLine_absent st]
    exact unlocked s _ rfl rfl (by simp [st])
  | acquiring =>
    rcases Nat.eq_zero_or_pos s.ref.lineCount with unopened | opened
    · rw [State.takeLine_unopened st unopened]
      exact (HouseKept.refl s).stays
    · rcases Nat.lt_or_ge s.fmt.lpf (s.ref.lineCount + 1) with past | fits
      · rw [State.takeLine_acquiring_over st opened past]
        exact absentFromAcquiring s s.ref rfl rfl _
      · rw [State.takeLine_acquiring st opened fits]
        exact unlocked s _ rfl rfl (by simp [st])
  | locked =>
    rcases Nat.lt_or_ge s.fmt.lpf (s.ref.lineCount + 1) with past | fits
    · rw [State.takeLine_locked_over st past]
      exact absentFromLocked s s.ref rfl rfl _ _
    · rw [State.takeLine_locked st fits]
      refine ⟨fun house time => ?_, rfl⟩
      have ⟨_, _, _, together⟩ := house
      have inStep := together st
      exact (lineStep s { s.ref with line := s.ref.line + 1, lineCount := s.ref.lineCount + 1, stepAt := exact t } rfl
        (by omega) rfl fun _ _ => congrArg (· + 1) inStep).house house time

theorem lock (s : State) (t : Time) (good : Nat) : HouseStays s (({ s with
    ref := { s.ref.opened t with good := good } } : State).lock t) := by
  cases field : s.fmt.inField2 s.ref.line with
  | false =>
    rw [State.lock_field1 (by exact field)]
    refine after (enter _ _) ⟨fun house time => ?_, rfl⟩
    obtain ⟨-, -, day, -⟩ := house
    exact ⟨⟨le_rfl, s.fmt.lpf_pos, day, fun _ => rfl⟩, time⟩
  | true =>
    rw [State.lock_field2 (by exact field)]
    exact after (enter _ _) (frameStart s _ rfl rfl fun _ => rfl)

theorem takeFrame (s : State) (t : Time) : HouseStays s (s.takeFrame t) := by
  cases st : s.ref.st with
  | absent =>
    rw [State.takeFrame_absent st]
    exact after (enter _ _) (unlocked s _ rfl rfl (by simp))
  | acquiring =>
    by_cases unopened : s.ref.lineCount = 0
    · rw [State.takeFrame_unopened st unopened]
      exact unlocked s _ rfl rfl (by simp [RefUnit.opened, st])
    · by_cases whole : s.ref.lineCount = s.fmt.lpf
      · rcases Nat.lt_or_ge s.ref.good 3 with few | enough
        · rw [State.takeFrame_acquiring st whole few]
          exact unlocked s _ rfl rfl (by simp [RefUnit.opened, st])
        · rw [State.takeFrame_lock st whole rfl (by omega)]
          exact lock s t _
      · rw [State.takeFrame_acquiring_broken st unopened whole]
        exact absentFromAcquiring s (s.ref.opened t) rfl rfl _
  | locked =>
    by_cases whole : s.ref.lineCount = s.fmt.lpf
    · rw [State.takeFrame_locked st whole]
      exact frameStart s _ rfl rfl fun _ => rfl
    · rw [State.takeFrame_locked_broken st whole]
      exact absentFromLocked s (s.ref.opened t) rfl rfl _ _

theorem timerStep (s : State) (free : s.ref.st ≠ .locked) : HouseStays s s.timerStep := by
  by_cases within : s.ref.line < s.fmt.lpf
  · rw [State.timerStep_within within]
    exact lineStep s _ rfl within rfl fun _ locked => absurd locked free
  · rw [State.timerStep_last within]
    exact frameStart s _ rfl rfl fun locked => absurd locked free

/-- The clock takes a frame start: its frame and offset then agree with one frame start less owed. -/
theorem clockStep (s : State) (owed : 0 < s.due.clock) : HouseStays s s.clockStep := by
  refine ⟨fun house time => ?_, rfl⟩
  obtain ⟨inDay, offset, preset, sum⟩ := time
  cases held : s.clock.preset with
  | none =>
    rw [State.clockStep_running held]
    refine ⟨house, Nat.mod_lt _ s.fmt.dayLen_pos, offset, preset, ?_⟩
    dsimp only
    rw [Nat.mod_add_mod, ← sum]
    congr 1
    omega
  | some p =>
    rw [State.clockStep_preset held]
    have legal : p < s.fmt.dayLen := by simpa [held] using preset
    refine ⟨house, legal, ?_, rfl, ?_⟩
    all_goals
      dsimp only
      cases f : s.fmt <;> simp only [SuiteFormat.dayLen] <;> omega

end HouseStays

/-! ### The commands that set the house time -/

/-- A command's outcome is a next state that keeps the house time consistent. -/
def AnswersStay (s : State) (o : Host.Outcome State Fault Refusal) : Prop := ∃ t, o = .next t ∧ HouseStays s t

section
variable {s : State}

theorem running_stays {f : State → State} (h : ∀ s, HouseStays s (f s)) : AnswersStay s (running s f) := by
  refine ⟨_, rfl, ?_⟩
  split
  · exact (HouseKept.refl s).stays
  · exact h s

theorem timed_stays {t : Time} {f : State → State} (h : ∀ s, HouseStays s (f s)) : AnswersStay s (timed s t f) :=
  running_stays fun s => HouseStays.after (h (s.tick t)) (HouseKept.stays ⟨rfl, rfl, rfl, rfl, rfl⟩)

theorem takeRequest_stays {k : Byte} {f : Request → State → State} (h : ∀ r s, HouseStays s (f r s)) :
    AnswersStay s (takeRequest k s f) := by
  refine running_stays fun s => ?_
  have dropped : HouseStays s s.dropHead := (HouseKept.link s _).stays
  split
  · split
    · dsimp only
      split
      · exact dropped.trans (h _ _)
      · exact dropped.trans (HouseKept.refuse _ _ _).stays
    · exact (HouseKept.refl s).stays
  · exact (HouseKept.refl s).stays

end

theorem goAbsent_stays (s : State) (t : Time) (c : AbsentCause) (up : s.ref.st ≠ .absent) : HouseStays s (s.goAbsent t c) := by
  cases st : s.ref.st with
  | absent => exact absurd st up
  | acquiring =>
    rw [State.goAbsent_acquiring st]
    exact .absentFromAcquiring s s.ref rfl rfl c
  | locked =>
    rw [State.goAbsent_locked st]
    exact .absentFromLocked s s.ref rfl rfl t c

/-- House time and clock at their reset values, in any format (Table 2-3). -/
theorem restart_consistent {t : State} {at' : Time} (ref : t.ref = RefUnit.restart at') (clock : t.clock = HouseClock.initial)
    (owed : t.due.clock = 0) : HouseOk t ∧ ClockOk t := by
  simp only [HouseOk, ClockOk, ref, clock, owed, RefUnit.restart, HouseClock.initial]
  exact ⟨⟨le_rfl, t.fmt.lpf_pos, t.fmt.dayLen_pos, by simp⟩, t.fmt.dayLen_pos, t.fmt.dayLen_pos, rfl, trivial⟩

theorem powerOn_stays (s : State) : AnswersStay s (execPowerOn s) :=
  ⟨_, rfl, fun _ _ => restart_consistent rfl rfl rfl, rfl⟩

theorem resetLineRelease_stays (s : State) (t : Time) : AnswersStay s (execResetLineRelease t s) := by
  refine ⟨_, rfl, ?_⟩
  split
  · exact ⟨fun _ _ => restart_consistent rfl rfl rfl, rfl⟩
  · exact (HouseKept.refl s).stays

theorem framePulse_stays (s : State) (field2 : Bool) (t : Time) : AnswersStay s (execFramePulse field2 t s) := by
  refine timed_stays fun s => ?_
  split
  · exact .takeLine s t
  · exact .takeFrame s t

theorem noPulseTimeout_stays (s : State) (t : Time) : AnswersStay s (execNoPulseTimeout t s) := by
  refine timed_stays fun s => ?_
  split
  · next due => exact goAbsent_stays s t _ (by simp [due.1])
  · exact (HouseKept.refl s).stays

theorem latePulseTimeout_stays (s : State) (t : Time) : AnswersStay s (execLatePulseTimeout t s) := by
  refine timed_stays fun s => ?_
  split
  · next due => exact goAbsent_stays s t _ (by simp [due.1])
  · exact (HouseKept.refl s).stays

theorem timerLineStep_stays (s : State) (t : Time) : AnswersStay s (execTimerLineStep t s) := by
  refine timed_stays fun s => ?_
  split
  · next due => exact .timerStep s due.1
  · exact (HouseKept.refl s).stays

theorem houseClockFrameStart_stays (s : State) : AnswersStay s (execHouseClockFrameStart s) := by
  refine running_stays fun s => ?_
  split
  · next owed => exact .clockStep s owed
  · exact (HouseKept.refl s).stays

/-- A legal label's frame number is one of the day, so that it may become the house frame number. -/
theorem setHouseTime_stays (s : State) : AnswersStay s (execSetHouseTime s) := by
  refine takeRequest_stays fun r s => ?_
  dsimp only
  split
  · next legal =>
    refine HouseStays.after (HouseKept.ok _ _ _).stays ⟨fun house time => ?_, rfl⟩
    obtain ⟨inDay, offset, -, sum⟩ := time
    exact ⟨house, inDay, offset, by simpa using Label.toFrame_lt legal, sum⟩
  · exact (HouseKept.refuse _ _ _).stays

theorem setFormat_stays (s : State) : AnswersStay s (execSetFormat s) := by
  refine takeRequest_stays fun r s => ?_
  split
  · exact (HouseKept.refuse _ _ _).stays
  · split
    · exact (HouseKept.refuse _ _ _).stays
    · refine HouseStays.after (HouseKept.ok _ _ _).stays ?_
      rw [State.changeFormat_eq]
      exact ⟨fun _ _ => restart_consistent (at' := s.now) rfl rfl rfl, rfl⟩

/-- Every command answers a next state, leaves the waiting commands, and keeps the house time consistent. -/
theorem exec_stays (c : Instr) (s : State) : AnswersStay s (exec c s) := by
  by_cases sets : setsHouse c = true
  · unfold exec
    cases c with
    | powerOn => exact powerOn_stays s
    | resetLineRelease t => exact resetLineRelease_stays s t
    | framePulse field2 t => exact framePulse_stays s field2 t
    | linePulse t => exact timed_stays fun s => .takeLine s t
    | noPulseTimeout t => exact noPulseTimeout_stays s t
    | latePulseTimeout t => exact latePulseTimeout_stays s t
    | timerLineStep t => exact timerLineStep_stays s t
    | houseClockFrameStart => exact houseClockFrameStart_stays s
    | setHouseTime => exact setHouseTime_stays s
    | setFormat => exact setFormat_stays s
    | _ => exact absurd sets (by simp [setsHouse])
  · obtain ⟨t, answer, kept⟩ := exec_kept c (by simpa using sets) s
    exact ⟨t, answer, kept.stays⟩

end Sys2Proof.Laws

namespace Sys2Proof.Proofs

open Sys2Proof.Machine Sys2Proof.Safety

/-- Settles O57: a step is a command's answer, and every command keeps the house time consistent. -/
theorem houseTimeStaysConsistent : Obligations.HouseTimeStaysConsistent := by
  intro s t house time stepped
  unfold step at stepped
  split at stepped
  · obtain rfl : s = t := by simpa using stepped
    exact ⟨house, time⟩
  · next c cs _ =>
    obtain ⟨u, answer, stays⟩ := Laws.exec_stays c { s with pending := cs }
    obtain rfl : u = t := by simpa [answer] using stepped
    exact stays.house house time

end Sys2Proof.Proofs

/-! ## House reference and house clock (chapter 2) -/

namespace Sys2Proof.Machine

section
variable {s : State} {t : Time}

/-- An edit lasts from CUEING to RELEASE (R126). -/
theorem Edit.running_iff (e : Edit) : e.running = true ↔
    e.phase = .cueing ∨ e.phase = .rolling ∨ e.phase = .editing ∨ e.phase = .postroll ∨ e.phase = .release := by
  unfold Edit.running
  cases e.phase <;> decide

theorem State.refLost_warns (lasts : s.edit.running = true) (noStop : s.link.safe = none) :
    s.refLost = { s with edit := { s.edit with warns := { s.edit.warns with ref := true } } } :=
  if_pos ⟨lasts, by simp [State.safeStop, noStop]⟩

theorem State.refLost_quiet (quiet : s.edit.running = false ∨ s.link.safe.isSome = true) : s.refLost = s :=
  if_neg fun ⟨lasts, noStop⟩ => quiet.elim (by simp [lasts]) fun stop => noStop stop

/-- A warning and an entry touch different blocks. -/
theorem State.refLost_enter (k : NoticeKind) (n : Nat) (c : List Val) : (s.enter k n c).refLost = s.refLost.enter k n c := by
  by_cases lasts : s.edit.running = true ∧ s.link.safe = none
  · obtain ⟨running, noStop⟩ := lasts
    rw [refLost_warns running noStop, refLost_warns]
    · simp only [State.enter_eq]
      rfl
    · simpa only [State.enter_eq]
    · simpa only [State.enter_eq]
  · have quiet : s.edit.running = false ∨ s.link.safe.isSome = true := by
      simpa [Option.isSome_iff_ne_none, imp_iff_not_or] using lasts
    rw [refLost_quiet quiet, refLost_quiet]
    simpa only [State.enter_eq]

variable (up : s.asserted = false)
include up

/-! ### The rows of the reference unit in operation -/

theorem exec_framePulse_field1 : exec (.framePulse false t) s = .next ((s.tick t).takeFrame t) :=
  Laws.timed_next s t (·.takeFrame t) up

theorem exec_linePulse : exec (.linePulse t) s = .next ((s.tick t).takeLine t) :=
  Laws.timed_next s t (·.takeLine t) up

theorem exec_noPulseTimeout (acquiring : s.ref.st = .acquiring)
    (late : exact s.ref.pulseAt + 3 * s.fmt.framePeriod ≤ exact t) : exec (.noPulseTimeout t) s = .next ((s.tick t).absentFromAcquiring .noPulse) := by
  refine (Laws.timed_next s t _ up).trans (congrArg Host.Outcome.next ?_)
  exact (if_pos ⟨acquiring, late⟩).trans (State.goAbsent_acquiring acquiring)

theorem exec_latePulseTimeout (locked : s.ref.st = .locked)
    (late : s.ref.timerFrom + s.fmt.framePeriod + s.fmt.linePeriod ≤ exact t) :
    exec (.latePulseTimeout t) s = .next ((s.tick t).absentFromLocked t .latePulse) := by
  refine (Laws.timed_next s t _ up).trans (congrArg Host.Outcome.next ?_)
  exact (if_pos ⟨locked, late⟩).trans (State.goAbsent_locked locked)

theorem exec_timerLineStep (free : s.ref.st ≠ .locked) (due : s.ref.stepAt + s.fmt.linePeriod ≤ exact t) :
    exec (.timerLineStep t) s = .next (s.tick t).timerStep :=
  (Laws.timed_next s t _ up).trans (congrArg Host.Outcome.next (if_pos ⟨free, due⟩))

theorem exec_houseClockFrameStart (owed : 0 < s.due.clock) : exec .houseClockFrameStart s = .next s.clockStep :=
  (Laws.running_next s _ up).trans (congrArg Host.Outcome.next (if_pos owed))

end

end Sys2Proof.Machine

namespace Sys2Proof.Proofs

open Sys2Proof.Machine Sys2Proof.Safety

/-- Settles O8: each clause is the case of `State.takeFrame` that its reference state and line count name. -/
theorem framePulsesByState : Obligations.FramePulsesByState := by
  refine ⟨fun s t up locked => ?locked, fun s t up => ?unlocked, fun s t up acquiring whole good => ?fourth⟩
  case locked =>
    intro n
    rw [exec_framePulse_field1 up]
    exact ⟨fun whole => congrArg _ (State.takeFrame_locked (s := s.tick t) locked whole),
      fun broken => congrArg _ (State.takeFrame_locked_broken (s := s.tick t) locked broken)⟩
  case unlocked =>
    rw [exec_framePulse_field1 up]
    exact ⟨fun absent => congrArg _ (State.takeFrame_absent (s := s.tick t) absent),
      fun acquiring unopened => congrArg _ (State.takeFrame_unopened (s := s.tick t) acquiring unopened),
      fun acquiring whole few => congrArg _ (State.takeFrame_acquiring (s := s.tick t) acquiring whole few),
      fun acquiring opened broken => congrArg _ (State.takeFrame_acquiring_broken (s := s.tick t) acquiring opened broken)⟩
  case fourth =>
    intro n r
    have locks := State.takeFrame_lock (s := s.tick t) (t := t) acquiring whole (congrArg (· + 1) good) le_rfl
    rw [exec_framePulse_field1 up, locks]
    exact ⟨fun field1 => congrArg _ (State.lock_field1 field1), fun field2 => congrArg _ (State.lock_field2 field2)⟩

/-- Settles O9: each clause is the case of `State.takeLine` that its reference state and line count name. -/
theorem linePulses : Obligations.LinePulses := by
  intro s t up
  refine ⟨rfl, ?_⟩
  rw [exec_linePulse up]
  exact ⟨fun locked fits => congrArg _ (State.takeLine_locked (s := s.tick t) locked fits),
    fun locked past => congrArg _ (State.takeLine_locked_over (s := s.tick t) locked past),
    fun acquiring opened fits => congrArg _ (State.takeLine_acquiring (s := s.tick t) acquiring opened fits),
    fun acquiring opened past => congrArg _ (State.takeLine_acquiring_over (s := s.tick t) acquiring opened past),
    fun acquiring unopened => congrArg _ (State.takeLine_unopened (s := s.tick t) acquiring unopened),
    fun absent => congrArg _ (State.takeLine_absent (s := s.tick t) absent)⟩

/-- Settles O10: a due row of a missing pulse goes to ABSENT with the warning of an edit that lasts, a due timer step is
the case of `State.timerStep` that the house line names. -/
theorem missingPulsesAndTimerSteps : Obligations.MissingPulsesAndTimerSteps := by
  refine ⟨fun s => ?warning, fun s t up => ⟨fun acquiring late => exec_noPulseTimeout up acquiring late,
    fun locked late => ?latePulse⟩, fun s t up free => ?timer⟩
  case warning =>
    intro e lasts
    have running : e.running = true ↔ lasts := e.running_iff
    refine ⟨fun inEdit noStop => State.refLost_warns (running.mpr inEdit) noStop, fun quiet => State.refLost_quiet ?_⟩
    exact quiet.imp_left fun outside => Bool.eq_false_iff.mpr (mt running.mp outside)
  case latePulse =>
    intro e
    refine (exec_latePulseTimeout up locked late).trans (congrArg Host.Outcome.next ?_)
    rw [State.absentFromLocked, State.refLost_enter]
    split
    · next inEdit => exact congrArg (State.enter · _ _ _) (State.refLost_warns (e.running_iff.mpr inEdit.1) inEdit.2)
    · next outside =>
      rw [State.refLost_quiet]
      · rfl
      · rw [← e.running_iff] at outside
        simpa [Option.isSome_iff_ne_none, imp_iff_not_or] using outside
  case timer =>
    intro at' n due
    rw [exec_timerLineStep up free due]
    exact ⟨fun within => congrArg _ (State.timerStep_within (s := s.tick t) within),
      fun last => congrArg _ (State.timerStep_last (s := s.tick t) last.not_lt)⟩

/-- Settles O11: the clock's step by its preset, and the request by its label. -/
theorem houseClockAndItsPreset : Obligations.HouseClockAndItsPreset := by
  refine ⟨fun s up owed => ?step, fun s r taken => ?request⟩
  case step =>
    rw [exec_houseClockFrameStart up owed]
    exact ⟨fun none => congrArg _ (State.clockStep_running none), fun p held => congrArg _ (State.clockStep_preset held)⟩
  case request =>
    intro l
    rw [show exec .setHouseTime s = execSetHouseTime s from rfl, execSetHouseTime, Laws.takeRequest_takes s r 0x02 _ taken]
    refine ⟨fun legal => ?_, fun illegal => ?_⟩
    · have label : [Val.raw l.bytes] = [Val.lab (l.toFrame s.fmt)].map (Val.fix s.fmt) := by
        simp [Val.fix, Label.ofFrame_toFrame legal]
      rw [label, ← Laws.ok_dropHead]
      exact congrArg _ (if_pos legal)
    · rw [← Laws.refuse_dropHead]
      exact congrArg _ (if_neg (Bool.eq_false_iff.mp illegal))

/-- Settles O4: the reset values are those of each block's tables, the same for every deck. -/
theorem powerOnValues : Obligations.PowerOnValues := by
  refine ⟨fun _ => rfl, rfl, rfl, rfl, rfl, rfl, rfl, rfl, fun d => ?readers, fun d => ?ports, fun d => ?channels, rfl, rfl, rfl,
    rfl, rfl, rfl, by decide, rfl, rfl⟩
  all_goals exact Vector.getElem_replicate _

/-- Settles O60: the invariants at the values of power-on. -/
theorem resetMeetsTheInvariants : Obligations.ResetMeetsTheInvariants := by
  refine ⟨by decide, by decide, by decide, by decide, ?engine, by decide, by decide, ?ports, by decide⟩
  case engine => exact ⟨by decide, by decide, by decide, trivial, by decide, by decide⟩
  case ports => decide

end Sys2Proof.Proofs

/-! ## Rows without effect (R175, R185; logs 3, 5, 7, 9, 10, 11) -/

namespace Sys2Proof.Machine

/-- In operation a timed row whose effect changes nothing moves the crystal time alone. -/
theorem timed_waits {s : State} {t : Time} {f : State → State} (up : s.asserted = false) (none : f (s.tick t) = s.tick t) :
    timed s t f = .next (s.tick t) := by
  rw [Laws.timed_next s t f up, none]

/-- In operation a row whose effect changes nothing leaves the state. -/
theorem running_still {s : State} {f : State → State} (up : s.asserted = false) (none : f s = s) : running s f = .next s := by
  rw [Laws.running_next s f up, none]

/-- While the reset line is asserted every row but the supply's and the line's own leaves the state. -/
theorem exec_held {s : State} (held : s.asserted = true) (c : Instr) (supply : c ≠ .powerOn) (line : c ≠ .resetLineAssert)
    (release : ∀ t, c ≠ .resetLineRelease t) : exec c s = .next s := by
  cases c with
  | powerOn => exact absurd rfl supply
  | resetLineAssert => exact absurd rfl line
  | resetLineRelease t => exact absurd rfl (release t)
  | _ => exact congrArg Host.Outcome.next (if_pos held)

/-! ### Timed rows that are not due -/

section
variable {s : State} {d : Deck} {t : Time} (up : s.asserted = false)
include up

theorem exec_noPulseTimeout_early (early : s.ref.st ≠ .acquiring ∨ exact t < exact s.ref.pulseAt + 3 * s.fmt.framePeriod) :
    exec (.noPulseTimeout t) s = .next (s.tick t) := by
  unfold exec
  exact timed_waits up (if_neg fun ⟨acquiring, late⟩ => early.elim (absurd acquiring) late.not_gt)

theorem exec_latePulseTimeout_early
    (early : s.ref.st ≠ .locked ∨ exact t < s.ref.timerFrom + s.fmt.framePeriod + s.fmt.linePeriod) :
    exec (.latePulseTimeout t) s = .next (s.tick t) := by
  unfold exec
  exact timed_waits up (if_neg fun ⟨locked, late⟩ => early.elim (absurd locked) late.not_gt)

theorem exec_timerLineStep_early (early : s.ref.st = .locked ∨ exact t < s.ref.stepAt + s.fmt.linePeriod) :
    exec (.timerLineStep t) s = .next (s.tick t) := by
  unfold exec
  exact timed_waits up (if_neg fun ⟨free, due⟩ => early.elim free due.not_gt)

theorem exec_linkGapTimeout_early (early : s.link.rx = .hunting ∨ t < s.link.byteAt + ms 20) :
    exec (.linkGapTimeout t) s = .next (s.tick t) := by
  unfold exec
  refine timed_waits up ?_
  rw [State.tick_link]
  split
  · rfl
  · next inFrame => exact if_neg fun due => early.elim (by simp [inFrame]) due.not_gt

theorem exec_silenceTimeout_early (early : s.link.expired = true ∨ t < s.link.restartAt + ms s.link.limit) :
    exec (.silenceTimeout t) s = .next (s.tick t) := by
  unfold exec
  exact timed_waits up (if_neg fun ⟨runs, due⟩ => early.elim runs due.not_gt)

theorem exec_softResetEffect_early
    (early : s.link.resetPending = false ∨ 0 < s.link.okAhead ∨ ∃ d ds, s.link.safe = some (d :: ds)) :
    exec (.softResetEffect t) s = .next (s.tick t) := by
  have notReady : s.link.resetReady = false := by
    rcases early with none | ahead | ⟨d, ds, stops⟩
    · simp [Link.resetReady, none]
    · simp [Link.resetReady, ahead.ne']
    · simp [Link.resetReady, stops]
  unfold exec
  exact timed_waits up (if_neg (Bool.eq_false_iff.mp notReady))

theorem exec_bitSyncTimeout_early (early : (s.reader d).dec = .searching ∨
    ∀ i, (s.reader d).pend = some i → 2 * (t - i.closedAt) ≤ 3 * (s.reader d).est) :
    exec (.bitSyncTimeout d t) s = .next (s.tick t) := by
  unfold exec
  refine timed_waits up ?_
  change (match (s.reader d).dec, (s.reader d).pend with | .reading, some p => _ | _, _ => _) = _
  split
  · next i reading pending => exact if_neg (early.elim (by simp [reading]) fun within => (within i pending).not_gt)
  · rfl

theorem exec_commandSent_early (early : (s.port d).line ≠ .sending) : exec (.commandSent d t) s = .next (s.tick t) := by
  unfold exec
  exact timed_waits up (if_neg early)

theorem exec_replyTimeout_early (early : (s.port d).line ≠ .awaiting ∨ t < (s.port d).replyFrom + ms 12) :
    exec (.replyTimeout d t) s = .next (s.tick t) := by
  unfold exec
  exact timed_waits up (if_neg fun ⟨awaiting, due⟩ => early.elim (absurd awaiting) due.not_gt)

theorem exec_deckGapTimeout_early (early : t < (s.port d).byteAt + ms 3) :
    exec (.deckGapTimeout d t) s = .next (s.tick t) := by
  unfold exec
  exact timed_waits up (if_neg early.not_ge)

theorem exec_recoveryQuiet_early
    (early : (s.port d).line ≠ .recovering ∨ t < max (s.port d).byteAt (s.port d).replyFrom + ms 3) :
    exec (.recoveryQuiet d t) s = .next (s.tick t) := by
  unfold exec
  exact timed_waits up (if_neg fun ⟨recovering, due⟩ => early.elim (absurd recovering) due.not_gt)

theorem exec_attachTimer_early (early : (s.port d).presence ≠ .absent ∨ (s.port d).enabled = false ∨
    ∃ a, (s.port d).attachAt = some a ∧ t < a + ms 500) : exec (.attachTimer d t) s = .next (s.tick t) := by
  unfold exec
  refine timed_waits up (if_neg fun ⟨absent, enabled, due⟩ => ?_)
  rcases early with known | off | ⟨a, last, before⟩
  · exact known absent
  · exact Bool.false_ne_true (off.symm.trans enabled)
  · rw [State.port, State.tick_ports, ← State.port, last, Option.all_some] at due
    exact before.not_ge (of_decide_eq_true due)

end

/-! ### Rows of starts, lines and the outbound path -/

section
variable {s : State} {d : Deck} (up : s.asserted = false)
include up

theorem exec_houseClockFrameStart_still (none : s.due.clock = 0) : exec .houseClockFrameStart s = .next s := by
  unfold exec
  exact running_still up (if_neg none.not_gt)

theorem exec_sequencerFrameStart_still (none : s.due.seq = 0) : exec .sequencerFrameStart s = .next s := by
  unfold exec
  exact running_still up (if_neg none.not_gt)

theorem timeoutStep_still (why : Reason) (still : s.due.seq = 0 ∨ s.edit.abort.isSome = true ∨ 2 ≤ s.edit.deadline) :
    running s (fun s => s.timeoutStep why) = .next s := by
  refine running_still up (if_neg fun ⟨owed, noAbort, last, _⟩ => ?_)
  rcases still with none | aborted | within
  · omega
  · simp [noAbort] at aborted
  · omega

theorem exec_postrollTimeout_still (still : s.due.seq = 0 ∨ s.edit.phase ≠ .postroll ∨ 2 ≤ s.edit.deadline) :
    exec .postrollTimeout s = .next s := by
  unfold exec
  refine running_still up (if_neg fun ⟨owed, postroll, last⟩ => ?_)
  rcases still with none | other | within
  · omega
  · exact other postroll
  · omega

theorem exec_transitionFieldStart_still (none : s.due.engine = []) : exec .transitionFieldStart s = .next s := by
  unfold exec
  refine running_still up ?_
  simp only [none]

theorem exec_mixerFieldStart_still (none : s.due.mixer = []) : exec .mixerFieldStart s = .next s := by
  unfold exec
  refine running_still up ?_
  simp only [none]

theorem exec_mixerSendLine_unopened (none : s.mixer.opened = none) : exec .mixerSendLine s = .next s := by
  unfold exec
  refine running_still up ?_
  simp only [none]

theorem exec_mixerSendLine_before {n : Nat} (opened : s.mixer.opened = some n)
    (before : s.ref.line < s.fmt.firstLine (n == 2) + s.mixer.offset) : exec .mixerSendLine s = .next s := by
  have notYet : s.sendLine n = false := by simp [State.sendLine, before]
  unfold exec
  refine running_still up ?_
  simp only [opened, notYet]
  rfl

theorem exec_gpiFrameStart_still (none : s.due.gpi = 0) : exec .gpiFrameStart s = .next s := by
  unfold exec
  exact running_still up (if_neg none.not_gt)

theorem exec_gpiLineFire_still (unripe : ∀ x ∈ s.gpi.sched, x.inFrame = false ∨ s.ref.line < x.line) :
    exec .gpiLineFire s = .next s := by
  have none : s.gpi.sched.find? (GpiEntry.ripe s.ref.line) = none := by
    refine List.find?_eq_none.mpr fun x member => ?_
    simpa [GpiEntry.ripe, imp_iff_not_or] using unripe x member
  unfold exec
  refine running_still up ?_
  simp only [none]

theorem exec_gpiPulseEnd_still {o : GpiNo}
    (lasts : ∀ p, (s.gpi.out o).pulse = some p → 0 < p.left ∨ s.ref.line < p.endLine) : exec (.gpiPulseEnd o) s = .next s := by
  unfold exec
  refine running_still up (if_neg fun ⟨_, ends⟩ => ?_)
  obtain ⟨p, running, reached⟩ := (Option.any_eq_true _ _).mp ends
  simp only [Pulse.over, Bool.and_eq_true, beq_iff_eq, decide_eq_true_eq] at reached
  have := lasts p running
  omega

theorem exec_outboundSend_still (replies : s.link.replies = []) (notices : s.link.notices = []) :
    exec .outboundSend s = .next s := by
  unfold exec
  refine running_still up ?_
  simp only [replies, notices]

theorem exec_readerFrameTests_still (none : s.due.reader[d.val] = 0) : exec (.readerFrameTests d) s = .next s := by
  unfold exec
  exact running_still up (if_neg none.not_gt)

theorem exec_stillCountReached_still (still : s.due.reader[d.val] = 0 ∨ (s.reader d).noWord ≠ 2) :
    exec (.stillCountReached d) s = .next s := by
  unfold exec
  exact running_still up (if_neg fun ⟨owed, two, _⟩ => still.elim owed.ne' (absurd two))

theorem exec_deckPortFrameStart_still (none : s.due.port[d.val] = 0) : exec (.deckPortFrameStart d) s = .next s := by
  unfold exec
  exact running_still up (if_neg none.not_gt)

theorem exec_chaseSample_still (none : s.due.chase[d.val] = 0) : exec (.chaseSample d) s = .next s := by
  unfold exec
  exact running_still up (if_neg none.not_gt)

theorem exec_rollCountExpired_still
    (still : s.due.chase[d.val] = 0 ∨ (s.chan d).st ≠ .rolling ∨ 2 ≤ (s.chan d).roll) :
    exec (.rollCountExpired d) s = .next s := by
  unfold exec
  refine running_still up (if_neg fun ⟨owed, expires⟩ => ?_)
  simp only [State.rollExpires, Bool.and_eq_true, beq_iff_eq, decide_eq_true_eq] at expires
  obtain ⟨⟨⟨⟨rolling, last⟩, -⟩, -⟩, -⟩ := expires
  rcases still with none | other | within
  · omega
  · exact other rolling
  · omega

end

/-! ### Requests -/

/-- The request kinds and the rows that take them (Table 12-2). -/
def requestRows : List (Nat × Instr) :=
  [(0x01, .getReference), (0x02, .setHouseTime), (0x08, .setReaderParams), (0x09, .getReader), (0x10, .deckCommand),
    (0x11, .getDeck), (0x12, .setPortEnable), (0x18, .setServoParams), (0x19, .setChase), (0x1A, .clearChase),
    (0x1B, .getChase), (0x20, .setLoadWindow), (0x21, .loadEvents), (0x22, .loadContinue), (0x23, .readEvent),
    (0x24, .deleteEvents), (0x25, .clearList), (0x26, .resetStatus), (0x28, .setEditTimes), (0x29, .executeEvent),
    (0x2A, .abortEdit), (0x2B, .allStop), (0x2C, .getEdit), (0x30, .startRun), (0x31, .continueRun), (0x32, .skipEvent),
    (0x33, .pauseRun), (0x34, .stopRun), (0x35, .getRun), (0x38, .setRouting), (0x39, .prepareTransition),
    (0x3A, .autoTake), (0x3B, .cutNow), (0x3C, .resetTransition), (0x3D, .lever), (0x3E, .getTransition),
    (0x3F, .setMixerSendLine), (0x40, .gpiSet), (0x41, .getGpi), (0x48, .setFormat), (0x49, .setRecorder),
    (0x4A, .setNoticeMask), (0x4B, .setSilenceLimit), (0x4C, .softReset), (0x4D, .getLinkStatus)]

theorem requestRows_known {x : Nat × Instr} (row : x ∈ requestRows) : (paramCount x.1).isSome = true := by
  revert x
  decide

section
variable {s : State} (up : s.asserted = false)
include up

/-- A request row leaves the state when a request of its kind is not the one to hand on. -/
theorem takeRequest_still {b : Byte} {f : Request → State → State}
    (still : 16 ≤ s.places ∨ ∀ r, s.link.input.head? = some r → r.kind.toNat ≠ b.toNat) : takeRequest b s f = .next s := by
  refine running_still up ?_
  dsimp only
  split
  · next r head =>
    unfold State.head at head
    split at head
    · next place =>
      have other := still.elim (absurd place ∘ Nat.not_lt.mpr) fun other => other r head
      exact if_neg fun same => other (congrArg BitVec.toNat same)
    · exact absurd head (by simp)
  · rfl

theorem requestRows_still : requestRows.Forall fun x =>
    16 ≤ s.places ∨ (∀ r, s.link.input.head? = some r → r.kind.toNat ≠ x.1) → exec x.2 s = .next s := by
  dsimp only [requestRows, List.Forall]
  and_intros <;>
  · intro still
    unfold exec
    refine takeRequest_still up ?_
    exact still

variable {k : Nat} {c : Instr} (row : (k, c) ∈ requestRows)
include row

theorem exec_request_still
    (still : 16 ≤ s.places ∨ ∀ r, s.link.input.head? = some r → r.kind.toNat ≠ k) : exec c s = .next s :=
  List.forall_iff_forall_mem.mp (requestRows_still up) (k, c) row still

theorem exec_unknownRequest_still
    (still : 16 ≤ s.places ∨ ∀ r, s.link.input.head? = some r → r.kind.toNat = k) : exec .unknownRequest s = .next s := by
  unfold exec
  refine running_still up ?_
  split
  · next r head =>
    unfold State.head at head
    split at head
    · next place =>
      have kind := still.elim (absurd place ∘ Nat.not_lt.mpr) fun known => known r head
      exact if_neg (by simpa [kind] using Option.isSome_iff_ne_none.mp (requestRows_known row))
    · exact absurd head (by simp)
  · rfl

end

end Sys2Proof.Machine

namespace Sys2Proof.Proofs

open Sys2Proof.Machine Sys2Proof.Safety

/-- Settles O2: `Laws.exec_stays` has the answer and the waiting commands, and each row without effect its own lemma. -/
theorem everyCommandCompletes : Obligations.EveryCommandCompletes := by
  refine ⟨fun c s => ?answers, fun s t up => ?early, fun s up => ?still⟩
  case answers =>
    obtain ⟨t, answer, stays⟩ := Laws.exec_stays c s
    exact ⟨t, answer, stays.pending⟩
  case early =>
    exact ⟨exec_noPulseTimeout_early up, exec_latePulseTimeout_early up, exec_timerLineStep_early up,
      exec_linkGapTimeout_early up, exec_silenceTimeout_early up, exec_softResetEffect_early up,
      fun d => ⟨exec_bitSyncTimeout_early up, exec_commandSent_early up, exec_replyTimeout_early up,
        exec_deckGapTimeout_early up, exec_recoveryQuiet_early up, exec_attachTimer_early up⟩⟩
  case still =>
    exact ⟨exec_houseClockFrameStart_still up, exec_sequencerFrameStart_still up,
      fun still => ⟨timeoutStep_still up _ still, timeoutStep_still up _ still, timeoutStep_still up _ still⟩,
      exec_postrollTimeout_still up, exec_transitionFieldStart_still up, exec_mixerFieldStart_still up,
      exec_mixerSendLine_unopened up, fun _ opened before _ => exec_mixerSendLine_before up opened before,
      exec_gpiFrameStart_still up, exec_gpiLineFire_still up, fun _ => exec_gpiPulseEnd_still up, exec_outboundSend_still up,
      fun d => ⟨exec_readerFrameTests_still up, exec_stillCountReached_still up, exec_deckPortFrameStart_still up,
        exec_chaseSample_still up, exec_rollCountExpired_still up⟩,
      fun k c row => ⟨exec_request_still up row, exec_unknownRequest_still up row⟩⟩

/-- Settles O3: the assertion stops every row of operation, and the release is the reset at its instant. -/
theorem resetLineHoldsAndRestarts : Obligations.ResetLineHoldsAndRestarts := by
  refine ⟨fun c s held supply line release => exec_held held c supply line release, fun s => rfl, fun s t held => ?_⟩
  exact congrArg Host.Outcome.next (if_pos held)

end Sys2Proof.Proofs

/-! ## The safe stop of a soft reset (R62, R184) -/

namespace Sys2Proof.Machine

open Sys2Proof.Safety

/-! ### Ports and waiting replies written again -/

theorem State.setPort_setPort (s : State) (d : Deck) (p q : Port) : (s.setPort d p).setPort d q = s.setPort d q := by
  simp [State.setPort]

theorem State.setPort_port (s : State) (d : Deck) : s.setPort d (s.port d) = s := by
  have same : s.ports.set d.val (s.port d) = s.ports := Vector.set_getElem_self d.isLt
  rw [State.setPort, same]

/-- s with other waiting replies. -/
def State.withReplies (s : State) (rs : List Reply) : State := { s with link := { s.link with replies := rs } }

theorem State.withReplies_self (s : State) : s.withReplies s.link.replies = s := rfl

/-- The reply to a PASS command that is removed. -/
theorem State.passAborted_eq (s : State) (c : PassCmd) : s.passAborted c = s.withReplies (s.link.replies ++
    [{ kind := c.kind ||| 0x80, tag := c.tag, vals := [.u 1 Result.aborted.code] }]) := rfl

/-! ### The arbiter during a safe stop -/

theorem DeckCmd.frame_stop (f : SuiteFormat) : DeckCmd.stop.frame f = [2, 0x20, 0x22] := by
  cases f <;> decide

theorem DeckCmd.frame_recordOff (f : SuiteFormat) : DeckCmd.recordOff.frame f = [2, 0x31, 0x33] := by
  cases f <;> decide

/-- A port after the arbiter has looked at it: an IDLE line takes the next command (R61). -/
def Port.handed (p : Port) (f : SuiteFormat) : Port :=
  if p.line = .idle then
    match p.pick with
    | some (x, q) => q.sending f { x with cmd := q.clampSpeed x.cmd }
    | none => p
  else p

/-- A busy line takes nothing. -/
theorem Port.handed_busy {p : Port} (busy : p.line ≠ .idle) (f : SuiteFormat) : p.handed f = p := if_neg busy

/-- An IDLE line takes the first command of an EMERGENCY item before all else. -/
theorem Port.handed_off {p : Port} (idle : p.line = .idle) {a b : Bool}
    (item : p.emerg = some { recordOff := true, toSeq := a, toSafe := b }) (f : SuiteFormat) :
    p.handed f = { p with
      emerg := some { recordOff := false, toSeq := a, toSafe := b }, line := .sending
      flight := some ⟨.recordOff, .emergencyOff⟩, tx := [2, 0x31, 0x33], fresh := false, standing := false, quiet := false
      hold := p.quiet || p.hold } := by
  simp only [Port.handed, if_pos idle, Port.pick, item, if_true, Port.clampSpeed, Port.sending, DeckCmd.isSense,
    Bool.and_false, DeckCmd.frame_recordOff]

theorem Port.handed_stop {p : Port} (idle : p.line = .idle) {a b : Bool}
    (item : p.emerg = some { recordOff := false, toSeq := a, toSafe := b }) (f : SuiteFormat) :
    p.handed f = { p with
      emerg := none, line := .sending, flight := some ⟨.stop, .emergencyStop a b⟩, tx := [2, 0x20, 0x22]
      fresh := false } := by
  simp only [Port.handed, if_pos idle, Port.pick, item, Bool.false_eq_true, if_false, Port.clampSpeed, Port.sending,
    DeckCmd.isSense, Bool.and_false, DeckCmd.frame_stop]

/-- A port with an EMERGENCY item posted and, on an IDLE line, its first command handed. -/
def Port.stopPosted (p : Port) (f : SuiteFormat) (e : Edit) (toSeq toSafe : Bool) : Port :=
  (p.withEmergency e toSeq toSafe).handed f

theorem Port.stopPosted_eq_itemPosted {p : Port} (free : p.emerg = none) (f : SuiteFormat) (e : Edit) (a b : Bool) :
    p.stopPosted f e a b = itemPosted p (a || p.releaseStop e) b := by
  have item : p.withEmergency e a b = itemWaits p (a || p.releaseStop e) b := by simp [Port.withEmergency, itemWaits, free]
  rw [Port.stopPosted, item]
  by_cases idle : p.line = .idle
  · cases standing : p.standing with
    | true =>
      rw [Laws.itemPosted_standing p _ _ idle standing]
      exact Port.handed_off (p := itemWaits p _ b) idle (by simp [itemWaits, standing]) f
    | false =>
      rw [Laws.itemPosted_free p _ _ idle standing]
      exact Port.handed_stop (p := itemWaits p _ b) idle (by simp [itemWaits, standing]) f
  · rw [Laws.itemPosted_busy p _ _ idle]
    exact Port.handed_busy (p := itemWaits p _ b) idle f

/-- The slots below EMERGENCY are empty once an item is posted, handed or not. -/
theorem Port.stopPosted_slots (p : Port) (f : SuiteFormat) (e : Edit) (a b : Bool) :
    (p.stopPosted f e a b).seqSlot = { first := none, second := none } ∧ (p.stopPosted f e a b).servo = none ∧
      (p.stopPosted f e a b).pass = none := by
  obtain ⟨⟨off, toSeq, toSafe⟩, item⟩ : ∃ i, (p.withEmergency e a b).emerg = some i := ⟨_, rfl⟩
  rw [Port.stopPosted]
  by_cases idle : (p.withEmergency e a b).line = .idle
  · cases off with
    | true =>
      rw [Port.handed_off idle item]
      exact ⟨rfl, rfl, rfl⟩
    | false =>
      rw [Port.handed_stop idle item]
      exact ⟨rfl, rfl, rfl⟩
  · rw [Port.handed_busy idle]
    exact ⟨rfl, rfl, rfl⟩

section
variable {s : State} (stops : s.safeStop = true)
include stops

/-- During a safe stop a hand touches the port alone: neither the sequencer nor a channel is told (R184). -/
theorem State.handLine_safe (d : Deck) : s.handLine d = s.setPort d ((s.port d).handed s.fmt) := by
  have silent (p : Port) (x : Flight) : (s.setPort d p).told d x = s.setPort d p := if_pos stops
  by_cases idle : (s.port d).line = .idle
  · simp only [State.handLine, Port.handed, if_pos idle]
    cases pick : (s.port d).pick with
    | some x => exact silent _ _
    | none => exact (s.setPort_port d).symm
  · rw [Port.handed_busy idle, State.setPort_port]
    exact if_neg idle

/-- During a safe stop a channel is not told of a withdrawn command (R184). -/
theorem State.chanFailed_safe (d : Deck) (gen loc : Nat) (c : DeckCmd) : s.chanFailed d gen loc c = s :=
  if_neg fun ⟨_, _, free⟩ => free stops

/-- During a safe stop an EMERGENCY posting touches the port, and answers a PASS command that waits there. -/
theorem State.postEmergency_safe (d : Deck) (a b : Bool) : s.postEmergency d a b =
    (s.setPort d ((s.port d).stopPosted s.fmt s.edit a b)).withReplies (s.link.replies ++ Safety.passAborted s [d]) := by
  let u := s.setPort d ((s.port d).withEmergency s.edit a b)
  have withdrawn : (match (s.port d).servo with
      | some c => u.chanFailed d c.gen c.loc c.cmd
      | none => u) = u := by
    split
    · exact State.chanFailed_safe (s := u) stops d _ _ _
    · rfl
  have answered : (match (s.port d).pass with
      | some c => u.passAborted c
      | none => u) = u.withReplies (s.link.replies ++ Safety.passAborted s [d]) := by
    cases pass : (s.port d).pass with
    | none =>
      have nothing : Safety.passAborted s [d] = [] := by simp [Safety.passAborted, pass]
      rw [nothing, List.append_nil]
      exact u.withReplies_self.symm
    | some c => simp [Safety.passAborted, pass, State.passAborted_eq, u]
  have posted : s.postEmergency d a b = (u.withReplies (s.link.replies ++ Safety.passAborted s [d])).handLine d := by
    rw [← answered, ← withdrawn]
    rfl
  rw [posted, State.handLine_safe (s := u.withReplies (s.link.replies ++ Safety.passAborted s [d])) stops]
  change ((u.withReplies _).setPort d ((u.port d).handed s.fmt)) = _
  rw [State.port_setPort]
  exact congrArg (State.withReplies · _) (State.setPort_setPort s d _ _)

end

/-- The postings of a safe stop on the decks ds lead from s to u: the ports, the ABORTED replies, and nothing else. -/
structure SafePosted (s u : State) (ds : List Deck) : Prop where
  port : ∀ d, u.port d = if d ∈ ds then (s.port d).stopPosted s.fmt s.edit false true else s.port d
  rest : u = { s with ports := u.ports }.withReplies (s.link.replies ++ Safety.passAborted s ds)

/-- The link after the postings. -/
theorem SafePosted.link {s u : State} {ds : List Deck} (posted : SafePosted s u ds) :
    u.link = { s.link with replies := s.link.replies ++ Safety.passAborted s ds } := by
  rw [posted.rest]
  rfl

/-- The postings leave the list, the edit, the channels and the settings. -/
theorem SafePosted.blocks {s u : State} {ds : List Deck} (posted : SafePosted s u ds) :
    u.list = s.list ∧ u.edit = s.edit ∧ u.chase = s.chase ∧ u.set = s.set := by
  rw [posted.rest]
  exact ⟨rfl, rfl, rfl, rfl⟩

/-- The postings in turn: none of them touches the port of another deck. -/
theorem State.foldl_postEmergency_safe (ds : List Deck) (distinct : ds.Nodup) {s : State} (stops : s.safeStop = true) :
    SafePosted s (ds.foldl (fun s d => s.postEmergency d false true) s) ds := by
  induction ds generalizing s with
  | nil => exact ⟨fun _ => rfl, by simp [Safety.passAborted, State.withReplies]⟩
  | cons d ds ih =>
    obtain ⟨new, others⟩ := List.nodup_cons.mp distinct
    let t := s.postEmergency d false true
    have first : t = (s.setPort d ((s.port d).stopPosted s.fmt s.edit false true)).withReplies
        (s.link.replies ++ Safety.passAborted s [d]) := State.postEmergency_safe stops d false true
    have here : t.port d = (s.port d).stopPosted s.fmt s.edit false true := by
      rw [first]
      exact State.port_setPort s d _
    have there (e : Deck) (other : e ≠ d) : t.port e = s.port e := by
      rw [first]
      exact State.port_setPort_ne s _ other
    have kept : t.safeStop = true ∧ t.fmt = s.fmt ∧ t.edit = s.edit := by
      rw [first]
      exact ⟨stops, rfl, rfl⟩
    obtain ⟨stillStops, fmt, edit⟩ := kept
    have waiting : Safety.passAborted t ds = Safety.passAborted s ds :=
      List.flatMap_congr fun e member => by rw [there e (ne_of_mem_of_not_mem member new)]
    obtain ⟨port, rest⟩ := ih others stillStops
    refine ⟨fun e => ?_, ?_⟩
    · rw [List.foldl_cons, port e, fmt, edit]
      by_cases same : e = d
      · subst same
        rw [if_neg new, if_pos List.mem_cons_self, here]
      · simp only [there e same, List.mem_cons, same, false_or]
    · rw [waiting] at rest
      rw [List.foldl_cons, rest, first]
      simp [State.withReplies, Safety.passAborted, State.setPort]

/-! ### The request -/

theorem State.mem_safeDecks (s : State) (d : Deck) : d ∈ s.safeDecks ↔
    d = s.recorder ∨ d ≠ s.recorder ∧ (s.port d).claim ≠ .free ∧ (s.port d).presence ≠ .disabled := by
  simp [State.safeDecks, mem_decks, and_assoc]

theorem State.safeDecks_nodup (s : State) : s.safeDecks.Nodup := by
  refine List.nodup_cons.mpr ⟨by simp, List.Nodup.filter _ (by decide)⟩

/-- The state after the OK of SOFT_RESET to r: reset pending, and the requests behind it discarded. -/
def State.resetAsked (s : State) (r : Request) : State :=
  let u := answered s r .ok []
  { u with link := { u.link with resetPending := true, input := [], okAhead := s.link.replies.length + 1 } }

/-- The safe stop of SOFT_RESET begun. -/
def State.safeStopping (s : State) (r : Request) : State :=
  let u := s.resetAsked r
  { u with link := { u.link with safe := some s.safeDecks } }

theorem exec_softReset {s : State} {r : Request} (taken : Takes s 0x4C r) : exec .softReset s = .next
    (if (s.port s.recorder).standing = true then (s.resetAsked r).beginSafeStop else s.resetAsked r) := by
  have pends : { s.dropHead.ok r [] with link := { (s.dropHead.ok r []).link with
      resetPending := true, input := [], okAhead := (s.dropHead.ok r []).link.replies.length } } = s.resetAsked r := by
    rw [Laws.ok_dropHead]
    simp [State.resetAsked, answered]
  rw [show exec .softReset s = execSoftReset s from rfl, execSoftReset, Laws.takeRequest_takes s r 0x4C _ taken, ← pends]
  rfl

theorem State.beginSafeStop_posted (s : State) (r : Request) :
    SafePosted (s.safeStopping r) (s.resetAsked r).beginSafeStop s.safeDecks :=
  State.foldl_postEmergency_safe s.safeDecks s.safeDecks_nodup rfl

end Sys2Proof.Machine

/-! ## A whole reply on a deck line (R50, R51, R53 to R55) -/

namespace Sys2Proof.Machine

/-- A port in RECEIVING with the bytes f taken, the latest at t. -/
def Port.receiving (p : Port) (f : RxFrame) (t : Time) : Port := { p with line := .receiving, rx := some f, byteAt := t }

/-- A frame with more bytes taken. -/
def RxFrame.pushAll (f : RxFrame) (cs : List LineChar) : RxFrame := cs.foldl RxFrame.push f

section
variable (s : State) (d : Deck) (t : Time)

/-- A byte of a reply in RECEIVING goes to the reply. -/
theorem State.portByte_receiving {p : Port} (known : p.presence ≠ .disabled) (f : RxFrame) (c : LineChar) :
    State.portByte d t (s.setPort d (p.receiving f t)) c = (s.setPort d (p.receiving f t)).replyByte d t c := by
  simp only [State.portByte, State.port_setPort]
  exact if_neg known

/-- A byte short of the check byte waits for the rest. -/
theorem State.replyByte_partial {p : Port} {f : RxFrame} {c : LineChar}
    (length : (f.push c).badLength = false) (short : (f.push c).complete = false) :
    (s.setPort d (p.receiving f t)).replyByte d t c = s.setPort d (p.receiving (f.push c) t) := by
  simp only [State.replyByte, State.port_setPort, State.setPort_setPort]
  change (if (f.push c).badLength = true then _ else if (f.push c).complete = true then _ else _) = _
  rw [length, short]
  rfl

/-- The check byte ends the command: its outcome is what the whole reply is judged to be. -/
theorem State.replyByte_last {p : Port} {x : Flight} (flight : p.flight = some x) {f : RxFrame} {c : LineChar}
    (length : (f.push c).badLength = false) (whole : (f.push c).complete = true) :
    (s.setPort d (p.receiving f t)).replyByte d t c = (s.setPort d (p.receiving (f.push c) t)).endCommand d t
      (judgeReply x.cmd (f.push c).bad (f.push c).bytes) (((f.push c).bytes.drop 2).dropLast) := by
  simp only [State.replyByte, State.port_setPort, State.setPort_setPort]
  change (if (f.push c).badLength = true then _ else if (f.push c).complete = true then
    State.endCommand _ d t (match p.flight with | some x => _ | none => _) _ else _) = _
  rw [length, whole, flight]
  rfl

/-- The rest of a reply whose length byte counts it. -/
theorem State.portBytes_receiving {p : Port} {x : Flight} (known : p.presence ≠ .disabled) (flight : p.flight = some x)
    (n : Byte) (low : 2 ≤ n.toNat) (high : n.toNat ≤ 18) (c : LineChar) (cs : List LineChar) (bs : List Byte) (bad : Bool)
    (counted : bs.length + cs.length + 1 = n.toNat) :
    (s.setPort d (p.receiving ⟨n :: bs, bad⟩ t)).portBytes d t (c :: cs) =
      (s.setPort d (p.receiving (RxFrame.pushAll ⟨n :: bs, bad⟩ (c :: cs)) t)).endCommand d t
        (judgeReply x.cmd (RxFrame.pushAll ⟨n :: bs, bad⟩ (c :: cs)).bad (RxFrame.pushAll ⟨n :: bs, bad⟩ (c :: cs)).bytes)
        (((RxFrame.pushAll ⟨n :: bs, bad⟩ (c :: cs)).bytes.drop 2).dropLast) := by
  have length (bs : List Byte) (bad : Bool) : RxFrame.badLength ⟨n :: bs, bad⟩ = false := by
    simp only [RxFrame.badLength, byteN, List.getD_cons_zero, Bool.or_eq_false_iff, decide_eq_false_iff_not]
    omega
  have complete (bs : List Byte) (bad : Bool) : RxFrame.complete ⟨n :: bs, bad⟩ = (bs.length == n.toNat) := by
    simp [RxFrame.complete, byteN]
  induction cs generalizing c bs bad with
  | nil =>
    have whole : RxFrame.complete ⟨n :: (bs ++ [c.byte]), bad || c.bad⟩ = true := by
      rw [complete]
      simpa using counted
    exact (State.portByte_receiving s d t known _ c).trans (State.replyByte_last s d t flight (length _ _) whole)
  | cons c' cs ih =>
    have short : RxFrame.complete ⟨n :: (bs ++ [c.byte]), bad || c.bad⟩ = false := by
      rw [complete]
      simp only [List.length_append, List.length_cons, List.length_nil, beq_eq_false_iff_ne] at counted ⊢
      omega
    have taken : State.portByte d t (s.setPort d (p.receiving ⟨n :: bs, bad⟩ t)) c =
        s.setPort d (p.receiving ⟨n :: (bs ++ [c.byte]), bad || c.bad⟩ t) :=
      (State.portByte_receiving s d t known _ c).trans (State.replyByte_partial s d t (length _ _) short)
    change (State.portByte d t (s.setPort d (p.receiving ⟨n :: bs, bad⟩ t)) c).portBytes d t (c' :: cs) = _
    rw [taken]
    refine ih c' (bs ++ [c.byte]) (bad || c.bad) ?_
    simp only [List.length_append, List.length_cons, List.length_nil] at counted ⊢
    omega

variable {s d}

/-- A whole reply to the command awaited on a line ends it, as the reply is judged (R50, R51). -/
theorem State.portBytes_reply {x : Flight} (awaits : (s.port d).line = .awaiting) (noStray : (s.port d).stray = none)
    (noBytes : (s.port d).rx = none) (known : (s.port d).presence ≠ .disabled) (flight : (s.port d).flight = some x)
    (n c : LineChar) (cs : List LineChar) (low : 2 ≤ n.byte.toNat) (high : n.byte.toNat ≤ 18)
    (counted : cs.length + 1 = n.byte.toNat) :
    s.portBytes d t (n :: c :: cs) =
      (s.setPort d ((s.port d).receiving (RxFrame.empty.pushAll (n :: c :: cs)) t)).endCommand d t
        (judgeReply x.cmd (RxFrame.empty.pushAll (n :: c :: cs)).bad (RxFrame.empty.pushAll (n :: c :: cs)).bytes)
        (((RxFrame.empty.pushAll (n :: c :: cs)).bytes.drop 2).dropLast) := by
  have badLength : RxFrame.badLength (RxFrame.empty.push n) = false := by
    simp only [RxFrame.badLength, RxFrame.push, RxFrame.empty, byteN, List.nil_append, List.getD_cons_zero,
      Bool.or_eq_false_iff, decide_eq_false_iff_not]
    omega
  have short : RxFrame.complete (RxFrame.empty.push n) = false := by
    simp only [RxFrame.complete, RxFrame.push, RxFrame.empty, byteN, List.nil_append, List.length_cons, List.length_nil,
      List.getD_cons_zero, beq_eq_false_iff_ne]
    omega
  have first : State.portByte d t s n = s.setPort d ((s.port d).receiving (RxFrame.empty.push n) t) := by
    have goes : State.portByte d t s n = s.replyByte d t n := by
      simp only [State.portByte, if_neg known, awaits, noStray]
      rfl
    rw [goes]
    simp only [State.replyByte, noBytes, Option.getD_none, badLength, short]
    rfl
  change (State.portByte d t s n).portBytes d t (c :: cs) = _
  rw [first]
  refine State.portBytes_receiving s d t known flight n.byte low high c cs [] _ ?_
  simpa using counted

end

/-- A NAK frame with its check byte. -/
theorem judgeReply_nak (c : DeckCmd) (why : Byte) :
    judgeReply c false [3, 0x81, why, 3 ^^^ 0x81 ^^^ why] = .naked (NakReason.ofByte why.toNat) := by
  simp [judgeReply, byteN, xorAll]

/-! ### Outcomes -/

section
variable {s : State} {d : Deck} {t : Time}

/-- An outcome that brings no data: the originator is told and the outcome counted (R53, R55). -/
theorem State.outcome_noData {x : Flight} (flight : (s.port d).flight = some x) {o : CmdOutcome DataReply}
    (noData : ∀ y, o ≠ .data y) (received : List Byte) : s.outcome d o received =
      ((s.setPort d { s.port d with flight := none, rx := none }).handBack d x o received).countOutcome d o := by
  unfold State.outcome
  rw [flight]
  cases o with
  | data y => exact absurd rfl (noData y)
  | acked => rfl
  | naked why => rfl
  | lineError => rfl
  | timeout => rfl

/-- A failure of a PRESENT deck that is not the third in a row is counted, and no more (R55, R56). -/
theorem State.countFailure_few (present : (s.port d).presence = .present) (few : (s.port d).fails < 2) :
    s.countFailure d = s.setPort d { s.port d with fails := (s.port d).fails + 1 } := by
  have notThird : ¬3 ≤ (s.port d).fails + 1 := by omega
  simp only [State.countFailure, if_pos present, if_neg notThird]

/-- After a reply that is no failure the line is IDLE and takes the next command (R50, R61). -/
theorem State.endCommand_replied {o : CmdOutcome DataReply} (replied : o.isFailure = false) (received : List Byte) :
    s.endCommand d t o received = ((s.outcome d o received).setPort d
      { (s.outcome d o received).port d with line := .idle }).hand d := by
  cases o with
  | lineError => exact absurd replied (by decide)
  | timeout => exact absurd replied (by decide)
  | acked => rfl
  | naked why => rfl
  | data y => rfl

end

/-! ### Outcomes during a safe stop (R184) -/

/-- s with deck d no longer among those whose STOP the safe stop awaits. -/
def State.stopLeft (s : State) (d : Deck) : State :=
  { s with link := { s.link with safe := s.link.safe.map (·.filter (· ≠ d)) } }

section
variable {s : State} {d : Deck} {t : Time} {toSeq : Bool} (stops : s.safeStop = true)
include stops

/-- The outcome of a safe stop's STOP: its deck is no longer awaited, and the sequencer takes no report of it. -/
theorem State.emergencyDone_safe : s.emergencyDone d toSeq true = s.stopLeft d := by
  have stillStops : (s.stopLeft d).safeStop = true := by simpa [State.safeStop, State.stopLeft] using stops
  exact if_neg fun ⟨_, free⟩ => free stillStops

variable (flight : (s.port d).flight = some ⟨.stop, .emergencyStop toSeq true⟩) (present : (s.port d).presence = .present)
include flight present

/-- A reply to it that is no failure clears the failure count and frees the line. -/
theorem State.endCommand_safe_replied {o : CmdOutcome DataReply} (replied : o.isFailure = false) (noData : ∀ y, o ≠ .data y)
    (received : List Byte) : s.endCommand d t o received = ((s.setPort d { s.port d with
      line := .idle, flight := none, rx := none, fails := 0, nak := o.nakOr (s.port d).nak }).stopLeft d).hand d := by
  let u := s.setPort d { s.port d with flight := none, rx := none }
  have told : s.outcome d o received = (u.stopLeft d).setPort d { s.port d with
      flight := none, rx := none, fails := 0, nak := o.nakOr (s.port d).nak } := by
    rw [State.outcome_noData flight noData]
    change (u.emergencyDone d toSeq true).countOutcome d o = _
    rw [State.emergencyDone_safe (s := u) stops, Laws.Steady.countOutcome_port _ _ _ replied]
    change (u.stopLeft d).setPort d { u.port d with
      fails := if (u.port d).presence = .present then 0 else (u.port d).fails, nak := o.nakOr (u.port d).nak } = _
    rw [State.port_setPort, if_pos present]
  rw [State.endCommand_replied replied, told, State.port_setPort, State.setPort_setPort]
  exact congrArg (fun v : State => (v.stopLeft d).hand d) (State.setPort_setPort s d _ _)

/-- A whole reply to it that is no failure. -/
theorem State.portBytes_safe_stop (awaits : (s.port d).line = .awaiting) (noStray : (s.port d).stray = none)
    (noBytes : (s.port d).rx = none) {n c : LineChar} {cs : List LineChar} (low : 2 ≤ n.byte.toNat) (high : n.byte.toNat ≤ 18)
    (counted : cs.length + 1 = n.byte.toNat) {o : CmdOutcome DataReply} (judged : judgeReply .stop
      (RxFrame.empty.pushAll (n :: c :: cs)).bad (RxFrame.empty.pushAll (n :: c :: cs)).bytes = o)
    (replied : o.isFailure = false) (noData : ∀ y, o ≠ .data y) :
    s.portBytes d t (n :: c :: cs) = ((s.setPort d { s.port d with
      line := .idle, flight := none, rx := none, byteAt := t, fails := 0
      nak := o.nakOr (s.port d).nak }).stopLeft d).hand d := by
  let u := s.setPort d ((s.port d).receiving (RxFrame.empty.pushAll (n :: c :: cs)) t)
  have here : u.port d = (s.port d).receiving (RxFrame.empty.pushAll (n :: c :: cs)) t := State.port_setPort s d _
  have whole : s.portBytes d t (n :: c :: cs) = u.endCommand d t o _ :=
    judged ▸ State.portBytes_reply t awaits noStray noBytes (by simp [present]) flight n c cs low high counted
  rw [whole, State.endCommand_safe_replied (s := u) stops (by rw [here]; exact flight) (by rw [here]; exact present) replied
    noData, here, State.setPort_setPort]
  rfl

/-- 12 ms without a reply to it, not the third failure in a row: the failure is counted, and the line recovers. -/
theorem State.endCommand_safe_timeout (few : (s.port d).fails < 2) : s.endCommand d t .timeout [] =
    (s.setPort d { s.port d with
      flight := none, rx := none, fails := (s.port d).fails + 1, line := .recovering
      late := .reply { bytes := [], bad := false }, replyFrom := t }).stopLeft d := by
  let u := s.setPort d { s.port d with flight := none, rx := none }
  have told : s.outcome d .timeout [] = (u.stopLeft d).setPort d { s.port d with
      flight := none, rx := none, fails := (s.port d).fails + 1 } := by
    rw [State.outcome_noData flight (by simp)]
    change (u.emergencyDone d toSeq true).countFailure d = _
    have here : (u.stopLeft d).port d = { s.port d with flight := none, rx := none } := State.port_setPort s d _
    rw [State.emergencyDone_safe (s := u) stops, State.countFailure_few, here]
    · rw [here]
      exact present
    · rw [here]
      exact few
  change (s.outcome d .timeout []).setPort d { (s.outcome d .timeout []).port d with
    line := .recovering, late := .reply { bytes := [], bad := false }, replyFrom := t } = _
  rw [told, State.port_setPort, State.setPort_setPort]
  exact congrArg (State.stopLeft · d) (State.setPort_setPort s d _ _)

end

end Sys2Proof.Machine

/-! ## SOFT_RESET (R184, Table 11-2) -/

namespace Sys2Proof.Machine

open Sys2Proof.Safety

/-- The ABORTED replies to the PASS commands of deck d, in flight and waiting. -/
def State.abortedReplies (s : State) (d : Deck) : List Reply :=
  ((s.port d).flight.toList.flatMap fun x => passReply x.origin [.u 1 Result.aborted.code]) ++ Safety.passAborted s [d]

/-- s with the PASS command in flight on deck d's line answered ABORTED. -/
def State.abortFlight (s : State) (d : Deck) : State :=
  match (s.port d).flight with
  | some { cmd, origin := .pass kind tag } => s.passAborted { cmd, kind, tag }
  | _ => s

theorem State.abortFlight_eq (s : State) (d : Deck) : s.abortFlight d = s.withReplies (s.link.replies ++
    (s.port d).flight.toList.flatMap fun x => passReply x.origin [.u 1 Result.aborted.code]) := by
  unfold State.abortFlight
  cases (s.port d).flight with
  | none => simp [State.withReplies]
  | some x =>
    obtain ⟨cmd, origin⟩ := x
    cases origin <;> simp [passReply, State.passAborted_eq, State.withReplies]

theorem State.abortPass_eq (s : State) (d : Deck) : s.abortPass d = s.withReplies (s.link.replies ++ s.abortedReplies d) := by
  have inTurn : s.abortPass d = match (s.port d).pass with
      | some c => (s.abortFlight d).passAborted c
      | none => s.abortFlight d := rfl
  rw [inTurn, State.abortFlight_eq]
  cases waiting : (s.port d).pass with
  | none => simp [State.abortedReplies, Safety.passAborted, waiting]
  | some c => simp [State.abortedReplies, Safety.passAborted, waiting, State.passAborted_eq, State.withReplies]

theorem State.foldl_abortPass_eq (ds : List Deck) (s : State) :
    ds.foldl State.abortPass s = s.withReplies (s.link.replies ++ ds.flatMap s.abortedReplies) := by
  induction ds generalizing s with
  | nil => simp [State.withReplies]
  | cons d ds ih =>
    rw [List.foldl_cons, State.abortPass_eq, ih, List.flatMap_cons, ← List.append_assoc]
    rfl

section
variable {s : State} {t : Time}

/-- The ports of a soft reset (Table 4-9). -/
theorem State.port_softValues (d : Deck) : (s.softValues t).port d = (s.port d).softReset := Vector.getElem_map _ _

theorem State.chan_softValues (d : Deck) :
    (s.softValues t).chan d = Channel.idle s.set.lead ((s.chan d).gen + 1) (s.chan d).loc := Vector.getElem_map _ _

theorem State.reader_softValues (d : Deck) : (s.softValues t).reader d = Reader.initial s.fmt := Vector.getElem_replicate _

/-- The notice table after a soft reset: HELLO alone (R184, R185). -/
def softNotices (s : State) : List Notice :=
  [{ kind := .hello, source := 0, content := helloContent .soft s.fmt s.link.recorder s.list.events.length
     stamp := s.clock.frame, count := 1 }]

theorem State.hello_softValues (unmasked : s.link.masked .hello = false) :
    (s.softValues t).hello .soft = (s.softValues t).withNotices (softNotices s) := by
  have stillUnmasked : (s.softValues t).link.masked .hello = false := unmasked
  rw [State.hello, State.enter_eq, State.noted, stillUnmasked]
  rfl

/-- A soft reset that is ready takes effect: the ABORTED replies join those that wait, all are sent, and the blocks restart. -/
theorem exec_softResetEffect (up : s.asserted = false) (pending : s.link.resetPending = true) (sent : s.link.okAhead = 0)
    (stopped : s.link.safe.all List.isEmpty = true) (unmasked : s.link.masked .hello = false) :
    exec (.softResetEffect t) s = .next ((((s.tick t).withReplies
      (s.link.replies ++ decks.flatMap s.abortedReplies)).softValues t).withNotices (softNotices s)) := by
  have ready : s.link.resetReady = true := by simp [Link.resetReady, pending, sent, stopped]
  unfold exec
  refine (Laws.timed_next s t (fun s => if s.link.resetReady then
    ((decks.foldl State.abortPass s).softValues t).hello .soft else s) up).trans (congrArg Host.Outcome.next ?_)
  rw [State.tick_link, if_pos ready, State.foldl_abortPass_eq, State.hello_softValues]
  · rfl
  · exact unmasked

end

end Sys2Proof.Machine

namespace Sys2Proof.Proofs

open Sys2Proof.Machine Sys2Proof.Safety

/-- Settles O51: the request begins the safe stop or only pends; each STOP's outcome takes its deck from those awaited; and a
ready soft reset takes effect. -/
theorem softResetPendsAndTakesEffect : Obligations.SoftResetPendsAndTakesEffect := by
  refine ⟨fun s r taken => ⟨fun free => ?free, fun standing => ?standing⟩,
    fun s d ds t toSeq up safe => ?stop, fun s t up pending sent stopped unmasked => ?effect⟩
  case free =>
    rw [exec_softReset taken, if_neg (by simp [free])]
    rfl
  case standing =>
    have posted := State.beginSafeStop_posted s r
    have link := posted.link
    have recorder : s.recorder ∈ s.safeDecks := (s.mem_safeDecks _).mpr (.inl rfl)
    have here : (s.resetAsked r).beginSafeStop.port s.recorder = (s.port s.recorder).stopPosted s.fmt s.edit false true :=
      (posted.port s.recorder).trans (if_pos recorder)
    obtain ⟨seqSlot, servo, pass⟩ := Port.stopPosted_slots (s.port s.recorder) s.fmt s.edit false true
    rw [exec_softReset taken, if_pos standing]
    refine ⟨_, rfl, congrArg Link.resetPending link, congrArg Link.input link, congrArg Link.okAhead link,
      ⟨s.safeDecks, congrArg Link.safe link, recorder, congrArg Link.replies link, fun d other => ?_⟩, fun ds safe d => ?_, ?_⟩
    · simp [s.mem_safeDecks d, other]
    · obtain rfl : s.safeDecks = ds := Option.some.inj ((congrArg Link.safe link).symm.trans safe)
      refine ⟨fun outside => (posted.port d).trans (if_neg outside), fun toSeq member free awaited => ?_⟩
      have release : (s.port d).releaseStop s.edit = toSeq := by
        rw [Bool.eq_iff_iff, awaited]
        simp [Port.releaseStop]
      refine (posted.port d).trans ((if_pos member).trans ?_)
      rw [← release]
      exact Port.stopPosted_eq_itemPosted free _ _ false true
    · rw [here]
      exact ⟨seqSlot, servo, pass, posted.blocks⟩
  case stop =>
    intro p left ended awaits noStray noBytes present flight
    have stops : s.safeStop = true := by simp [State.safeStop, safe]
    have leaves (q : Port) : ((s.tick t).setPort d q).stopLeft d = left ((s.tick t).setPort d q) := by
      simp [State.stopLeft, left, safe]
    have reply (n c : LineChar) (cs : List LineChar) := State.portBytes_safe_stop (s := s.tick t) (t := t) stops flight present
      awaits noStray noBytes (n := n) (c := c) (cs := cs)
    refine ⟨?acked, fun why => ?naked, fun few late => ?timeout⟩
    case acked =>
      refine (Laws.timed_next s t (·.portBytes d t _) up).trans (congrArg Host.Outcome.next ?_)
      rw [reply _ _ _ (by decide) (by decide) rfl (o := .acked) rfl rfl (by simp), leaves]
      rfl
    case naked =>
      refine (Laws.timed_next s t (·.portBytes d t _) up).trans (congrArg Host.Outcome.next ?_)
      rw [reply ⟨3, false⟩ ⟨0x81, false⟩ [⟨why, false⟩, ⟨3 ^^^ 0x81 ^^^ why, false⟩] (by decide) (by decide) rfl
        (judgeReply_nak .stop why) rfl (by simp), leaves]
      rfl
    case timeout =>
      have due : exec (.replyTimeout d t) s = .next ((s.tick t).endCommand d t .timeout []) :=
        (Laws.timed_next s t (fun s => if (s.port d).line = .awaiting ∧ (s.port d).replyFrom + ms 12 ≤ t then
          s.endCommand d t .timeout [] else s) up).trans (congrArg Host.Outcome.next (if_pos ⟨awaits, late⟩))
      rw [due, State.endCommand_safe_timeout (s := s.tick t) stops flight present few, leaves]
      rfl
  case effect =>
    refine ⟨_, exec_softResetEffect up pending sent stopped unmasked, rfl, rfl, rfl, rfl, rfl, up, rfl, rfl, rfl, rfl, rfl,
      rfl, fun d => State.reader_softValues (t := t) d, fun d => State.chan_softValues (t := t) d,
      fun d => State.port_softValues (t := t) d, rfl, rfl, rfl, rfl, rfl, rfl, rfl, rfl, rfl, rfl⟩

end Sys2Proof.Proofs

/-! ## Reports (R28, R46, R71, R90, R105, R135, R147, R160, R170, R186) -/

namespace Sys2Proof.Machine

open Sys2Proof.Safety

/-! ### Optional values -/

theorem vOpt_map {α β : Type} (o : Option α) (g : α → β) (v : β → List Val) (w : Nat) :
    vOpt (o.map g) v w = vOpt o (fun a => v (g a)) w := by cases o <;> rfl

theorem vOptU_map {α : Type} (w : Nat) (o : Option α) (g : α → Nat) :
    vOptU w (o.map g) = vOpt o (fun a => [.u w (g a)]) w := vOpt_map _ _ _ _

theorem vOptLab_map {α : Type} (o : Option α) (g : α → Nat) : vOptLab (o.map g) = vOpt o (fun a => [.lab (g a)]) 4 :=
  vOpt_map _ _ _ _

/-! ### Sets -/

theorem Port.slots_eq (p : Port) : p.slots = bit p.emerg.isSome + 2 * bit (p.seqSlot.first.isSome || p.seqSlot.second.isSome) +
    4 * bit p.servo.isSome + 8 * bit p.pass.isSome + 16 * bit p.poll.isSome := by
  simp only [Port.slots, setOf]
  omega

theorem State.tallies_eq (s : State) : s.tallies = bit (s.tally 0) + 2 * bit (s.tally 1) + 4 * bit (s.tally 2) +
    8 * bit (s.tally 3) + 16 * bit (s.tally 4) + 32 * bit (s.tally 5) := by
  simp only [State.tallies, decks, List.map_cons, List.map_nil, setOf]
  omega

/-! ### What a report answers -/

section
variable {s : State} {r : Request} {k : Byte}

/-- OK with the values v, which are w. -/
theorem ok_values {v w : List Val} (values : v = w) : s.dropHead.ok r v = answered s r .ok (w.map (Val.fix s.fmt)) := by
  rw [Laws.ok_dropHead, values]

/-- A report's answer. -/
theorem takeRequest_report (taken : Takes s k.toNat r) (report : State → List Val) {v : List Val}
    (values : report s.dropHead = v) :
    takeRequest k s (fun r s => s.ok r (report s)) = .next (answered s r .ok (v.map (Val.fix s.fmt))) := by
  rw [Laws.takeRequest_takes s r k _ taken, ok_values values]

/-- A report on one of six, by its number. -/
theorem takeRequest_deck (taken : Takes s k.toNat r) {d : Deck} (number : byteN r.params 0 = Deck.num d)
    (f : Request → State → Deck → State) : takeRequest k s (fun r s => match deckOf (byteN r.params 0) with
      | none => s.refuse r .noDeck
      | some d => f r s d) = .next (f r s.dropHead d) := by
  rw [Laws.takeRequest_takes s r k _ taken]
  simp only [Laws.deckOf_eq _ d number]

/-- A deck number outside 1 to 6 names no deck. -/
theorem deckOf_none {n : Nat} (noDeck : ∀ d : Deck, n ≠ Deck.num d) : deckOf n = none := by
  refine dif_neg fun ⟨low, high⟩ => noDeck ⟨n - 1, by omega⟩ ?_
  change n = n - 1 + 1
  omega

theorem takeRequest_noDeck (taken : Takes s k.toNat r) (noDeck : ∀ d : Deck, byteN r.params 0 ≠ Deck.num d)
    (f : Request → State → Deck → State) : takeRequest k s (fun r s => match deckOf (byteN r.params 0) with
      | none => s.refuse r .noDeck
      | some d => f r s d) = .next (answered s r .noDeck []) := by
  rw [Laws.takeRequest_takes s r k _ taken, ← Laws.refuse_dropHead]
  simp only [deckOf_none noDeck]

/-- GET_READER, with its clear flag. -/
def readReader (r : Request) (s : State) (d : Deck) : State :=
  (if flagAt r.params 1 then s.setReader d { s.reader d with bad := 0 } else s).ok r (s.readerReport d)

end

/-! ### The house frame number as it is shown (R28) -/

section
variable {s : State}

theorem State.startFrame_one (s : State) : s.startFrame 1 = s.ref.frame % s.fmt.dayLen :=
  (SuiteFormat.addFrames_nat s.fmt s.ref.frame 0).trans (by rw [Nat.add_zero])

theorem State.clockAt_free (free : s.clock.preset = none ∨ s.due.clock = 0) :
    s.clockAt 1 = (s.ref.frame + s.clock.offset) % s.fmt.dayLen := by
  have sum : s.fmt.addFrames (s.startFrame 1) s.clock.offset = (s.ref.frame + s.clock.offset) % s.fmt.dayLen := by
    rw [SuiteFormat.addFrames_nat, State.startFrame_one, Nat.mod_add_mod]
  rw [← sum]
  unfold State.clockAt
  split
  · next held =>
    refine if_neg fun ⟨owed, _⟩ => ?_
    rcases free with none | taken
    · simp [none] at held
    · omega
  · rfl

theorem State.clockAt_preset {p : Nat} (held : s.clock.preset = some p) (owed : s.due.clock = 1) :
    s.clockAt 1 = p % s.fmt.dayLen := by
  have now : s.fmt.addFrames p ((1 - 1 : Nat) : Int) = p % s.fmt.dayLen := SuiteFormat.addFrames_nat _ _ _
  simp only [State.clockAt, held, owed]
  simpa using now

/-! ### The event found (R105) -/

variable {l : EventList}

theorem EventList.seek_none {n : Nat} {next : Bool}
    (absent : next = false ∧ (∀ x ∈ l.events, x.1 ≠ n) ∨ next = true ∧ ∀ x ∈ l.events, x.1 < n) : l.seek next n = none := by
  refine List.find?_eq_none.mpr fun x member => ?_
  rcases absent with ⟨rfl, other⟩ | ⟨rfl, below⟩
  · simpa using other x member
  · simpa using below x member

variable (sorted : NumbersOk (numbers l))
include sorted

/-- A search of the list in its order finds the first event that meets it. -/
theorem EventList.find?_first {m : Nat} {e : Event} (present : (m, e) ∈ l.events) {test : Nat × Event → Bool}
    (found : test (m, e) = true) (first : ∀ x ∈ l.events, x.1 < m → test x = false) :
    l.events.find? test = some (m, e) := by
  obtain ⟨before, after, split⟩ := List.append_of_mem present
  refine List.find?_eq_some_iff_append.mpr ⟨found, before, after, split, fun x earlier => ?_⟩
  obtain ⟨ascending, -, -⟩ := sorted
  rw [numbers, split, List.map_append, List.pairwise_append] at ascending
  obtain ⟨-, -, apart⟩ := ascending
  have below : x.1 < m := apart _ (List.mem_map_of_mem earlier) _ (by simp)
  simp [first x (split ▸ List.mem_append_left _ earlier) below]

theorem EventList.seek_exact {n : Nat} {e : Event} (present : (n, e) ∈ l.events) : l.seek false n = some (n, e) :=
  EventList.find?_first sorted present (by simp) fun x _ below => by simpa using below.ne

theorem EventList.seek_next {n m : Nat} {e : Event} (present : (m, e) ∈ l.events) (reached : n ≤ m)
    (lowest : ∀ x ∈ l.events, n ≤ x.1 → m ≤ x.1) : l.seek true n = some (m, e) :=
  EventList.find?_first sorted present (by simpa using reached) fun x member below => by
    simpa using mt (lowest x member) (not_le.mpr below)

end

theorem eventOk_iff (n : Nat) : eventOk n = true ↔ 1 ≤ n ∧ n ≤ 999 := by simp [eventOk]

section
variable {s : State} {r : Request} (taken : Takes s 0x23 r)
include taken

theorem exec_readEvent_unknown (unknown : 1 < byteN r.params 2) :
    exec .readEvent s = .next (answered s r .unknownRequest []) := by
  rw [show exec .readEvent s = execReadEvent s from rfl, execReadEvent, Laws.takeRequest_takes s r 0x23 _ taken,
    ← Laws.refuse_dropHead]
  exact congrArg _ (if_pos unknown)

variable (known : byteN r.params 2 ≤ 1)
include known

theorem exec_readEvent_outside (outside : natAt r.params 0 2 < 1 ∨ 999 < natAt r.params 0 2) :
    exec .readEvent s = .next (answered s r .noEvent []) := by
  have notOk : ¬eventOk (natAt r.params 0 2) = true := by
    rw [eventOk_iff]
    omega
  rw [show exec .readEvent s = execReadEvent s from rfl, execReadEvent, Laws.takeRequest_takes s r 0x23 _ taken,
    ← Laws.refuse_dropHead]
  exact congrArg _ ((if_neg known.not_gt).trans (if_pos notOk))

variable (low : 1 ≤ natAt r.params 0 2) (high : natAt r.params 0 2 ≤ 999)
include low high

theorem exec_readEvent_search : exec .readEvent s = .next
    (match s.list.seek (byteN r.params 2 == 1) (natAt r.params 0 2) with
      | none => answered s r .noEvent []
      | some (m, e) => answered s r .ok ((s.eventVals m e).map (Val.fix s.fmt))) := by
  have ok : eventOk (natAt r.params 0 2) = true := (eventOk_iff _).mpr ⟨low, high⟩
  rw [show exec .readEvent s = execReadEvent s from rfl, execReadEvent, Laws.takeRequest_takes s r 0x23 _ taken,
    ← Laws.refuse_dropHead]
  refine congrArg Host.Outcome.next ((if_neg known.not_gt).trans ((if_neg (by simp [ok])).trans ?_))
  change (match s.list.seek (byteN r.params 2 == 1) (natAt r.params 0 2) with
    | none => _
    | some (m, e) => _) = _
  cases s.list.seek (byteN r.params 2 == 1) (natAt r.params 0 2) with
  | none => rfl
  | some x => exact Laws.ok_dropHead _ _ _

end

/-! ### The failure reason shown (R130, R135) -/

theorem Edit.ending_reason (e : Edit) : e.ending.2 = e.failure.orElse fun _ => (endingOf e).2 := by
  unfold Edit.ending endingOf
  cases e.failure with
  | some why => rfl
  | none =>
    cases e.abort with
    | none => rfl
    | some why => cases e.abortStage <;> rfl

theorem Owner.planCode_eq (o : Owner) : o.planCode = if o = .sequencer then 0 else 1 := by cases o <;> rfl

end Sys2Proof.Machine

namespace Sys2Proof.Proofs

open Sys2Proof.Machine Sys2Proof.Safety

/-- GET_REFERENCE answers the number of the frame it shows (R28). -/
theorem getReference_shows {s : State} {r : Request} (taken : Takes s 0x01 r) {n : Nat} (shown : s.clockAt 1 = n) :
    exec .getReference s = .next (answered s r .ok [.u 1 s.ref.st.code, labelVal s.fmt n
      , .u 1 (if s.ref.line ≤ s.fmt.field1Last then 1 else 2), .u 2 s.ref.line]) := by
  subst shown
  have field : (if s.fmt.inField2 s.ref.line = true then 2 else 1) = if s.ref.line ≤ s.fmt.field1Last then 1 else 2 := by
    simp only [SuiteFormat.inField2, decide_eq_true_eq]
    split <;> split <;> omega
  rw [← field]
  exact takeRequest_report taken (k := 0x01) (fun s => [.u 1 s.ref.st.code, .lab (s.clockAt 1),
    .u 1 (if s.fmt.inField2 s.ref.line then 2 else 1), .u 2 s.ref.line]) rfl

/-- Settles O53: each report is its block's values, read in the order that the statement lists. -/
theorem reportsCarryTheirValues : Obligations.ReportsCarryTheirValues := by
  intro s r f said
  refine ⟨fun taken => ?reference, fun d number => ⟨fun taken => ?reader, fun taken => ?deck, fun taken => ?chase⟩,
    fun k c row noDeck taken => ?noDeck, fun taken => ?event, fun taken => ?edit, fun taken => ?run, fun taken => ?transition,
    fun taken => ?gpi, fun taken => ?status⟩
  case reference =>
    intro shows
    exact ⟨fun none _ sum => getReference_shows taken ((State.clockAt_free (.inr none)).trans sum.symm),
      fun none => getReference_shows taken (State.clockAt_free (.inl none)),
      fun p held owed => getReference_shows taken (State.clockAt_preset held owed)⟩
  case reader =>
    intro x u
    have answer : s.dropHead.ok r (s.dropHead.readerReport d) = u := ok_values (by
      simp only [State.readerReport, vOptLab_map]
      rfl)
    refine (takeRequest_deck (k := 0x09) taken number readReader).trans (congrArg Host.Outcome.next ?_)
    unfold readReader
    by_cases clear : byteN r.params 1 = 0
    · rw [if_pos clear, show flagAt r.params 1 = false by simp [flagAt, clear]]
      exact answer
    · rw [if_neg clear, show flagAt r.params 1 = true by simp [flagAt, clear]]
      exact congrArg (State.setReader · d { x with bad := 0 }) answer
  case deck =>
    intro p ident
    refine (takeRequest_deck (k := 0x11) taken number fun r s d => s.ok r (s.port d).report).trans
      (congrArg Host.Outcome.next (ok_values ?_))
    simp only [Port.report, vOptU_map, Port.slots_eq]
    rfl
  case chase =>
    intro c
    refine (takeRequest_deck (k := 0x1B) taken number fun r s d => s.ok r (s.chan d).report).trans
      (congrArg Host.Outcome.next (ok_values ?_))
    simp only [Channel.report, vOptU_map]
    rfl
  case noDeck =>
    simp only [List.mem_cons, Prod.mk.injEq, List.not_mem_nil, or_false] at row
    rcases row with ⟨rfl, rfl⟩ | ⟨rfl, rfl⟩ | ⟨rfl, rfl⟩
    · exact takeRequest_noDeck (k := 0x09) taken noDeck readReader
    · exact takeRequest_noDeck (k := 0x11) taken noDeck fun r s d => s.ok r (s.port d).report
    · exact takeRequest_noDeck (k := 0x1B) taken noDeck fun r s d => s.ok r (s.chan d).report
  case event =>
    intro n how found
    refine ⟨exec_readEvent_unknown taken, fun known outside => exec_readEvent_outside taken known outside,
      fun low high sorted => ?_⟩
    have search (known : how ≤ 1) := exec_readEvent_search taken known low high
    have finds (m : Nat) (e : Event) (known : how ≤ 1) (seek : s.list.seek (how == 1) n = some (m, e)) : found m e := by
      refine (search known).trans ?_
      rw [seek]
      rfl
    refine ⟨fun e exact present => ?_, fun m e next present reached lowest => ?_, fun absent => ?_⟩
    · exact finds n e (by omega) (by rw [exact]; exact EventList.seek_exact sorted present)
    · exact finds m e (by omega) (by rw [next]; exact EventList.seek_next sorted present reached lowest)
    · have none : s.list.seek (how == 1) n = none := EventList.seek_none
        (absent.imp (And.imp_left fun exact => by rw [exact]; rfl) (And.imp_left fun next => by rw [next]; rfl))
      refine (search (by omega)).trans ?_
      rw [none]
  case edit =>
    intro e flags why label
    refine takeRequest_report (k := 0x2C) taken State.editReport ?_
    simp only [State.editReport, vOptU_map, vCause, Edit.ending_reason]
    rfl
  case run =>
    intro x
    refine takeRequest_report (k := 0x35) taken (fun s => s.run.report) ?_
    simp only [Run.report, vOptU_map]
    rfl
  case transition =>
    intro e input plan prepared form effect
    refine takeRequest_report (k := 0x3E) taken State.transitionReport ?_
    have plans : Plan.vals = plan := by
      funext p
      simp only [Plan.vals, Owner.planCode_eq]
      rfl
    have forms : e.form.vals = form := by
      simp only [form]
      cases e.form <;> rfl
    have effects : e.effect.vals = effect := by
      simp only [effect]
      cases e.effect <;> rfl
    rw [← plans, ← forms, ← effects]
    rfl
  case gpi =>
    intro out entry
    refine takeRequest_report (k := 0x41) taken State.gpiReport ?_
    simp only [State.gpiReport, State.tallies_eq]
    rfl
  case status => exact takeRequest_report (k := 0x4D) taken State.linkReport rfl

end Sys2Proof.Proofs

/-! ## What the commands leave of the settings -/

namespace Sys2Proof.Laws

open Sys2Proof.Machine Sys2Proof.Safety

/-- The settings, and the format that bounds one of them. -/
def settingsOf (s : State) : SuiteFormat × Settings × Nat × Option Nat × Nat :=
  (s.fmt, s.set, s.mixer.offset, s.mixer.pendOff, s.link.limit)

theorem settingsOk_of_same {s t : State} (same : settingsOf t = settingsOf s) (ok : SettingsOk s) : SettingsOk t := by
  simp only [settingsOf, Prod.mk.injEq] at same
  obtain ⟨fmt, set, offset, pending, limit⟩ := same
  simpa only [SettingsOk, fmt, set, offset, pending, limit] using ok

theorem Steady.settings {s t : State} (h : Steady s t) : settingsOf t = settingsOf s := by
  have same := h.base
  simp only [Laws.base, linkBase, Prod.mk.injEq] at same
  obtain ⟨fmt, -, -, -, -, mixer, set, -, -, -, -, -, -, -, -, limit, -⟩ := same
  simp only [settingsOf, fmt, mixer, set, limit]

/-- A command's outcome is a next state with the settings as they were. -/
def KeepsSettings (s : State) (o : Host.Outcome State Fault Refusal) : Prop :=
  ∃ t, o = .next t ∧ settingsOf t = settingsOf s

theorem settings_foldl {α : Type} (f : State → α → State) (h : ∀ s a, settingsOf (f s a) = settingsOf s) (l : List α)
    (s : State) : settingsOf (l.foldl f s) = settingsOf s := by
  induction l generalizing s with
  | nil => rfl
  | cons a l ih => exact (ih _).trans (h s a)

theorem settings_ite {s t u : State} {p : Prop} [Decidable p] (a : settingsOf t = settingsOf s)
    (b : settingsOf u = settingsOf s) : settingsOf (if p then t else u) = settingsOf s := by split <;> assumption

/-! ### The frames of a command -/

section
variable {s : State}

theorem running_settings {f : State → State} (h : ∀ s, settingsOf (f s) = settingsOf s) : KeepsSettings s (running s f) :=
  ⟨_, rfl, settings_ite rfl (h s)⟩

theorem timed_settings {t : Time} {f : State → State} (h : ∀ s, settingsOf (f s) = settingsOf s) :
    KeepsSettings s (timed s t f) :=
  running_settings fun s => h (s.tick t)

theorem takeRequest_settings {k : Byte} {f : Request → State → State} (h : ∀ r s, settingsOf (f r s) = settingsOf s) :
    KeepsSettings s (takeRequest k s f) := by
  refine running_settings fun s => ?_
  split
  · exact settings_ite (settings_ite (h _ s.dropHead) rfl) rfl
  · rfl

end

/-! ### The reference unit and the house clock -/

section
variable (s : State) (t : Time)

theorem goAbsent_settings (c : AbsentCause) : settingsOf (s.goAbsent t c) = settingsOf s := by
  have entered (u : State) (v : List Val) : settingsOf (u.enter .referenceState 0 v) = settingsOf u :=
    (Steady.enter _ _ _ _ (by decide)).settings
  exact settings_ite ((Steady.warn _ _).settings.trans (entered _ _)) (entered _ _)

theorem nextLine_settings : settingsOf s.nextLine = settingsOf s := settings_ite rfl rfl

theorem lock_settings : settingsOf (s.lock t) = settingsOf s :=
  (Steady.enter _ _ _ _ (by decide)).settings.trans (settings_ite rfl rfl)

theorem takeLine_settings : settingsOf (s.takeLine t) = settingsOf s := by
  unfold State.takeLine
  split
  · rfl
  · exact settings_ite rfl (settings_ite (goAbsent_settings _ _ _) rfl)
  · exact settings_ite (goAbsent_settings _ _ _) (nextLine_settings s)

theorem takeFrame_settings : settingsOf (s.takeFrame t) = settingsOf s := by
  unfold State.takeFrame
  have broken : settingsOf ((s.openFrame t).goAbsent t .lineCount) = settingsOf s := goAbsent_settings _ _ _
  split
  · exact (Steady.enter _ _ _ _ (by decide)).settings
  · exact settings_ite rfl (settings_ite (settings_ite rfl (lock_settings _ _)) broken)
  · exact settings_ite rfl broken

theorem timerStep_settings : settingsOf s.timerStep = settingsOf s := settings_ite (nextLine_settings s) rfl

end

/-! ### Rows of the deck ports, the outputs and the link -/

section
variable (s : State)

theorem linkReply_settings (k g : Byte) (x : Result) : settingsOf (s.linkReply k g x) = settingsOf s := settings_ite rfl rfl

theorem damagedFrame_settings : settingsOf s.damagedFrame = settingsOf s := linkReply_settings _ _ _ _

theorem linkByte_settings (t : Time) (b : Byte) : settingsOf (State.linkByte t s b) = settingsOf s := by
  unfold State.linkByte
  split
  · exact settings_ite rfl rfl
  · have valid (u : State) (r : Request) : settingsOf (u.validFrame t r) = settingsOf u :=
      settings_ite (linkReply_settings _ _ _ _) rfl
    exact settings_ite (damagedFrame_settings _) (settings_ite rfl (settings_ite (valid _ _) (damagedFrame_settings _)))

theorem abortPass_settings (d : Deck) : settingsOf (s.abortPass d) = settingsOf s := by
  unfold State.abortPass
  dsimp only
  split <;> split <;> rfl

theorem softReset_settings (t : Time) : settingsOf ((s.softValues t).hello .soft) = settingsOf s :=
  (Steady.enter (s.softValues t) .hello 0 _ (by decide)).settings

theorem portBreaks_settings (d : Deck) : settingsOf ((s.breakStray d).breakLate d) = settingsOf s :=
  ((Steady.breakStray _ _).trans (Steady.breakLate _ _)).settings

theorem warnManual_settings (p : Prop) [Decidable p] : settingsOf (if p then s.warnManual else s) = settingsOf s :=
  settings_ite (Steady.warnManual s).settings rfl

theorem engineMove_settings (e : Engine) (c : TransCause) : settingsOf (s.engineMove e c) = settingsOf s :=
  (Steady.enter { s with engine := e } _ _ _ (by decide)).settings

/-- The commands that set a setting, or the format. -/
def setsSettings : Instr → Bool
  | .powerOn => true
  | .resetLineRelease _ => true
  | .mixerFieldStart => true
  | .setReaderParams => true
  | .setServoParams => true
  | .setEditTimes => true
  | .setMixerSendLine => true
  | .setFormat => true
  | .setSilenceLimit => true
  | _ => false

/-- Every timed row and every start but the mixer's keeps the settings. -/
theorem exec_row_settings (c : Instr) (other : setsSettings c = false) (row : c ∉ requestRows.map Prod.snd) :
    KeepsSettings s (exec c s) := by
  unfold exec
  cases c with
  | powerOn | resetLineRelease | mixerFieldStart | setReaderParams | setServoParams | setEditTimes | setMixerSendLine
  | setFormat | setSilenceLimit => exact absurd other (by simp [setsSettings])
  | resetLineAssert => exact ⟨_, rfl, rfl⟩
  | softResetEffect t =>
    exact timed_settings fun s => settings_ite ((softReset_settings _ t).trans (settings_foldl _ abortPass_settings _ _)) rfl
  | framePulse field2 t => exact timed_settings fun s => settings_ite (takeLine_settings s t) (takeFrame_settings s t)
  | linePulse t => exact timed_settings fun s => takeLine_settings s t
  | noPulseTimeout t => exact timed_settings fun s => settings_ite (goAbsent_settings s t _) rfl
  | latePulseTimeout t => exact timed_settings fun s => settings_ite (goAbsent_settings s t _) rfl
  | timerLineStep t => exact timed_settings fun s => settings_ite (timerStep_settings s) rfl
  | houseClockFrameStart => exact running_settings fun s => settings_ite rfl rfl
  | tcTransition d t => exact timed_settings fun s => (Steady.transition s d t).settings
  | bitSyncTimeout d t =>
    refine timed_settings fun s => ?_
    dsimp only
    split
    · exact settings_ite rfl rfl
    · rfl
  | readerFrameTests d => exact running_settings fun s => settings_ite (Steady.readerStep s d).settings rfl
  | stillCountReached d => exact running_settings fun s => settings_ite (Steady.readerStep s d).settings rfl
  | commandSent d t =>
    exact timed_settings fun s => settings_ite (settings_ite rfl (Steady.hand _ _).settings) rfl
  | replyTimeout d t => exact timed_settings fun s => settings_ite (Steady.endCommand _ _ _ _ _).settings rfl
  | deckReplyReceived d cs t => exact timed_settings fun s => (Steady.portBytes s d t cs).settings
  | deckGapTimeout d t =>
    exact timed_settings fun s => settings_ite
      (settings_ite (Steady.endCommand _ _ _ _ _).settings (portBreaks_settings s d)) rfl
  | recoveryQuiet d t =>
    exact timed_settings fun s => settings_ite ((Steady.hand _ _).settings.trans (portBreaks_settings s d)) rfl
  | lateReplyReceived d cs t => exact timed_settings fun s => (Steady.portBytes s d t cs).settings
  | strayFrameReceived d cs t => exact timed_settings fun s => (Steady.portBytes s d t cs).settings
  | attachTimer d t =>
    exact timed_settings fun s => settings_ite ((Steady.putIdentify _ _).trans (Steady.hand _ _)).settings rfl
  | deckPortFrameStart d => exact running_settings fun s => settings_ite (Steady.hand _ _).settings rfl
  | chaseSample d => exact running_settings fun s => settings_ite (Steady.sample s d).settings rfl
  | rollCountExpired d => exact running_settings fun s => settings_ite (Steady.sample s d).settings rfl
  | sequencerFrameStart => exact running_settings fun s => settings_ite (Steady.seqStep s).settings rfl
  | cueTimeout => exact running_settings fun s => (Steady.timeoutStep s _).settings
  | rollTimeout => exact running_settings fun s => (Steady.timeoutStep s _).settings
  | outTimeout => exact running_settings fun s => (Steady.timeoutStep s _).settings
  | postrollTimeout => exact running_settings fun s => settings_ite (Steady.seqStep s).settings rfl
  | transitionFieldStart =>
    refine running_settings fun s => ?_
    split
    · rfl
    · exact (Steady.engineField _ _).settings
  | mixerSendLine =>
    refine running_settings fun s => ?_
    split
    · rfl
    · exact settings_ite rfl rfl
  | gpiFrameStart => exact running_settings fun s => settings_ite (Steady.gpiFrame s).settings rfl
  | gpiLineFire =>
    refine running_settings fun s => ?_
    split
    · rfl
    · exact settings_ite (Steady.fire _ _ _ _).settings rfl
  | gpiPulseEnd o => exact running_settings fun s => settings_ite rfl rfl
  | frameReceived bs t => exact timed_settings fun s => settings_foldl _ (linkByte_settings · t) _ _
  | linkGapTimeout t =>
    refine timed_settings fun s => ?_
    split
    · rfl
    · exact settings_ite (damagedFrame_settings s) rfl
  | unknownRequest =>
    refine running_settings fun s => ?_
    split
    · exact settings_ite rfl rfl
    · rfl
  | outboundSend =>
    refine running_settings fun s => ?_
    split <;> rfl
  | silenceTimeout t => exact timed_settings fun s => settings_ite (Steady.silenceCheck _).settings rfl
  | _ => exact absurd (by simp [requestRows]) row

/-- Every request but those of the settings and the format keeps the settings. -/
theorem exec_request_settings (c : Instr) (other : setsSettings c = false) (request : c ∈ requestRows.map Prod.snd) :
    KeepsSettings s (exec c s) := by
  unfold exec
  cases c with
  | setReaderParams | setServoParams | setEditTimes | setMixerSendLine | setFormat | setSilenceLimit =>
    exact absurd other (by simp [setsSettings])
  | getReference | getEdit | getRun | getTransition | getGpi | getLinkStatus => exact takeRequest_settings fun _ _ => rfl
  | setHouseTime | setLoadWindow | deleteEvents | clearList | resetStatus =>
    exact takeRequest_settings fun _ _ => settings_ite rfl rfl
  | setRouting | setNoticeMask => exact takeRequest_settings fun _ _ => rfl
  | getReader =>
    refine takeRequest_settings fun r s => ?_
    split
    · rfl
    · exact settings_ite rfl rfl
  | deckCommand =>
    refine takeRequest_settings fun r s => ?_
    split
    · rfl
    · dsimp only
      split
      · rfl
      · exact (Steady.hand _ _).settings
      · rfl
  | getDeck | getChase =>
    refine takeRequest_settings fun r s => ?_
    split <;> rfl
  | setPortEnable =>
    refine takeRequest_settings fun r s => ?_
    split
    · rfl
    · exact settings_ite (settings_ite (Steady.enablePort _ _).settings rfl)
        (settings_ite rfl (settings_ite rfl (Steady.disablePort _ _).settings))
  | setChase =>
    refine takeRequest_settings fun r s => ?_
    split
    · dsimp only
      split
      · rfl
      · exact (Steady.linkChase _ _ _ _).settings
    · rfl
  | clearChase =>
    refine takeRequest_settings fun r s => ?_
    split
    · rfl
    · exact settings_ite rfl (Steady.clearLink _ _ _).settings
  | loadEvents | loadContinue =>
    refine takeRequest_settings fun r s => ?_
    unfold State.load
    split <;> rfl
  | readEvent =>
    refine takeRequest_settings fun r s => settings_ite rfl (settings_ite rfl ?_)
    split <;> rfl
  | executeEvent =>
    refine takeRequest_settings fun r s => ?_
    dsimp only
    split
    · rfl
    · exact settings_ite rfl (settings_ite rfl (settings_ite rfl (Steady.startEdit _ _ _).settings))
  | abortEdit => exact takeRequest_settings fun _ _ => settings_ite rfl (Steady.abort _ _).settings
  | allStop =>
    exact takeRequest_settings fun _ _ => (((Steady.abort _ _).trans (.foldl _ (fun _ _ => Steady.clearLink _ _ _) _ _)).trans
      ((Steady.stopAll _ _).trans (Steady.endRun _ _))).settings
  | startRun =>
    refine takeRequest_settings fun r s => ?_
    dsimp only
    split
    · split
      · rfl
      · rfl
      · exact (Steady.runTake _ _ _).settings
    · rfl
  | continueRun =>
    refine takeRequest_settings fun r s => settings_ite rfl ?_
    split
    · rfl
    · exact settings_ite rfl (settings_ite rfl (Steady.runTake _ _ _).settings)
  | skipEvent =>
    refine takeRequest_settings fun r s => settings_ite rfl ((Steady.runAdvance _).settings.trans ?_)
    split <;> rfl
  | pauseRun =>
    refine takeRequest_settings fun r s => ?_
    split <;> [exact (Steady.runMove _ _ _).settings; rfl; exact (Steady.runMove _ _ _).settings; rfl; rfl]
  | stopRun => exact takeRequest_settings fun _ _ => settings_ite (Steady.endRun _ _).settings rfl
  | prepareTransition =>
    refine takeRequest_settings fun r s => ?_
    dsimp only
    split <;> rfl
  | autoTake =>
    refine takeRequest_settings fun r s => ?_
    dsimp only
    split
    · exact engineMove_settings _ _ _
    · exact engineMove_settings _ _ _
    · rfl
    · rfl
    · split
      · rfl
      · refine settings_ite rfl ?_
        split <;> [rfl; exact engineMove_settings _ _ _; exact engineMove_settings _ _ _]
  | cutNow =>
    exact takeRequest_settings fun _ s => settings_ite rfl ((engineMove_settings _ _ _).trans (warnManual_settings s _))
  | resetTransition =>
    exact takeRequest_settings fun _ s => settings_ite (warnManual_settings s _)
      ((engineMove_settings _ _ _).trans (warnManual_settings s _))
  | lever =>
    refine takeRequest_settings fun r s => (Steady.moveLever s _ ?_).settings
    unfold clamp
    omega
  | gpiSet =>
    refine takeRequest_settings fun r s => ?_
    split <;> rfl
  | setRecorder =>
    refine takeRequest_settings fun r s => ?_
    split
    · rfl
    · exact settings_ite rfl (Steady.clearLink _ _ _).settings
  | softReset =>
    refine takeRequest_settings fun r s => settings_ite ?_ rfl
    exact (Steady.foldl _ (fun _ _ => Steady.postEmergency _ _ _ _) _ _).settings
  | _ => exact absurd request (by simp [requestRows])

end

/-! ## The commands that set them (R45, R73, R111, R162, R181, R182) -/

theorem clamp_bounds {lo hi : Nat} (range : lo ≤ hi) (n : Nat) : lo ≤ clamp lo hi n ∧ clamp lo hi n ≤ hi := by
  unfold clamp
  omega

/-- A command's outcome is a next state that keeps the settings in their ranges. -/
def KeepsRanges (s : State) (o : Host.Outcome State Fault Refusal) : Prop :=
  ∃ t, o = .next t ∧ (SettingsOk s → SettingsOk t)

section
variable {s : State}

theorem running_ranges {f : State → State} (h : ∀ s, SettingsOk s → SettingsOk (f s)) : KeepsRanges s (running s f) := by
  refine ⟨_, rfl, fun ok => ?_⟩
  split
  · exact ok
  · exact h s ok

theorem takeRequest_ranges {k : Byte} {f : Request → State → State} (h : ∀ r s, SettingsOk s → SettingsOk (f r s)) :
    KeepsRanges s (takeRequest k s f) := by
  refine running_ranges fun s ok => ?_
  split
  · split
    · dsimp only
      split
      · exact h _ s.dropHead ok
      · exact ok
    · exact ok
  · exact ok

end

/-! ### The ranges, setting by setting -/

/-- The settings of the readers lie within their ranges (R45). -/
def ReaderRanges (x : Settings) : Prop := 5 ≤ x.glitch ∧ x.glitch ≤ 100 ∧ x.flyLimit ≤ 50

/-- The settings of the servo lie within their ranges in format f (Table 5-3). -/
def ServoRanges (f : SuiteFormat) (x : Settings) : Prop :=
  1 ≤ x.coarse ∧ x.coarse ≤ 100 ∧ 1 ≤ x.fine ∧ x.fine ≤ 100 ∧ 10 ≤ x.trim ∧ x.trim ≤ 300 ∧ x.lead ≤ 500 ∧ 1 ≤ x.lockWin ∧
    x.lockWin ≤ 64 ∧ 1 ≤ x.lockCount ∧ x.lockCount ≤ 25 ∧ x.lockWin ≤ x.unlockWin ∧ x.unlockWin ≤ f.lpf ∧ 25 ≤ x.seekWin ∧
    x.seekWin ≤ 1500

/-- The edit times lie within their ranges (R111). -/
def EditRanges (x : Settings) : Prop :=
  25 ≤ x.preroll ∧ x.preroll ≤ 750 ∧ 1 ≤ x.syncMargin ∧ x.syncMargin ≤ 125 ∧ x.postroll ≤ 750 ∧ 250 ≤ x.cueTimeout ∧
    x.cueTimeout ≤ 7500

/-- The send line offset and the one pending lie within their range (R162). -/
def MixerRanges (m : Mixer) : Prop :=
  1 ≤ m.offset ∧ m.offset ≤ 20 ∧ m.pendOff.all (fun n => decide (1 ≤ n ∧ n ≤ 20)) = true

theorem settingsOk_iff (s : State) : SettingsOk s ↔ ReaderRanges s.set ∧ ServoRanges s.fmt s.set ∧ EditRanges s.set ∧
    MixerRanges s.mixer ∧ 200 ≤ s.link.limit ∧ s.link.limit ≤ 10000 := by
  simp only [SettingsOk, ReaderRanges, ServoRanges, EditRanges, MixerRanges, and_assoc]

theorem lockWin_fits_frame (f : SuiteFormat) : 64 ≤ f.lpf := by cases f <;> decide

theorem servo_ranges (x : Settings) (f : SuiteFormat) (ps : List Byte) : ServoRanges f (x.servo f ps) := by
  have frame := lockWin_fits_frame f
  simp only [ServoRanges, Settings.servo, clamp]
  omega

theorem editTimes_ranges (x : Settings) (ps : List Byte) : EditRanges (x.editTimes ps) := by
  simp only [EditRanges, Settings.editTimes, clamp]
  omega

/-- A frame start makes the pending offset current. -/
theorem mixerField_ranges {m : Mixer} (x : FieldStart) (ranges : MixerRanges m) : MixerRanges (m.field x) := by
  obtain ⟨low, high, pending⟩ := ranges
  unfold Mixer.field
  split
  · exact ⟨low, high, pending⟩
  · cases held : m.pendOff with
    | none => exact ⟨low, high, rfl⟩
    | some n =>
      obtain ⟨lowN, highN⟩ : 1 ≤ n ∧ n ≤ 20 := by simpa [held] using pending
      exact ⟨lowN, highN, rfl⟩

/-- The settings of power-on, in the format of power-on (Tables 3-2, 5-5, 7-6, 9-4, 11-2). -/
theorem initial_ranges {t : State} (fmt : t.fmt = .f25) (set : t.set = Settings.initial) (mixer : t.mixer = Mixer.initial)
    (limit : t.link.limit = 2000) : SettingsOk t := by
  simp only [SettingsOk, fmt, set, mixer, limit]
  decide

/-! ### The commands -/

section
variable (s : State)

theorem resetLineRelease_ranges (t : Time) : KeepsRanges s (execResetLineRelease t s) := by
  refine ⟨_, rfl, fun ok => ?_⟩
  split
  · exact initial_ranges rfl rfl rfl rfl
  · exact ok

theorem mixerFieldStart_ranges : KeepsRanges s (execMixerFieldStart s) := by
  refine running_ranges fun s ok => ?_
  split
  · exact ok
  · next x xs _ =>
    obtain ⟨reader, servo, edit, mixer, limit⟩ := (settingsOk_iff s).mp ok
    exact (settingsOk_iff _).mpr ⟨reader, servo, edit, mixerField_ranges x mixer, limit⟩

theorem setReaderParams_ranges : KeepsRanges s (execSetReaderParams s) := by
  refine takeRequest_ranges fun r s ok => ?_
  obtain ⟨-, others⟩ := (settingsOk_iff s).mp ok
  obtain ⟨low, high⟩ := clamp_bounds (lo := 5) (hi := 100) (by decide) (byteN r.params 0)
  obtain ⟨-, few⟩ := clamp_bounds (lo := 0) (hi := 50) (by decide) (byteN r.params 1)
  exact (settingsOk_iff _).mpr ⟨⟨low, high, few⟩, others⟩

theorem setServoParams_ranges : KeepsRanges s (execSetServoParams s) := by
  refine takeRequest_ranges fun r s ok => ?_
  obtain ⟨reader, -, others⟩ := (settingsOk_iff s).mp ok
  have stored : SettingsOk { s with set := s.set.servo s.fmt r.params } :=
    (settingsOk_iff _).mpr ⟨reader, servo_ranges _ _ _, others⟩
  refine settingsOk_of_same ((Steady.ok _ _ _).settings.trans ?_) stored
  exact settings_foldl _ (fun s d => ((Steady.reclampServo s d).trans (Steady.idleLead _ d)).settings) decks _

theorem setEditTimes_ranges : KeepsRanges s (execSetEditTimes s) := by
  refine takeRequest_ranges fun r s ok => ?_
  obtain ⟨reader, servo, -, others⟩ := (settingsOk_iff s).mp ok
  exact (settingsOk_iff _).mpr ⟨reader, servo, editTimes_ranges _ _, others⟩

theorem setMixerSendLine_ranges : KeepsRanges s (execSetMixerSendLine s) := by
  refine takeRequest_ranges fun r s ok => ?_
  obtain ⟨reader, servo, edit, ⟨low, high, -⟩, limit⟩ := (settingsOk_iff s).mp ok
  have pending := clamp_bounds (lo := 1) (hi := 20) (by decide) (byteN r.params 0)
  exact (settingsOk_iff _).mpr ⟨reader, servo, edit, ⟨low, high, decide_eq_true pending⟩, limit⟩

theorem setSilenceLimit_ranges : KeepsRanges s (execSetSilenceLimit s) := by
  refine takeRequest_ranges fun r s ok => ?_
  split
  · exact ok
  · obtain ⟨reader, servo, edit, mixer, -⟩ := (settingsOk_iff s).mp ok
    exact (settingsOk_iff _).mpr ⟨reader, servo, edit, mixer, clamp_bounds (by decide) _⟩

/-- A new format brings the unlock window within its frame, which no lock window exceeds (R17, R73). -/
theorem setFormat_ranges : KeepsRanges s (execSetFormat s) := by
  refine takeRequest_ranges fun r s ok => ?_
  split
  · exact ok
  · next f _ =>
    split
    · exact ok
    · rw [State.changeFormat_eq]
      obtain ⟨reader, servo, edit, mixer, limit⟩ := (settingsOk_iff s).mp ok
      refine (settingsOk_iff _).mpr ⟨reader, ?_, edit, mixer, limit⟩
      have frame := lockWin_fits_frame f
      change ServoRanges f { s.set with unlockWin := min s.set.unlockWin f.lpf }
      unfold ServoRanges at servo ⊢
      dsimp only
      omega

/-- Every command answers a next state and keeps the settings in their ranges. -/
theorem exec_ranges (c : Instr) : KeepsRanges s (exec c s) := by
  by_cases sets : setsSettings c = true
  · unfold exec
    cases c with
    | powerOn => exact ⟨_, rfl, fun _ => initial_ranges rfl rfl rfl rfl⟩
    | resetLineRelease t => exact resetLineRelease_ranges s t
    | mixerFieldStart => exact mixerFieldStart_ranges s
    | setReaderParams => exact setReaderParams_ranges s
    | setServoParams => exact setServoParams_ranges s
    | setEditTimes => exact setEditTimes_ranges s
    | setMixerSendLine => exact setMixerSendLine_ranges s
    | setFormat => exact setFormat_ranges s
    | setSilenceLimit => exact setSilenceLimit_ranges s
    | _ => exact absurd sets (by simp [setsSettings])
  · have other : setsSettings c = false := by simpa using sets
    have kept : KeepsSettings s (exec c s) := by
      by_cases request : c ∈ requestRows.map Prod.snd
      · exact exec_request_settings s c other request
      · exact exec_row_settings s c other request
    obtain ⟨t, answer, same⟩ := kept
    exact ⟨t, answer, settingsOk_of_same same⟩

end

end Sys2Proof.Laws

namespace Sys2Proof.Proofs

open Sys2Proof.Machine Sys2Proof.Safety

/-- Settles O59: a step is a command's answer, and every command keeps the settings in their ranges. -/
theorem settingsStayInRange : Obligations.SettingsStayInRange := by
  intro s t ok stepped
  unfold step at stepped
  split at stepped
  · obtain rfl : s = t := by simpa using stepped
    exact ok
  · next c cs _ =>
    obtain ⟨u, answer, keeps⟩ := Laws.exec_ranges { s with pending := cs } c
    obtain rfl : u = t := by simpa [answer] using stepped
    exact keeps ok

end Sys2Proof.Proofs

/-! ## Settings (R45, R73, R92, R94, R111, R148, R162, R179, R181, R183) -/

namespace Sys2Proof.Machine

open Sys2Proof.Safety

theorem clamp_zero (hi n : Nat) : clamp 0 hi n = min hi n := Nat.zero_max _

/-! ### SET_SERVO_PARAMS at every port and every channel (R73) -/

/-- The port with a waiting VARISPEED brought within its deck's range and the trim limit. -/
def Port.reclamped (trim : Nat) (p : Port) : Port :=
  { p with servo := p.servo.map fun x => { x with cmd := match x.cmd with
    | .varispeed v => .varispeed (clamp (max p.range.1 (1000 - trim)) (min p.range.2 (1000 + trim)) v)
    | c => c } }

/-- The channel with the locate lead setting, if IDLE, as its current lead. -/
def Channel.withLead (lead : Nat) (c : Channel) : Channel := if c.st = .idle then { c with lead := lead } else c

theorem State.setChan_chan (s : State) (d : Deck) : s.setChan d (s.chan d) = s := by
  have same : s.chase.set d.val (s.chan d) = s.chase := Vector.set_getElem_self d.isLt
  rw [State.setChan, same]

/-- A SERVO slot without a VARISPEED stays as it is. -/
theorem Port.reclamped_eq_self {p : Port} (trim : Nat) (others : ∀ v gen loc, p.servo ≠ some ⟨.varispeed v, gen, loc⟩) :
    p.reclamped trim = p := by
  have kept : (p.reclamped trim).servo = p.servo := by
    cases waits : p.servo with
    | none => simp only [Port.reclamped, waits, Option.map_none]
    | some x =>
      obtain ⟨cmd, gen, loc⟩ := x
      cases cmd with
      | varispeed v => exact absurd waits (others v gen loc)
      | _ => simp only [Port.reclamped, waits, Option.map_some]
  exact congrArg (fun x => { p with servo := x }) kept

theorem State.reclampServo_eq (s : State) (d : Deck) :
    s.reclampServo d = s.setPort d ((s.port d).reclamped s.set.trim) := by
  unfold State.reclampServo
  split
  · next waits => simp only [Port.reclamped, waits, Option.map_some, State.speedBounds]
  · next others => rw [Port.reclamped_eq_self _ others, State.setPort_port]

theorem State.idleLead_eq (s : State) (d : Deck) : s.idleLead d = s.setChan d ((s.chan d).withLead s.set.lead) := by
  by_cases idle : (s.chan d).st = .idle
  · simp only [State.idleLead, Channel.withLead, if_pos idle]
  · simp only [State.idleLead, Channel.withLead, if_neg idle, State.setChan_chan]

/-- One of six after another, each by its own value. -/
theorem foldl_decks_set {α : Type} (g : α → α) (v : Vector α 6) :
    decks.foldl (fun v d => v.set d.val (g v[d.val])) v = v.map g := by
  ext i hi
  interval_cases i <;> simp [decks]

/-- Every port and every channel in turn, each by its own value. -/
theorem State.foldl_servo (ds : List Deck) (s : State) :
    ds.foldl (fun s d => (s.reclampServo d).idleLead d) s = { s with
      ports := ds.foldl (fun v d => v.set d.val (v[d.val].reclamped s.set.trim)) s.ports
      chase := ds.foldl (fun v d => v.set d.val (v[d.val].withLead s.set.lead)) s.chase } := by
  induction ds generalizing s with
  | nil => rfl
  | cons d ds ih =>
    rw [List.foldl_cons, State.reclampServo_eq, State.idleLead_eq, ih]
    rfl

/-- SET_SERVO_PARAMS at all six decks. -/
theorem State.foldl_decks_servo (s : State) :
    decks.foldl (fun s d => (s.reclampServo d).idleLead d) s = { s with
      ports := s.ports.map (Port.reclamped s.set.trim), chase := s.chase.map (Channel.withLead s.set.lead) } := by
  rw [State.foldl_servo, foldl_decks_set, foldl_decks_set]

/-! ### SET_RECORDER (R92, R183) -/

theorem State.enter_setClaim (s : State) (d : Deck) (k : NoticeKind) (n : Nat) (c : List Val) (x : Claim) :
    (s.enter k n c).setClaim d x = (s.setClaim d x).enter k n c := by
  simp only [State.enter_eq]
  rfl

theorem State.enter_ok (s : State) (k : NoticeKind) (n : Nat) (c : List Val) (r : Request) (v : List Val) :
    (s.enter k n c).ok r v = (s.ok r v).enter k n c := by
  simp only [State.enter_eq]
  rfl

/-- A link chase that is cleared: the slot but for a STOP, the claim, the channel and the entry. -/
theorem State.clearLink_active {s : State} {d : Deck} (link : (s.chan d).owner = some .link) (active : (s.chan d).st ≠ .idle)
    (why : ChaseCause) : s.clearLink d why =
      ((s.setPort d { s.port d with claim := .free, servo := (s.port d).servo.filter fun c => c.cmd == .stop }).setChan d
        (Channel.idle s.set.lead ((s.chan d).gen + 1) (s.chan d).loc)).enter .chaseState (Deck.num d)
          ((Channel.idle s.set.lead ((s.chan d).gen + 1) (s.chan d).loc).noticeContent (s.chan d).st why) := by
  let u := s.setPort d (s.port d).dropServo
  have cleared : s.clearLink d why = ((u.setChan d (Channel.idle s.set.lead ((s.chan d).gen + 1) (s.chan d).loc)).enter
      .chaseState (Deck.num d) ((Channel.idle s.set.lead ((s.chan d).gen + 1) (s.chan d).loc).noticeContent (s.chan d).st
        why)).setClaim d .free := by simp only [State.clearLink, if_pos link, State.clearChan, if_neg active, u]
  have claim : u.setClaim d .free = s.setPort d { (s.port d).dropServo with claim := .free } := by
    rw [State.setClaim, State.port_setPort, State.setPort_setPort]
  rw [cleared, State.enter_setClaim]
  exact congrArg (fun v : State => (v.setChan d _).enter _ _ _) claim

/-! ### The requests -/

section
variable {s : State} {r : Request}

/-- A request that is taken leaves what its owner makes of it. -/
theorem takeRequest_done {k : Byte} (taken : Takes s k.toNat r) {f : Request → State → State} {t : State}
    (effect : f r s.dropHead = t) : takeRequest k s f = .next t := by
  rw [Laws.takeRequest_takes s r k f taken, effect]

end

end Sys2Proof.Machine

namespace Sys2Proof.Proofs

open Sys2Proof.Machine Sys2Proof.Safety

/-- Settles O52: each request leaves what its owner makes of the state; the clamped values are those stored and answered. -/
theorem settingsAreClampedAndStored : Obligations.SettingsAreClampedAndStored := by
  refine ⟨fun s r => ⟨fun taken => ?reader, fun taken => ?edit, fun taken => ?routing, fun taken => ?sendLine,
    fun taken free => ?limit, fun taken stands => ?standing⟩, fun s r taken => ?servo, fun s r taken outside => ?noDeck,
    fun s r d taken named => ?recorder, fun s r taken => ?mask⟩
  case reader =>
    change execSetReaderParams s = _
    refine takeRequest_done taken ?_
    rw [clamp_zero]
    rfl
  case edit =>
    change execSetEditTimes s = _
    refine takeRequest_done taken ?_
    simp only [Settings.editTimes, clamp_zero]
    rfl
  case routing =>
    change execSetRouting s = _
    refine takeRequest_done taken ?_
    simp only [clamp_zero]
    rfl
  case sendLine =>
    change execSetMixerSendLine s = _
    exact takeRequest_done taken rfl
  case limit =>
    change execSetSilenceLimit s = _
    refine takeRequest_done taken (if_neg ?_)
    exact ne_true_of_eq_false free
  case standing =>
    change execSetSilenceLimit s = _
    exact takeRequest_done taken ((if_pos stands).trans (Laws.refuse_dropHead _ _ _))
  case servo =>
    change execSetServoParams s = _
    refine takeRequest_done taken ?_
    dsimp only
    rw [State.foldl_decks_servo]
    simp only [Settings.servo, clamp_zero]
    rfl
  case noDeck =>
    change execSetRecorder s = _
    refine takeRequest_noDeck taken (fun d => ?_) _
    have := d.isLt
    unfold Deck.num
    omega
  case recorder =>
    let u : State := { s.dropHead with link := { s.dropHead.link with recorder := d } }
    have recorded : execSetRecorder s = .next (if s.edit.phase ≠ .idle then s.dropHead.refuse r .wrongState
      else (u.clearLink d .cancelled).ok r [.u 1 (Deck.num d)]) := takeRequest_deck taken named _
    change (_ → execSetRecorder s = _) ∧ (_ → _ → execSetRecorder s = _) ∧ (_ → _ → _ → execSetRecorder s = _)
    rw [recorded]
    refine ⟨fun busy => ?_, fun idle other => ?_, fun idle link active => ?_⟩
    · rw [if_pos busy, Laws.refuse_dropHead]
    · have untouched : u.clearLink d .cancelled = u := if_neg other
      rw [if_neg (not_not.mpr idle), untouched]
      rfl
    · rw [if_neg (not_not.mpr idle), State.clearLink_active (s := u) link active, State.enter_ok]
      rfl
  case mask =>
    change execSetNoticeMask s = _
    have mask : maskOf (natAt r.params 0 2) = BitVec.ofNat 13 (natAt r.params 0 2) &&& 0x1FDF :=
      congrArg (BitVec.ofNat 13 (natAt r.params 0 2) &&& ·) (by decide)
    refine takeRequest_done taken ?_
    rw [mask]
    rfl

end Sys2Proof.Proofs

/-! ## Transitions at a timecode input (R30, R31) -/

namespace Sys2Proof.Machine

/-! ### The cases of a transition -/

section
variable {s : State} {d : Deck} {t : Time}

theorem State.transition_first (first : (s.reader d).openFrom = none) :
    s.transition d t = s.setReader d { s.reader d with openFrom := some t } := by
  simp only [State.transition, first]

section
variable {o : Time} (opened : (s.reader d).openFrom = some o)
include opened

theorem State.transition_interval (whole : s.set.glitch * 1000 ≤ t - o) (empty : (s.reader d).pend = none) :
    s.transition d t = s.setReader d { s.reader d with
      openFrom := some t, pend := some { len := t - o, closedAt := t, house := s.house } } := by
  simp only [State.transition, opened, if_neg whole.not_gt, empty]

/-- The interval that was pending is released when the next one closes. -/
theorem State.transition_release {p : Interval} (whole : s.set.glitch * 1000 ≤ t - o) (pending : (s.reader d).pend = some p) :
    s.transition d t = (s.release d p).setReader d { (s.release d p).reader d with
      openFrom := some t, pend := some { len := t - o, closedAt := t, house := s.house } } := by
  simp only [State.transition, opened, if_neg whole.not_gt, pending]

theorem State.transition_glitch {p : Interval} (glitch : t - o < s.set.glitch * 1000) (pending : (s.reader d).pend = some p) :
    s.transition d t = s.setReader d { s.reader d with openFrom := some (p.closedAt - p.len), pend := none } := by
  simp only [State.transition, opened, if_pos glitch, pending]

theorem State.transition_glitch_first (glitch : t - o < s.set.glitch * 1000) (empty : (s.reader d).pend = none) :
    s.transition d t = s.setReader d { s.reader d with openFrom := none } := by
  simp only [State.transition, opened, if_pos glitch, empty]

end

/-! ### The rows -/

variable (up : s.asserted = false)
include up

theorem exec_tcTransition : exec (.tcTransition d t) s = .next ((s.tick t).transition d t) :=
  Laws.timed_next s t (·.transition d t) up

/-- The loss of bit sync (R31). -/
theorem exec_bitSyncTimeout {p : Interval} (reading : (s.reader d).dec = .reading) (pending : (s.reader d).pend = some p)
    (late : 3 * (s.reader d).est < 2 * (t - p.closedAt)) :
    exec (.bitSyncTimeout d t) s = .next ((s.tick t).setReader d { (s.reader d).search with pend := none }) := by
  unfold exec
  refine (Laws.timed_next s t _ up).trans (congrArg Host.Outcome.next ?_)
  change (match (s.reader d).dec, (s.reader d).pend with | .reading, some p => _ | _, _ => _) = _
  rw [reading, pending]
  exact if_pos late

end

end Sys2Proof.Machine

namespace Sys2Proof.Proofs

open Sys2Proof.Machine

/-- Settles O12: each clause is the case of `State.transition`, or of the timeout, that its interval names. -/
theorem transitionsAndBitSync : Obligations.TransitionsAndBitSync := by
  refine ⟨fun s d t o up => ?_, fun s d t p up reading pending late => exec_bitSyncTimeout up reading pending late,
    fun s d t up none => exec_bitSyncTimeout_early up (.inr (by simp [none]))⟩
  rw [exec_tcTransition up]
  let u := s.tick t
  exact ⟨fun first => congrArg _ (State.transition_first (s := u) first),
    fun opened whole empty => congrArg _ (State.transition_interval (s := u) opened whole empty),
    fun p opened whole pending => congrArg _ (State.transition_release (s := u) opened whole pending),
    fun p opened glitch pending => congrArg _ (State.transition_glitch (s := u) opened glitch pending),
    fun opened glitch empty => congrArg _ (State.transition_glitch_first (s := u) opened glitch empty)⟩

end Sys2Proof.Proofs

/-! ## From intervals to bits and words (R31 to R34) -/

namespace Sys2Proof.Machine

theorem State.setReader_setReader (s : State) (d : Deck) (x y : Reader) : (s.setReader d x).setReader d y = s.setReader d y := by
  simp [State.setReader]

/-! ### A released interval -/

section
variable {r : Reader} {m : Nat}

/-- The interval is a full one (R31). -/
abbrev Reader.Full (r : Reader) (m : Nat) : Prop := 3 * r.est ≤ 4 * m ∧ 2 * m ≤ 3 * r.est

theorem classify_full (full : r.Full m) : classify r.est m = .full := by
  obtain ⟨long, short⟩ := full
  simp only [classify, if_neg long.not_gt, if_pos short]

theorem classify_half (half : 4 * m < 3 * r.est) : classify r.est m = .half := if_pos half

theorem Reader.interval_overLong (past : 3 * r.est < 2 * m) (long : 3 * r.est ≤ 4 * m) :
    r.interval m = ({ r.search with est := clampEst m }, none) := by
  have overLong : classify r.est m = .overLong := by simp only [classify, if_neg long.not_gt, if_neg past.not_ge]
  simp only [Reader.interval, overLong]

theorem Reader.interval_full (full : r.Full m) (whole : r.half = none) :
    r.interval m = { r with est := newEst r.est m, halfRun := 0, halfMax := 0 }.bitIn false := by
  simp only [Reader.interval, classify_full full, whole]

/-- A full interval behind a half is a bit error, and begins a new run. -/
theorem Reader.interval_bitError {h : Nat} (full : r.Full m) (pending : r.half = some h) :
    r.interval m = ({ r.search with est := newEst r.est m, run := 1, window := [false] }, none) := by
  simp only [Reader.interval, classify_full full, pending]

theorem Reader.countHalf_reading (reading : r.dec = .reading) : r.countHalf m = r := by simp only [Reader.countHalf, reading]

theorem Reader.countHalf_searching (searching : r.dec = .searching) :
    r.countHalf m = { r with halfRun := r.halfRun + 1, halfMax := max r.halfMax m } := by
  simp only [Reader.countHalf, searching]

section
variable (half : 4 * m < 3 * r.est)
include half

/-- The 40th half of a half-run is a run of whole cells: the estimate is reseeded. -/
theorem Reader.interval_reseed {x : Reader} (counted : r.countHalf m = x) (many : 40 ≤ x.halfRun) :
    r.interval m = ({ x.search with est := clampEst x.halfMax }, none) := by
  simp only [Reader.interval, classify_half half, counted, if_pos many]

theorem Reader.interval_half {x : Reader} (counted : r.countHalf m = x) (few : x.halfRun < 40) (first : x.half = none) :
    r.interval m = ({ x with half := some m }, none) := by
  simp only [Reader.interval, classify_half half, counted, if_neg few.not_ge, first]

theorem Reader.interval_pair {x : Reader} {h : Nat} (counted : r.countHalf m = x) (few : x.halfRun < 40)
    (second : x.half = some h) : r.interval m = { x with est := newEst x.est (h + m), half := none }.bitIn true := by
  simp only [Reader.interval, classify_half half, counted, if_neg few.not_ge, second]

end

end

/-! ### A decoded bit -/

section
variable {r : Reader} {b : Bool}

/-- The window with one more bit. -/
def Reader.shifted (r : Reader) (b : Bool) : List Bool := (b :: r.window).take 80

/-- The bits of the window since sync or the last word, with one more. -/
def Reader.counted (r : Reader) : Nat := min 80 (r.since + 1)

theorem Reader.bitIn_run (searching : r.dec = .searching) (short : r.run + 1 < 16) :
    r.bitIn b = ({ r with window := r.shifted b, run := r.run + 1 }, none) := by
  simp only [Reader.bitIn, searching, Reader.searchBit, if_pos short, Reader.shifted]

theorem Reader.bitIn_gain (searching : r.dec = .searching) (enough : 16 ≤ r.run + 1) :
    r.bitIn b = ({ r with
      dec := .reading, window := (r.shifted b).take 16, since := 16, rev := none, run := 0, halfRun := 0
      halfMax := 0 }, none) := by
  simp only [Reader.bitIn, searching, Reader.searchBit, if_neg enough.not_gt, Reader.shifted]

section
variable (reading : r.dec = .reading)
include reading

theorem Reader.bitIn_reverse {k : Nat} (rev : r.rev = some k) (more : 2 ≤ k) :
    r.bitIn b = ({ r with window := r.shifted b, since := r.counted, rev := some (k - 1) }, none) := by
  simp only [Reader.bitIn, reading, Reader.readBit, rev, if_neg (show ¬k ≤ 1 by omega), Reader.shifted, Reader.counted]

theorem Reader.bitIn_reverse_last (rev : r.rev = some 1) :
    r.bitIn b = ({ r with window := r.shifted b, rev := none, since := 0 },
      some { cells := r.shifted b, dir := .reverse }) := by
  simp only [Reader.bitIn, reading, Reader.readBit, rev, if_pos le_rfl, Reader.shifted]

variable (noRev : r.rev = none)
include noRev

theorem Reader.bitIn_forward (sync : (r.shifted b).take 16 = syncForward) (whole : 80 ≤ r.counted) :
    r.bitIn b = ({ r with window := r.shifted b, rev := none, since := 0 },
      some { cells := (r.shifted b).reverse, dir := .forward }) := by
  unfold Reader.shifted Reader.counted at *
  simp only [Reader.bitIn, reading, Reader.readBit, noRev, sync, whole, and_self, if_true]

theorem Reader.bitIn_reversed (sync : (r.shifted b).take 16 = syncReverse) :
    r.bitIn b = ({ r with window := r.shifted b, since := r.counted, rev := some 64 }, none) := by
  have notForward : syncReverse ≠ syncForward := by decide
  unfold Reader.shifted at *
  simp only [Reader.bitIn, reading, Reader.readBit, noRev, sync, notForward, false_and, if_false, if_true, Reader.counted]

theorem Reader.bitIn_plain (forward : ¬((r.shifted b).take 16 = syncForward ∧ 80 ≤ r.counted))
    (reversed : (r.shifted b).take 16 ≠ syncReverse) :
    r.bitIn b = ({ r with window := r.shifted b, since := r.counted }, none) := by
  unfold Reader.shifted Reader.counted at *
  simp only [Reader.bitIn, reading, Reader.readBit, noRev, if_neg forward, if_neg reversed]

end

end

/-! ### The transition that releases an interval -/

section
variable {s : State} {d : Deck} {t o : Time} {p : Interval} {x : Reader} (up : s.asserted = false)
  (opened : (s.reader d).openFrom = some o) (whole : s.set.glitch * 1000 ≤ t - o) (pending : (s.reader d).pend = some p)
include up opened whole pending

/-- An interval that completes no word leaves the reader alone, with the next interval pending. -/
theorem exec_tcTransition_noWord (released : (s.reader d).interval p.len = (x, none)) :
    exec (.tcTransition d t) s = .next ((s.tick t).setReader d { x with
      openFrom := some t, pend := some { len := t - o, closedAt := t, house := s.house } }) := by
  have left : (s.tick t).release d p = (s.tick t).setReader d x := by
    have here : ((s.tick t).reader d).interval p.len = _ := released
    simp only [State.release, here]
  rw [exec_tcTransition up, State.transition_release (s := s.tick t) opened whole pending, left, State.reader_setReader,
    State.setReader_setReader]
  rfl

/-- A completed word is taken with the stamp of the interval's closing transition (R34). -/
theorem exec_tcTransition_word {c : TakenWord} (released : (s.reader d).interval p.len = (x, some c)) :
    let u := ((s.tick t).setReader d x).takeWord d c p.house
    exec (.tcTransition d t) s = .next (u.setReader d { u.reader d with
      openFrom := some t, pend := some { len := t - o, closedAt := t, house := s.house } }) := by
  have left : (s.tick t).release d p = ((s.tick t).setReader d x).takeWord d c p.house := by
    have here : ((s.tick t).reader d).interval p.len = _ := released
    simp only [State.release, here]
  rw [exec_tcTransition up, State.transition_release (s := s.tick t) opened whole pending, left]
  rfl

end

end Sys2Proof.Machine

namespace Sys2Proof.Proofs

open Sys2Proof.Machine

/-- Settles O13: each clause is what `Reader.interval` makes of the interval, or `Reader.bitIn` of the bit it decodes. -/
theorem intervalsBecomeBitsAndWords : Obligations.IntervalsBecomeBitsAndWords := by
  intro s d t o p up opened whole pending r m quarter next dropped full
  have noWord {x : Reader} (released : r.interval m = (x, none)) : exec (.tcTransition d t) s = next x :=
    exec_tcTransition_noWord up opened whole pending released
  refine ⟨fun past long => noWord (Reader.interval_overLong past long),
    fun h fits half => noWord (Reader.interval_bitError fits half),
    fun half reading few first => noWord (Reader.interval_half half (Reader.countHalf_reading reading) few first),
    fun half searching few first => noWord (Reader.interval_half half (Reader.countHalf_searching searching) few first),
    fun half searching many => noWord (Reader.interval_reseed half (Reader.countHalf_searching searching) many),
    fun b r' decoded => ?_⟩
  have bit : r.interval m = r'.bitIn b := by
    rcases decoded with ⟨rfl, fits, half, rfl⟩ | ⟨rfl, half, reading, few, h, second, rfl⟩ |
      ⟨rfl, half, searching, few, h, second, rfl⟩
    · exact Reader.interval_full fits half
    · exact Reader.interval_pair half (Reader.countHalf_reading reading) few second
    · exact Reader.interval_pair half (Reader.countHalf_searching searching) few second
  have same : r'.dec = r.dec ∧ r'.window = r.window ∧ r'.run = r.run ∧ r'.since = r.since ∧ r'.rev = r.rev := by
    rcases decoded with ⟨-, -, -, rfl⟩ | ⟨-, -, -, -, h, -, rfl⟩ | ⟨-, -, -, -, h, -, rfl⟩ <;>
      exact ⟨rfl, rfl, rfl, rfl, rfl⟩
  obtain ⟨dec, window, run, since, rev⟩ := same
  rw [← dec, ← window, ← run, ← since, ← rev]
  intro w n forward reversed word
  have taken {x : Reader} {c : TakenWord} (ends : r'.bitIn b = ({ x with window := w, rev := none, since := 0 }, some c)) :
      exec (.tcTransition d t) s = word x c :=
    exec_tcTransition_word up opened whole pending (bit.trans ends)
  have goesOn {x : Reader} (decodes : r'.bitIn b = (x, none)) : exec (.tcTransition d t) s = next x :=
    noWord (bit.trans decodes)
  exact ⟨fun searching short => goesOn (Reader.bitIn_run searching short),
    fun searching enough => goesOn (Reader.bitIn_gain searching enough),
    fun k reading rev more => goesOn (Reader.bitIn_reverse reading rev more),
    fun reading rev => taken (Reader.bitIn_reverse_last reading rev),
    fun reading noRev sync full => taken (Reader.bitIn_forward reading noRev sync full),
    fun reading noRev sync => goesOn (Reader.bitIn_reversed reading noRev sync),
    fun reading noRev forward reversed => goesOn (Reader.bitIn_plain reading noRev forward reversed)⟩

end Sys2Proof.Proofs

/-! ## Words (R35 to R39) -/

namespace Sys2Proof.Machine

open Sys2Proof.Safety

/-! ### A good word (R35) -/

theorem SuiteFormat.rate_le (f : SuiteFormat) : f.rate ≤ 30 := by cases f <;> decide

theorem wordOk_iff (f : SuiteFormat) (c : List Bool) : wordOk f c = true ↔ ∃ l : Label, l.legal f = true ∧ wordLabel c = l ∧
    cellNat c 0 4 = l.ff % 10 ∧ cellNat c 4 2 = l.ff / 10 ∧ cellNat c 8 4 = l.ss % 10 ∧ cellNat c 12 3 = l.ss / 10 ∧
    cellNat c 16 4 = l.mm % 10 ∧ cellNat c 20 3 = l.mm / 10 ∧ cellNat c 24 4 = l.hh % 10 ∧ cellNat c 28 2 = l.hh / 10 ∧
    c.getD 6 false = (f == .f30d) := by
  have hh : (wordLabel c).hh = cellNat c 28 2 * 10 + cellNat c 24 4 := rfl
  have mm : (wordLabel c).mm = cellNat c 20 3 * 10 + cellNat c 16 4 := rfl
  have ss : (wordLabel c).ss = cellNat c 12 3 * 10 + cellNat c 8 4 := rfl
  have ff : (wordLabel c).ff = cellNat c 4 2 * 10 + cellNat c 0 4 := rfl
  simp only [wordOk, Bool.and_eq_true, decide_eq_true_eq, beq_iff_eq, and_assoc]
  constructor
  · rintro ⟨h, m, s, u, -, -, -, -, legal, flag⟩
    exact ⟨wordLabel c, legal, rfl, by omega, by omega, by omega, by omega, by omega, by omega, by omega, by omega, flag⟩
  · rintro ⟨_, legal, rfl, u, ut, s, st, m, mt, h, ht, flag⟩
    obtain ⟨⟨hours, minutes, seconds, frames⟩, -⟩ := (Label.legal_iff f _).mp legal
    have rate := f.rate_le
    exact ⟨by omega, by omega, by omega, by omega, by omega, by omega, by omega, by omega, legal, flag⟩

/-! ### Acceptance (R36 to R38) -/

theorem SuiteFormat.along_eq (f : SuiteFormat) (n : Nat) (d : Direction) :
    f.along n d = if d = .forward then f.addFrames n 1 else f.addFrames n (-1) := by cases d <;> rfl

theorem Reader.motion_eq (f : SuiteFormat) (r : Reader) (d : Direction) : r.motion f d = { r with
    speed := if d = .forward then (speedOf f r.est : Int) else -(speedOf f r.est : Int), cls := classOf (speedOf f r.est)
    noWord := 0 } := by cases d <;> rfl

/-- The position record that an accepted word leaves (R38). -/
def Reader.accepted (r : Reader) (w : Word) : Reader :=
  { r with mark := some { frame := w.frame, stamp := w.stamp }, dir := w.dir, user := w.user, fly := 0, src := .ltc }

/-- A word accepted with the reader at r: its record is that of a PRESENT deck alone, and an entry tells of a new source. -/
theorem State.acceptRecord_eq (s : State) (d : Deck) (r : Reader) (w : Word) : (s.setReader d r).acceptRecord d w =
    if (s.port d).presence ≠ .present then s.setReader d r
    else if r.src = .ltc then s.setReader d (r.accepted w)
    else (s.setReader d (r.accepted w)).enter .readerState (Deck.num d) ((r.accepted w).noticeContent r.src .word) := by
  have recorded : (s.setReader d r).acceptRecord d w = if (s.port d).presence = .present then
      (s.setReader d r).readerSource d (r.accepted w) .word else s.setReader d r := by
    rw [State.acceptRecord, State.reader_setReader]
    rfl
  rw [recorded, ite_not]
  refine if_congr Iff.rfl ?_ rfl
  rw [State.readerSource, State.reader_setReader, State.setReader_setReader]
  exact if_congr eq_comm rfl rfl

/-- A reader that has accepted a word, with its count of good words (R37). -/
def Reader.chained (r : Reader) (w : Word) (good : Nat) : Reader :=
  { r with chain := some { frame := w.frame, dir := w.dir, synth := false }, cand := none, good := good }

/-- A word follows the chain. -/
def Word.Follows (f : SuiteFormat) (r : Reader) (w : Word) : Prop := ∃ c, r.chain = some c ∧ w.frame = f.along c.frame w.dir

/-- A word replaces the flywheel's. -/
def Word.Corrects (r : Reader) (w : Word) : Prop :=
  ∃ c, r.chain = some c ∧ c.synth = true ∧ w.frame = c.frame ∧ w.dir = c.dir

/-- A word follows the candidate. -/
def Word.Confirms (f : SuiteFormat) (r : Reader) (w : Word) : Prop := ∃ c, r.cand = some c ∧ w.frame = f.along c.frame w.dir

theorem Word.follows_iff (f : SuiteFormat) (r : Reader) (w : Word) :
    w.Follows f r ↔ r.chain.any (fun c => w.frame == f.along c.frame w.dir) = true := by
  simp [Word.Follows, Option.any_eq_true]

theorem Word.corrects_iff (r : Reader) (w : Word) :
    w.Corrects r ↔ r.chain.any (fun c => c.synth && w.frame == c.frame && w.dir == c.dir) = true := by
  simp [Word.Corrects, Option.any_eq_true, and_assoc]

theorem Word.confirms_iff (f : SuiteFormat) (r : Reader) (w : Word) :
    w.Confirms f r ↔ r.cand.any (fun c => w.frame == f.along c.frame w.dir) = true := by
  simp [Word.Confirms, Option.any_eq_true]

section
variable {s : State} {d : Deck} {w : Word}

theorem State.goodWord_chain (chain : w.Follows s.fmt (s.reader d) ∨ w.Corrects (s.reader d)) : s.goodWord d w =
    (s.setReader d (((s.reader d).motion s.fmt w.dir).chained w (sat16 ((s.reader d).good + 1)))).acceptRecord d w := by
  by_cases follows : w.Follows s.fmt (s.reader d)
  · exact if_pos ((w.follows_iff _ _).mp follows)
  · have corrects := chain.resolve_left follows
    exact (if_neg ((w.follows_iff _ _).not.mp follows)).trans (if_pos ((w.corrects_iff _).mp corrects))

section
variable (follows : ¬w.Follows s.fmt (s.reader d)) (corrects : ¬w.Corrects (s.reader d))
include follows corrects

theorem State.goodWord_confirm (confirms : w.Confirms s.fmt (s.reader d)) : s.goodWord d w =
    (s.setReader d (((s.reader d).motion s.fmt w.dir).chained w 2)).acceptRecord d w :=
  (if_neg ((w.follows_iff _ _).not.mp follows)).trans ((if_neg ((w.corrects_iff _).not.mp corrects)).trans
    (if_pos ((w.confirms_iff _ _).mp confirms)))

theorem State.goodWord_candidate (confirms : ¬w.Confirms s.fmt (s.reader d)) : s.goodWord d w =
    s.setReader d { (s.reader d).motion s.fmt w.dir with cand := some w, good := 0 } :=
  (if_neg ((w.follows_iff _ _).not.mp follows)).trans ((if_neg ((w.corrects_iff _).not.mp corrects)).trans
    (if_neg ((w.confirms_iff _ _).not.mp confirms)))

end

end

/-! ### Extrapolation (R39) -/

/-- A move on the day circle of lines, as R10 writes it. -/
theorem SuiteFormat.addLines_eq (f : SuiteFormat) (p : Nat) (z : Int) :
    f.addLines p z = ((p + z) % ((f.dayLen : Int) * f.lpf)).toNat := by
  rw [SuiteFormat.addLines, SuiteFormat.dayLines, Nat.cast_mul]

section
variable {s : State} {d : Deck} {m : Mark} {t : Nat}

theorem State.extrap_none (absent : (s.reader d).src = .none ∨ (s.reader d).mark = none) : s.extrap d t = none := by
  unfold State.extrap
  dsimp only
  rcases absent with source | mark
  · rw [source]
  · rw [mark]
    cases (s.reader d).src <;> rfl

variable (mark : (s.reader d).mark = some m)
include mark

theorem State.extrap_ltc (source : (s.reader d).src = .ltc ∨ (s.reader d).src = .flywheel) : s.extrap d t =
    some (match (s.reader d).dir with
      | .forward => s.fmt.addLines ((m.frame + 1) * s.fmt.lpf) (s.fmt.dLines t m.stamp)
      | .reverse => s.fmt.addLines (m.frame * s.fmt.lpf) (-(s.fmt.dLines t m.stamp))) := by
  rcases source with source | source <;> simp only [State.extrap, source, mark] <;> rfl

theorem State.extrap_line (source : (s.reader d).src = .line) : s.extrap d t =
    some (if (s.port d).moving then s.fmt.addLines (m.frame * s.fmt.lpf) (s.fmt.dLines t m.stamp)
      else m.frame * s.fmt.lpf) := by
  simp only [State.extrap, source, mark]

end

end Sys2Proof.Machine

namespace Sys2Proof.Proofs

open Sys2Proof.Machine

/-- Settles O14: the checks as digits of a label, the word by what it follows, and the position by the record's source. -/
theorem wordsAreCheckedAndAccepted : Obligations.WordsAreCheckedAndAccepted := by
  refine ⟨wordOk_iff, fun s d w stamp => ?words, fun s d t => State.extrap_none, fun s d m t mark => ?position⟩
  case words =>
    intro f r n user v heard on follows corrects confirms chained taken
    let x : Word := w.word f stamp
    have motion : r.motion f w.dir = heard := r.motion_eq f w.dir
    have along (k : Nat) : f.along k w.dir = on k := f.along_eq k w.dir
    have accepted (good : Nat) : (s.setReader d ((r.motion f w.dir).chained x good)).acceptRecord d x = taken good := by
      rw [motion]
      exact State.acceptRecord_eq s d (chained good) x
    have followsIff : x.Follows f r ↔ follows := by simp only [Word.Follows, follows, ← along]; rfl
    have confirmsIff : x.Confirms f r ↔ confirms := by simp only [Word.Confirms, confirms, ← along]; rfl
    have checked (ok : wordOk f w.cells = true) : s.takeWord d w stamp = s.goodWord d x := if_pos ok
    refine ⟨fun bad => if_neg (Bool.not_eq_true _ ▸ bad), fun ok => ?_⟩
    rw [checked ok, ← followsIff, ← confirmsIff]
    refine ⟨fun chain => (State.goodWord_chain chain).trans (accepted _),
      fun new other confirm => (State.goodWord_confirm new other confirm).trans (accepted _),
      fun new other first => (State.goodWord_candidate new other first).trans ?_⟩
    change s.setReader d { r.motion f w.dir with cand := some x, good := 0 } = _
    rw [motion]
    rfl
  case position =>
    intro f day gone
    refine ⟨fun source forward => ?_, fun source reverse => ?_, fun source moves => ?_, fun source plays records => ?_⟩
    · rw [State.extrap_ltc mark source, forward]
      simp [SuiteFormat.addLines_eq, f, day, gone]
    · rw [State.extrap_ltc mark source, reverse]
      simp [SuiteFormat.addLines_eq, f, day, gone, sub_eq_add_neg]
    · have moving : (s.port d).moving = true := by simpa [Port.moving] using moves
      rw [State.extrap_line mark source, if_pos moving, SuiteFormat.addLines_eq, Nat.cast_mul]
    · have still : ¬(s.port d).moving = true := by simp [Port.moving, plays, records]
      rw [State.extrap_line mark source, if_neg still]

end Sys2Proof.Proofs

/-! ## The frame-start tests of a reader (R40, R41) -/

namespace Sys2Proof.Machine

theorem State.reader_enter (s : State) (k : NoticeKind) (n : Nat) (c : List Val) (d : Deck) :
    (s.enter k n c).reader d = s.reader d := by
  rw [State.enter_eq]
  rfl

/-! ### The record's change of source -/

section
variable {s : State} {d : Deck}

theorem State.readerSource_same {r : Reader} (same : r.src = (s.reader d).src) (c : ReaderCause) :
    s.readerSource d r c = s.setReader d r := if_pos same

theorem State.readerSource_new {r : Reader} (new : r.src ≠ (s.reader d).src) (c : ReaderCause) :
    s.readerSource d r c = (s.setReader d r).enter .readerState (Deck.num d) (r.noticeContent (s.reader d).src c) :=
  if_neg new

end

/-! ### The loss of LTC (R41) -/

/-- The record x of deck d lost at the frame start at t with the extrapolated position p: on line time where the deck gives it,
else without a source. -/
def State.lostRecord (s : State) (d : Deck) (t p : Nat) (x : Reader) : Reader :=
  if (s.port d).hasLineTime = true then { x with
    src := .line, dir := .forward
    mark := some { frame := p / s.fmt.lpf, stamp := s.fmt.addLines t (-((p % s.fmt.lpf : Nat) : Int)) } }
  else { x with src := .none }

theorem State.lostRecord_src (s : State) (d : Deck) (t p : Nat) (x : Reader) : (s.lostRecord d t p x).src.isLtc = false := by
  unfold State.lostRecord
  split <;> rfl

theorem Source.isLtc_iff (x : Source) : x.isLtc = true ↔ x = .ltc ∨ x = .flywheel := by cases x <;> decide

theorem Source.not_isLtc_iff (x : Source) : x.isLtc = false ↔ x = .line ∨ x = .none := by cases x <;> decide

section
variable {s : State} {d : Deck} {t : Nat} {c : ReaderCause}

/-- A record that leaves LTC and the flywheel has a new source. -/
theorem State.readerSource_lost {r : Reader} (ltc : (s.reader d).src.isLtc = true) (lost : r.src.isLtc = false) :
    s.readerSource d r c = (s.setReader d r).enter .readerState (Deck.num d) (r.noticeContent (s.reader d).src c) := by
  refine State.readerSource_new (fun same => ?_) c
  rw [same, ltc] at lost
  exact absurd lost (by decide)

theorem State.loseLtc_eq {p : Nat} (position : s.extrap d t = some p) (ltc : (s.reader d).src.isLtc = true) :
    s.loseLtc d t c = (s.setReader d (s.lostRecord d t p (s.reader d))).enter .readerState (Deck.num d)
      ((s.lostRecord d t p (s.reader d)).noticeContent (s.reader d).src c) := by
  have lost : s.loseLtc d t c = s.readerSource d (s.lostRecord d t p (s.reader d)) c := by
    unfold State.loseLtc State.lostRecord
    rw [position]
    dsimp only
    split <;> rfl
  rw [lost, State.readerSource_lost ltc (s.lostRecord_src d t p _)]

/-- A deck that gives no line time leaves the record without a source, be it extrapolated or not. -/
theorem State.loseLtc_noLine (noLine : (s.port d).hasLineTime = false) (ltc : (s.reader d).src.isLtc = true) :
    s.loseLtc d t c = (s.setReader d { s.reader d with src := .none }).enter .readerState (Deck.num d)
      ({ s.reader d with src := .none }.noticeContent (s.reader d).src c) := by
  have lost : s.loseLtc d t c = s.readerSource d { s.reader d with src := .none } c := by
    unfold State.loseLtc
    rw [noLine]
    split <;> rfl
  rw [lost, State.readerSource_lost ltc (by rfl)]

/-! ### The stillness test (R40 step 2) -/

/-- A reader after one more frame start without a word. -/
def Reader.stiller (r : Reader) : Reader :=
  { r with noWord := min 3 (r.noWord + 1), cls := if min 3 (r.noWord + 1) = 3 then .still else r.cls }

theorem Reader.stiller_few {r : Reader} (few : min 3 (r.noWord + 1) < 3) :
    r.stiller = { r with noWord := min 3 (r.noWord + 1) } := by
  simp only [Reader.stiller, if_neg few.ne]

theorem Reader.stiller_third {r : Reader} (third : min 3 (r.noWord + 1) = 3) :
    r.stiller = { r with noWord := min 3 (r.noWord + 1), cls := .still } := by
  simp only [Reader.stiller, if_pos third]

/-- The loss leaves the count and the class. -/
theorem State.stiller_lostRecord (s : State) (d : Deck) (t p : Nat) (x : Reader) : (s.lostRecord d t p x).stiller =
    { s.lostRecord d t p x with noWord := x.stiller.noWord, cls := x.stiller.cls } := by
  unfold State.lostRecord
  split <;> rfl

theorem State.stillness_few (few : min 3 ((s.reader d).noWord + 1) < 3) :
    s.stillness d t = s.setReader d (s.reader d).stiller := by
  rw [Reader.stiller_few few]
  exact if_pos few

theorem State.stillness_third (third : min 3 ((s.reader d).noWord + 1) = 3) (ltc : (s.reader d).src.isLtc = true) :
    s.stillness d t = (s.setReader d (s.reader d).stiller).loseLtc d t .still := by
  rw [Reader.stiller_third third]
  exact (if_neg third.not_lt).trans (if_pos ltc)

theorem State.stillness_quiet (quiet : (s.reader d).src.isLtc = false) :
    s.stillness d t = s.setReader d (s.reader d).stiller := by
  by_cases few : min 3 ((s.reader d).noWord + 1) < 3
  · exact State.stillness_few few
  · rw [Reader.stiller_third (by omega)]
    exact (if_neg few).trans (if_neg (ne_true_of_eq_false quiet))

/-- The count and the class of a reader move no position. -/
theorem State.extrap_stiller : (s.setReader d (s.reader d).stiller).extrap d t = s.extrap d t := by
  unfold State.extrap
  rw [State.reader_setReader]
  rfl

/-- LTC is lost with the third frame start without a word. -/
theorem State.stillness_lost {p : Nat} (third : min 3 ((s.reader d).noWord + 1) = 3) (ltc : (s.reader d).src.isLtc = true)
    (position : s.extrap d t = some p) : s.stillness d t =
      (s.setReader d (s.lostRecord d t p (s.reader d).stiller)).enter .readerState (Deck.num d)
        ((s.lostRecord d t p (s.reader d).stiller).noticeContent (s.reader d).src .still) := by
  let u := s.setReader d (s.reader d).stiller
  have here : u.reader d = (s.reader d).stiller := State.reader_setReader _ _ _
  rw [State.stillness_third third ltc, State.loseLtc_eq (s := u) (State.extrap_stiller.trans position) (by rw [here]; exact ltc),
    here, State.setReader_setReader]
  rfl

/-- LTC is lost with the third frame start without a word, where the deck gives no line time. -/
theorem State.stillness_lost_noLine (third : min 3 ((s.reader d).noWord + 1) = 3) (ltc : (s.reader d).src.isLtc = true)
    (noLine : (s.port d).hasLineTime = false) : s.stillness d t =
      (s.setReader d { (s.reader d).stiller with src := .none }).enter .readerState (Deck.num d)
        ({ (s.reader d).stiller with src := .none }.noticeContent (s.reader d).src .still) := by
  let u := s.setReader d (s.reader d).stiller
  have here : u.reader d = (s.reader d).stiller := State.reader_setReader _ _ _
  rw [State.stillness_third third ltc, State.loseLtc_noLine (s := u) noLine (by rw [here]; exact ltc),
    here, State.setReader_setReader]
  rfl

/-! ### The tests (R40) -/

theorem State.overdue_iff {m : Mark} (mark : (s.reader d).mark = some m) : s.overdue d t = true ↔
    (s.reader d).src.isLtc = true ∧ (s.reader d).cls = .play ∧ (s.fmt.lpf : Int) + 64 < s.fmt.dLines t m.stamp := by
  simp [State.overdue, mark, and_assoc]

section
variable {m : Mark} (mark : (s.reader d).mark = some m)
include mark

theorem State.readerTests_flywheel (overdue : s.overdue d t = true) (lasts : (s.reader d).fly < s.set.flyLimit) :
    s.readerTests d t = s.flywheel d m := by
  simp only [State.readerTests, mark, if_pos overdue, if_pos lasts]

theorem State.readerTests_limit (overdue : s.overdue d t = true) (past : s.set.flyLimit ≤ (s.reader d).fly) :
    s.readerTests d t = (s.loseLtc d t .limit).stillness d t := by
  simp only [State.readerTests, mark, if_pos overdue, if_neg past.not_gt]

theorem State.readerTests_notPlay (fly : (s.reader d).src = .flywheel) (other : (s.reader d).cls ≠ .play) :
    s.readerTests d t = (s.loseLtc d t .notPlay).stillness d t := by
  have notOverdue : ¬s.overdue d t = true := fun overdue => other ((State.overdue_iff mark).mp overdue).2.1
  simp only [State.readerTests, mark, if_neg notOverdue, if_pos (And.intro fly other)]

end

/-- A record that is not overdue, of a flywheel at play speed or of another source, is tested for stillness alone. -/
theorem State.readerTests_stillness (inTime : s.overdue d t = false)
    (atSpeed : ¬((s.reader d).src = .flywheel ∧ (s.reader d).cls ≠ .play)) : s.readerTests d t = s.stillness d t := by
  unfold State.readerTests
  dsimp only
  rw [inTime, if_neg atSpeed]
  split <;> rfl

end

/-! ### The rows -/

/-- A record on LINE or without a source takes the count and its class alone. -/
theorem State.readerTests_quiet {s : State} {d : Deck} {t : Nat} (quiet : (s.reader d).src.isLtc = false) :
    s.readerTests d t = s.setReader d (s.reader d).stiller := by
  have inTime : s.overdue d t = false := by simp [State.overdue, quiet]
  have notFlywheel : (s.reader d).src ≠ .flywheel := fun fly => by simp [fly, Source.isLtc] at quiet
  rw [State.readerTests_stillness inTime fun both => notFlywheel both.1, State.stillness_quiet quiet]


section
variable {s : State} {d : Deck} (up : s.asserted = false) (owed : 0 < s.due.reader[d.val])
include up owed

theorem exec_readerFrameTests : exec (.readerFrameTests d) s = .next (s.readerStep d) :=
  (Laws.running_next s _ up).trans (congrArg Host.Outcome.next (if_pos owed))

/-- STILL_COUNT_REACHED is the step of the tests at which the count reaches 3 (log 7). -/
theorem exec_stillCountReached {t : State} (second : (s.reader d).noWord = 2) (stepped : s.readerStep d = t)
    (third : (t.reader d).noWord = 3) : exec (.stillCountReached d) s = .next t := by
  refine (Laws.running_next s _ up).trans (congrArg Host.Outcome.next ?_)
  rw [if_pos ⟨owed, second, stepped ▸ third⟩, stepped]

end

end Sys2Proof.Machine

namespace Sys2Proof.Proofs

open Sys2Proof.Machine

/-- Settles O15: each clause is the case of `State.readerTests` that its record and its count name. -/
theorem readerFrameStartTests : Obligations.ReaderFrameStartTests := by
  refine ⟨fun s d m up owed => ?flywheel, fun s d p m up owed => ?lost, fun s d up owed => ?quiet, fun s d up owed => ?third⟩
  case flywheel =>
    intro r k source play mark old lasts n new u
    let v : State := { s with due := { s.due with reader := s.due.reader.set d.val (k - 1) } }
    have ltc : r.src.isLtc = true := (Source.isLtc_iff _).mpr source
    have overdue : v.overdue d (s.startInstant k) = true := (State.overdue_iff (s := v) mark).mpr ⟨ltc, play, old⟩
    have stepped : s.readerStep d = v.readerSource d new .flywheel :=
      State.readerTests_flywheel (s := v) mark overdue lasts
    rw [exec_readerFrameTests up owed, stepped]
    refine congrArg Host.Outcome.next ?_
    have flywheelIsNotLtc : Source.flywheel ≠ .ltc := by decide
    rcases source with isLtc | isFlywheel
    · have changed : new.src ≠ (v.reader d).src := fun same => flywheelIsNotLtc (same.trans isLtc)
      rw [State.readerSource_new changed, if_neg (by simp [isLtc])]
      change (v.setReader d new).enter _ _ (new.noticeContent r.src _) = _
      rw [isLtc]
    · rw [if_pos isFlywheel]
      exact State.readerSource_same (s := v) isFlywheel.symm _
  case lost =>
    intro r k at' old n u lost still loses mark position source
    have ltc : r.src.isLtc = true := (Source.isLtc_iff _).mpr source
    have losing {c : ReaderCause} (stepped : s.readerStep d = (u.loseLtc d at' c).stillness d at') :
        exec (.readerFrameTests d) s = loses c := by
      have gone : (lost r).src.isLtc = false := u.lostRecord_src d at' p r
      have left : u.loseLtc d at' c = (u.setReader d (lost r)).enter .readerState (Deck.num d)
          ((lost r).noticeContent r.src c) := State.loseLtc_eq (s := u) position ltc
      have counts : (lost r).stiller = { lost r with noWord := still.noWord, cls := still.cls } :=
        u.stiller_lostRecord d at' p r
      have here : (u.loseLtc d at' c).reader d = lost r := by rw [left, State.reader_enter, State.reader_setReader]
      rw [exec_readerFrameTests up owed, stepped, State.stillness_quiet (here ▸ gone), here, left, counts]
    have overdueIff : u.overdue d at' = true ↔ r.cls = .play ∧ old := by
      rw [State.overdue_iff (s := u) mark]
      exact and_iff_right ltc
    refine ⟨fun play late past => losing (State.readerTests_limit (s := u) mark (overdueIff.mpr ⟨play, late⟩) past),
      fun other fly => losing (State.readerTests_notPlay (s := u) mark fly other), fun inTime atSpeed => ?_⟩
    have stepped : s.readerStep d = u.stillness d at' :=
      State.readerTests_stillness (s := u) (Bool.eq_false_iff.mpr (overdueIff.not.mpr inTime)) atSpeed
    rw [exec_readerFrameTests up owed, stepped]
    refine ⟨fun few => congrArg _ (State.stillness_few (s := u) few), fun third => congrArg _ ?_⟩
    exact State.stillness_lost (s := u) third ltc position
  case quiet =>
    intro source r n u
    have quiet : r.src.isLtc = false := (Source.not_isLtc_iff _).mpr source
    rw [exec_readerFrameTests up owed]
    exact congrArg _ (State.readerTests_quiet (s := u) quiet)
  case third =>
    intro second r k u
    have third : r.stiller = { r with noWord := 3, cls := .still } := by simp [Reader.stiller, r, second]
    refine ⟨fun source => ?_, fun source inTime noLine => ?_⟩
    · have quiet : r.src.isLtc = false := (Source.not_isLtc_iff _).mpr source
      have stepped : s.readerStep d = u.setReader d { r with noWord := 3, cls := .still } :=
        third ▸ State.readerTests_quiet (s := u) quiet
      exact exec_stillCountReached up owed second stepped (by rw [State.reader_setReader])
    · intro new
      have ltcIsNotFlywheel : Source.ltc ≠ .flywheel := by decide
      have ltc : r.src.isLtc = true := (Source.isLtc_iff _).mpr (.inl source)
      have counted : min 3 (r.noWord + 1) = 3 := by rw [second]; rfl
      have stepped : s.readerStep d = (u.setReader d new).enter .readerState (Deck.num d) (new.noticeContent .ltc .still) := by
        have tested : s.readerStep d = u.stillness d (s.startInstant k) :=
          State.readerTests_stillness (s := u) inTime fun both => ltcIsNotFlywheel (source.symm.trans both.1)
        have lost := State.stillness_lost_noLine (s := u) (t := s.startInstant k) counted ltc noLine
        change _ = (u.setReader d { r.stiller with src := .none }).enter _ _
          ({ r.stiller with src := .none }.noticeContent r.src .still) at lost
        rw [tested, lost, third, source]
      exact exec_stillCountReached up owed second stepped (by rw [State.reader_enter, State.reader_setReader])

end Sys2Proof.Proofs

/-! ## Replies of a deck (R42, R50, R53 to R59, R70, R190) -/

namespace Sys2Proof.Machine

open Sys2Proof.Safety

/-! ### The frame of a reply (R49, R51) -/

/-- Length, code and data of a reply. -/
def replyBody (code : Byte) (data : List Byte) : List Byte := BitVec.ofNat 8 (data.length + 2) :: code :: data

/-- The bytes of a reply, with its check. -/
def replyFrame (code : Byte) (data : List Byte) : List Byte := replyBody code data ++ [xorAll (replyBody code data)]

theorem xorAll_replyFrame (code : Byte) (data : List Byte) : xorAll (replyFrame code data) = 0 := by
  rw [replyFrame, xorAll, List.foldl_append]
  exact BitVec.xor_self

theorem replyFrame_data (code : Byte) (data : List Byte) : ((replyFrame code data).drop 2).dropLast = data :=
  List.dropLast_concat

/-- A byte without an error. -/
def clean (b : Byte) : LineChar := ⟨b, false⟩

theorem RxFrame.pushAll_clean (f : RxFrame) (bs : List Byte) : f.pushAll (bs.map clean) = ⟨f.bytes ++ bs, f.bad⟩ := by
  induction bs generalizing f with
  | nil => simp [RxFrame.pushAll]
  | cons b bs ih =>
    change (f.push (clean b)).pushAll (bs.map clean) = _
    rw [ih]
    simp [RxFrame.push, clean]

/-! ### What a reply is judged to be (R51, R58, R190) -/

theorem judgeReply_frame (c : DeckCmd) (code : Byte) (data : List Byte) : judgeReply c false (replyFrame code data) =
    match code.toNat with
    | 0x80 => if data.length = 0 ∧ c.isSense = false then .acked else .lineError
    | 0x81 => if data.length = 1 then .naked (NakReason.ofByte (byteN data 0)) else .lineError
    | 0x82 => if data.length = 2 ∧ c = .statusSense then .data (.status (statusOf data)) else .lineError
    | 0x83 => if data.length = 4 ∧ c = .timeSense then .data (.time (labelAt data 0)) else .lineError
    | 0x84 => if (Caps.ofByte (data.getD 1 0)).fixedLen ≤ data.length ∧ data.length ≤ 16 ∧ 2 ≤ data.length ∧ c = .identify
      then .data (.ident (identityOf data)) else .lineError
    | _ => .lineError := by
  unfold judgeReply
  rw [xorAll_replyFrame, replyFrame_data]
  rfl

theorem beNat_pair (hi lo : Byte) : beNat [hi, lo] = hi.toNat * 256 + lo.toNat := by simp [beNat]

/-- The bytes of an IDENT_REPLY, the speeds used with VARISPEED and the delays with RECORD (Table 12-7). -/
structure IdentBytes where
  ty    : Byte
  caps  : Byte
  hi    : Byte
  lo    : Byte
  start : Byte
  minHi : Byte
  minLo : Byte
  maxHi : Byte
  maxLo : Byte
  on    : Byte
  off   : Byte
  text  : List Byte

/-- The data as they go. -/
def IdentBytes.data (x : IdentBytes) : List Byte :=
  [x.ty, x.caps, x.hi, x.lo, x.start] ++ (if x.caps.getLsbD 0 then [x.minHi, x.minLo, x.maxHi, x.maxLo] else []) ++
    (if x.caps.getLsbD 1 then [x.on, x.off] else []) ++ x.text

/-- The identity that they spell (Table 4-7). -/
def IdentBytes.identity (x : IdentBytes) : Identity :=
  { typeCode := x.ty.toNat, model := x.text, caps := Caps.ofByte x.caps
    range := if x.caps.getLsbD 0 then some (min 1000 (clamp 500 1500 (x.minHi.toNat * 256 + x.minLo.toNat)),
      max 1000 (clamp 500 1500 (x.maxHi.toNat * 256 + x.maxLo.toNat))) else none
    minPreroll := min 750 (x.hi.toNat * 256 + x.lo.toNat)
    delays := if x.caps.getLsbD 1 then some (min 15 x.on.toNat, min 15 x.off.toNat) else none
    playStart := min 60 x.start.toNat }

theorem IdentBytes.length_data (x : IdentBytes) : x.data.length = (Caps.ofByte x.caps).fixedLen + x.text.length := by
  unfold IdentBytes.data Caps.fixedLen Caps.ofByte
  dsimp only
  cases x.caps.getLsbD 0 <;> cases x.caps.getLsbD 1 <;> simp <;> omega

theorem identityOf_data (x : IdentBytes) : identityOf x.data = x.identity := by
  unfold identityOf IdentBytes.identity IdentBytes.data
  have caps (rest : List Byte) : (x.ty :: x.caps :: rest).getD 1 0 = x.caps := rfl
  have fixed : (Caps.ofByte x.caps).fixedLen = 5 + (if x.caps.getLsbD 0 then 4 else 0) +
    (if x.caps.getLsbD 1 then 2 else 0) := rfl
  simp only [List.cons_append, caps, fixed, clamp_zero]
  have varispeed : (Caps.ofByte x.caps).varispeed = x.caps.getLsbD 0 := rfl
  have record : (Caps.ofByte x.caps).record = x.caps.getLsbD 1 := rfl
  rw [varispeed, record]
  generalize Caps.ofByte x.caps = c
  cases x.caps.getLsbD 0 <;> cases x.caps.getLsbD 1 <;> simp [byteN, natAt, beNat_pair]

theorem judgeReply_ident (x : IdentBytes) (short : x.data.length ≤ 16) :
    judgeReply .identify false (replyFrame 0x84 x.data) = .data (.ident x.identity) := by
  have fits : (Caps.ofByte x.caps).fixedLen ≤ x.data.length := by
    rw [x.length_data]
    exact Nat.le_add_right _ _
  have two : 2 ≤ x.data.length := by simp [IdentBytes.data]
  rw [judgeReply_frame, ← identityOf_data]
  exact if_pos ⟨fits, short, two, rfl⟩

/-! ### The outcome of a reply (R50, R53, R55, R70) -/

/-- The port that a reply at t leaves, before its data is taken. -/
def Port.heard (p : Port) (t : Time) : Port := { p with line := .receiving, flight := none, rx := none, byteAt := t }

/-- The port whose reply is judged and taken: the line is free, and the failure count of a PRESENT deck clear. -/
def Port.replied (p : Port) (y : CmdOutcome DataReply) : Port :=
  { p with line := .idle, fails := if p.presence = .present then 0 else p.fails, nak := y.nakOr p.nak }

/-- s with deck d's line freed by a reply judged y. -/
def State.freed (s : State) (d : Deck) (y : CmdOutcome DataReply) : State := s.setPort d ((s.port d).replied y)

section
variable (s : State) (d : Deck) (y : CmdOutcome DataReply)

theorem State.freed_setPort (q : Port) : (s.setPort d q).freed d y = s.setPort d (q.replied y) := by
  rw [State.freed, State.port_setPort, State.setPort_setPort]

theorem State.freed_setReader (r : Reader) : (s.setReader d r).freed d y = (s.freed d y).setReader d r := rfl

theorem State.enter_fmt (k : NoticeKind) (n : Nat) (c : List Val) : (s.enter k n c).fmt = s.fmt := by
  rw [State.enter_eq]
  rfl

theorem State.freed_enter (k : NoticeKind) (n : Nat) (c : List Val) : (s.enter k n c).freed d y = (s.freed d y).enter k n c := by
  simp only [State.enter_eq]
  rfl

end

/-- The data of an outcome is taken into the record and the reader. -/
def State.takeOutcome (s : State) (d : Deck) (y : CmdOutcome DataReply) : State :=
  match y with
  | .data x => s.takeData d x
  | .acked => s
  | .naked _ => s
  | .lineError => s
  | .timeout => s

/-- The data of an outcome is taken, then its originator told, then the outcome counted (log 19). -/
theorem State.outcome_eq {s : State} {d : Deck} {x : Flight} (flight : (s.port d).flight = some x)
    {y : CmdOutcome DataReply} {received : List Byte} : s.outcome d y received =
      (((s.setPort d { s.port d with flight := none, rx := none }).takeOutcome d y).handBack d x y received).countOutcome d
        y := by
  unfold State.outcome
  rw [flight]
  cases y <;> rfl

/-- A poll, or a command passed through, is told of its outcome by the reply to the host alone (R70). -/
theorem State.handBack_answered {s : State} {d : Deck} {c : DeckCmd} {o : Origin} (quiet : o = .poll ∨ o.isPass = true)
    {y : CmdOutcome DataReply} {received : List Byte} {vals : List Val}
    (answer : (passVals s.fmt (((s.port d).tx.drop 2).dropLast) received y).map (Val.fix s.fmt) = vals) :
    s.handBack d ⟨c, o⟩ y received = passAnswered s o vals := by
  cases o with
  | poll => simp [State.handBack, passAnswered, passReply]
  | pass kind tag =>
    rw [← answer]
    rfl
  | _ => simp [Origin.isPass] at quiet

section
variable {s : State} {d : Deck} {t : Time} {c : DeckCmd} {o : Origin}

/-- A whole reply, not damaged, to a poll or a command passed through. -/
theorem exec_deckReplyReceived (up : s.asserted = false) (quiet : o = .poll ∨ o.isPass = true)
    (awaits : (s.port d).line = .awaiting) (noStray : (s.port d).stray = none) (noBytes : (s.port d).rx = none)
    (known : (s.port d).presence ≠ .disabled) (flight : (s.port d).flight = some ⟨c, o⟩) {code : Byte} {data : List Byte}
    (short : data.length ≤ 16) {y : CmdOutcome DataReply} (judged : judgeReply c false (replyFrame code data) = y)
    (replied : y.isFailure = false) {v : State} (taken : ((s.tick t).setPort d ((s.port d).heard t)).takeOutcome d y = v)
    {vals : List Val} (answer : (passVals v.fmt (((v.port d).tx.drop 2).dropLast) data y).map (Val.fix v.fmt) = vals) :
    exec (.deckReplyReceived d ((replyFrame code data).map clean) t) s = .next ((passAnswered (v.freed d y) o
      vals).hand d) := by
  let u := (s.tick t).setPort d ((s.port d).receiving ⟨replyFrame code data, false⟩ t)
  have length : (BitVec.ofNat 8 (data.length + 2)).toNat = data.length + 2 := by
    rw [BitVec.toNat_ofNat, Nat.mod_eq_of_lt (by omega)]
  have whole : (s.tick t).portBytes d t ((replyFrame code data).map clean) = u.endCommand d t y data := by
    have bytes := State.portBytes_reply (s := s.tick t) t awaits noStray noBytes known flight
      (clean (BitVec.ofNat 8 (data.length + 2))) (clean code) ((data ++ [xorAll (replyBody code data)]).map clean)
      (by simp only [clean, length]; omega) (by simp only [clean, length]; omega) (by simp [clean, length])
    have pushed : RxFrame.empty.pushAll ((replyFrame code data).map clean) = ⟨replyFrame code data, false⟩ :=
      RxFrame.pushAll_clean _ _
    refine bytes.trans ?_
    change ((s.tick t).setPort d ((s.port d).receiving (RxFrame.empty.pushAll ((replyFrame code data).map clean)) t)).endCommand
      d t (judgeReply c (RxFrame.empty.pushAll ((replyFrame code data).map clean)).bad
        (RxFrame.empty.pushAll ((replyFrame code data).map clean)).bytes)
      (((RxFrame.empty.pushAll ((replyFrame code data).map clean)).bytes.drop 2).dropLast) = _
    rw [pushed, judged, replyFrame_data]
  have outcome : u.outcome d y data = (passAnswered v o vals).setPort d { v.port d with
      fails := if (v.port d).presence = .present then 0 else (v.port d).fails, nak := y.nakOr (v.port d).nak } := by
    have cleared : u.setPort d { u.port d with flight := none, rx := none } = (s.tick t).setPort d ((s.port d).heard t) := by
      rw [State.port_setPort, State.setPort_setPort]
      rfl
    have inFlight : (u.port d).flight = some ⟨c, o⟩ := by rw [State.port_setPort]; exact flight
    rw [State.outcome_eq inFlight, cleared, taken, State.handBack_answered quiet answer,
      Laws.Steady.countOutcome_port _ _ _ replied]
    rfl
  refine (Laws.timed_next s t (·.portBytes d t _) up).trans (congrArg Host.Outcome.next ?_)
  rw [whole, State.endCommand_replied replied, outcome, State.port_setPort, State.setPort_setPort]
  rfl

end

/-! ### What each reply is taken for (R42, R54, R57, R59) -/

section
variable {s : State} {d : Deck} {q : Port}

/-- A STATUS_REPLY of a PRESENT deck. -/
theorem State.freed_takeStatus (present : q.presence = .present) (flags : BitVec 10) :
    ((s.setPort d q).takeStatus d flags).freed d (.data (.status flags)) =
      (let u := s.setPort d ({ q with flags := some flags, age := 0, fresh := true }.replied (.data (.status flags)))
      if q.flags = some flags then u
      else u.enter .deckStatus (Deck.num d) [.u 2 flags.toNat, .u 2 (flags ^^^ q.flags.getD 0).toNat]) := by
  simp only [State.takeStatus, State.port_setPort, if_pos present, State.setPort_setPort]
  split
  · rw [State.freed_setPort]
  · rw [State.freed_enter, State.freed_setPort]

theorem State.takeStatus_absent (absent : q.presence ≠ .present) (flags : BitVec 10) :
    (s.setPort d q).takeStatus d flags = s.setPort d q := by
  simp only [State.takeStatus, State.port_setPort, if_neg absent]

section
variable (i : Identity)

/-- An IDENT_REPLY attaches an ABSENT deck. -/
theorem State.freed_takeIdent_absent (absent : q.presence = .absent) :
    ((s.setPort d q).takeIdent d i).freed d (.data (.ident i)) =
      (s.setPort d ({ q with presence := .present, ident := some i, fails := 0, attachAt := none }.replied
        (.data (.ident i)))).enter .deckPresence (Deck.num d)
          [.u 1 Presence.present.code, .u 1 PresenceCause.attached.code, .u 1 i.typeCode, .u 1 i.caps.code] := by
  simp only [State.takeIdent, State.port_setPort, absent, State.presenceMove, State.freed_enter, State.setPort_setPort,
    State.freed_setPort]
  rfl

theorem State.freed_takeIdent_new (present : q.presence = .present) (new : q.ident ≠ some i) :
    ((s.setPort d q).takeIdent d i).freed d (.data (.ident i)) =
      (s.setPort d ({ q with ident := some i }.replied (.data (.ident i)))).enter .deckPresence (Deck.num d)
        [.u 1 Presence.present.code, .u 1 PresenceCause.identity.code, .u 1 i.typeCode, .u 1 i.caps.code] := by
  simp only [State.takeIdent, State.port_setPort, present, if_neg new, State.presenceMove, State.freed_enter,
    State.setPort_setPort, State.freed_setPort, Port.presenceContent]
  rfl

theorem State.takeIdent_same (present : q.presence = .present) (same : q.ident = some i) :
    (s.setPort d q).takeIdent d i = s.setPort d q := by
  simp only [State.takeIdent, State.port_setPort, present, if_pos same]

end

/-! A TIME_REPLY's frame number by the source of the record. -/

section
variable {n a : Nat}

theorem State.readerTime_line (line : (s.reader d).src = .line) :
    s.readerTime d n a = s.setReader d { s.reader d with mark := some { frame := n, stamp := a } } := by
  simp only [State.readerTime, line]

theorem State.readerTime_found (source : (s.reader d).src = .none) (gives : (s.port d).hasLineTime = true) :
    s.readerTime d n a =
      let found := { s.reader d with mark := some { frame := n, stamp := a }, dir := .forward, src := .line }
      (s.setReader d found).enter .readerState (Deck.num d) (found.noticeContent .none .timeReply) := by
  simp only [State.readerTime, source, if_pos gives]
  rw [State.readerSource_new (by simp [source]), source]

theorem State.readerTime_ignored (other : (s.reader d).src = .ltc ∨ (s.reader d).src = .flywheel ∨
    ((s.reader d).src = .none ∧ (s.port d).hasLineTime = false)) : s.readerTime d n a = s := by
  rcases other with source | source | ⟨source, gives⟩ <;> simp only [State.readerTime, source]
  exact if_neg (ne_true_of_eq_false gives)

end

end

end Sys2Proof.Machine

namespace Sys2Proof.Proofs

open Sys2Proof.Machine Sys2Proof.Safety

/-- Settles O17: a whole reply ends the command awaited (`exec_deckReplyReceived`); each clause says what its data is
taken for and what the host is answered. -/
theorem deckRepliesAreTaken : Obligations.DeckRepliesAreTaken := by
  intro s d t o up quiet p kept well frame taken awaits noStray noBytes known
  have reply {c : DeckCmd} (flight : p.flight = some ⟨c, o⟩) {code : Byte} {data : List Byte} (short : data.length ≤ 16)
      {y : CmdOutcome DataReply} (judged : judgeReply c false (replyFrame code data) = y) (replied : y.isFailure = false)
      {v u : State} (took : ((s.tick t).setPort d (p.heard t)).takeOutcome d y = v) (left : v.freed d y = u) {vals : List Val}
      (answer : (passVals v.fmt (((v.port d).tx.drop 2).dropLast) data y).map (Val.fix v.fmt) = vals) :
      taken code data u vals := by
    rw [← left]
    exact exec_deckReplyReceived up quiet awaits noStray noBytes known flight short judged replied took answer
  let q := p.heard t
  refine ⟨fun hi lo flight => ?status, fun ty caps hi lo start minHi minLo maxHi maxLo on off text flight => ?ident,
    fun c isPass flight command => ?ack, fun hh mm ss ff flight => ?time, fun c why flight => ?nak⟩
  case status =>
    intro flags u
    have judged : judgeReply .statusSense false (replyFrame 0x82 [hi, lo]) = .data (.status flags) := by
      rw [judgeReply_frame]
      change CmdOutcome.data (DataReply.status (BitVec.ofNat 10 (beNat [hi, lo]))) = _
      rw [beNat_pair]
    refine ⟨fun present => ?_, fun absent => ?_⟩
    · exact reply flight (by simp) judged rfl rfl (State.freed_takeStatus (q := q) present flags) rfl
    · have notPresent : q.presence ≠ .present := by simp [q, Port.heard, absent]
      refine reply flight (by simp) judged rfl (State.takeStatus_absent notPresent flags) ?_ rfl
      rw [State.freed_setPort, Port.replied, if_neg notPresent]
      rfl
  case ident =>
    intro speeds records data within i ok shows short
    have judged := judgeReply_ident ⟨ty, caps, hi, lo, start, minHi, minLo, maxHi, maxLo, on, off, text⟩ short
    refine ⟨fun absent => ?_, fun present new => ?_, fun present same => ?_⟩
    · exact reply flight short judged rfl rfl (State.freed_takeIdent_absent (q := q) i absent) rfl
    · exact reply flight short judged rfl rfl (State.freed_takeIdent_new (q := q) i present new) rfl
    · exact reply flight short judged rfl (State.takeIdent_same (q := q) i present same) (State.freed_setPort _ _ _ _) rfl
  case ack =>
    have judged : judgeReply c false (replyFrame 0x80 []) = .acked := by
      rw [judgeReply_frame]
      exact if_pos ⟨rfl, command⟩
    refine reply flight (by simp) judged rfl rfl (State.freed_setPort _ _ _ _) ?_
    change (passVals _ (((((s.tick t).setPort d q).port d).tx.drop 2).dropLast) _ .acked).map _ = _
    rw [State.port_setPort]
    rfl
  case nak =>
    intro reason
    have judged : judgeReply c false (replyFrame 0x81 [why]) = .naked reason := by
      rw [judgeReply_frame]
      rfl
    exact reply flight (by simp) judged rfl rfl (State.freed_setPort _ _ _ _) rfl
  case time =>
    intro l r u marked found takes ok
    have judged : judgeReply .timeSense false (replyFrame 0x83 [hh, mm, ss, ff]) = .data (.time l) := by
      rw [judgeReply_frame]
      rfl
    let v := (s.tick t).setPort d q
    have free : v.freed d (.data (.time l)) = u := State.freed_setPort _ _ _ _
    have answered {w : State} (fmt : w.fmt = s.fmt) (sent : List Byte) (legal : l.legal s.fmt = true) :
        (passVals w.fmt sent [hh, mm, ss, ff] (.data (.time l))).map (Val.fix w.fmt) = ok := by
      rw [fmt]
      simp only [passVals, if_pos legal]
      rfl
    have took (legal : l.legal s.fmt = true) :
        v.takeOutcome d (.data (.time l)) = v.readerTime d (l.toFrame s.fmt) s.house := if_pos legal
    have here : v.port d = q := State.port_setPort _ _ _
    refine ⟨fun legal line => ?_, fun legal source gives => ?_, fun legal other => ?_, fun illegal => ?_⟩
    · refine reply flight (by simp) judged rfl ((took legal).trans (State.readerTime_line (s := v) line)) ?_ (answered rfl _ legal)
      rw [State.freed_setReader, free]
      rfl
    · refine reply flight (by simp) judged rfl ((took legal).trans (State.readerTime_found (s := v) source (here ▸ gives))) ?_
        (answered (State.enter_fmt (v.setReader d found) _ _ _) _ legal)
      rw [State.freed_enter, State.freed_setReader, free]
      rfl
    · refine reply flight (by simp) judged rfl ((took legal).trans (State.readerTime_ignored (s := v) ?_)) free
        (answered rfl _ legal)
      rw [here]
      exact other
    · have refused : ¬l.legal s.fmt = true := ne_true_of_eq_false illegal
      refine reply flight (by simp) judged rfl (if_neg refused) free ?_
      simp only [passVals]
      exact congrArg (List.map (Val.fix s.fmt)) (if_neg refused)

end Sys2Proof.Proofs

/-! ## Record protection through every command (R61, R68, R69) -/

namespace Sys2Proof.Laws

open Sys2Proof.Machine Sys2Proof.Safety

/-- A move that keeps record protection. -/
structure PortsKept (s t : State) : Prop where
  keeps : PortsOk s → PortsOk t

/-- A command's outcome is a next state that keeps record protection. -/
def KeepsPorts (s : State) (o : Host.Outcome State Fault Refusal) : Prop := ∃ t, o = .next t ∧ PortsKept s t

namespace PortsKept

/-- A move that leaves the ports as they are. -/
theorem of_same {s t : State} (same : t.ports = s.ports) : PortsKept s t :=
  ⟨fun ok d => by rw [State.port, same]; exact ok d⟩

theorem refl (s : State) : PortsKept s s := ⟨id⟩

theorem trans {s t u : State} (a : PortsKept s t) (b : PortsKept t u) : PortsKept s u := ⟨b.keeps ∘ a.keeps⟩

/-- `trans` with the later move first, so that the state between is known when the earlier one is checked. -/
theorem after {s t u : State} (b : PortsKept t u) (a : PortsKept s t) : PortsKept s u := a.trans b

theorem ite {s t u : State} {p : Prop} [Decidable p] (a : PortsKept s t) (b : PortsKept s u) :
    PortsKept s (if p then t else u) := by split <;> assumption

theorem foldl {α : Type} (f : State → α → State) (h : ∀ s a, PortsKept s (f s a)) (l : List α) (s : State) :
    PortsKept s (l.foldl f s) := by
  induction l generalizing s with
  | nil => exact refl s
  | cons a l ih => exact (h s a).trans (ih _)

/-- A move that changes every port in one way. -/
theorem map {s t : State} {g : Port → Port} (changed : t.ports = s.ports.map g) (keeps : ∀ p, PortOk p → PortOk (g p)) :
    PortsKept s t := ⟨fun ok d => by
  have port : t.port d = g (s.port d) := by rw [State.port, changed]; exact Vector.getElem_map _ _
  rw [port]
  exact keeps _ (ok d)⟩

end PortsKept

theorem Steady.portsKept {s t : State} (h : Steady s t) : PortsKept s t := ⟨h.ports⟩

/-! ### The frames of a command -/

section
variable {s : State}

theorem running_ports {f : State → State} (h : ∀ s, PortsKept s (f s)) : KeepsPorts s (running s f) :=
  ⟨_, rfl, .ite (.refl s) (h s)⟩

theorem timed_ports {t : Time} {f : State → State} (h : ∀ s, PortsKept s (f s)) : KeepsPorts s (timed s t f) :=
  running_ports fun s => .after (h (s.tick t)) (.of_same rfl)

theorem takeRequest_ports {k : Byte} {f : Request → State → State} (h : ∀ r s, PortsKept s (f r s)) :
    KeepsPorts s (takeRequest k s f) := by
  refine running_ports fun s => ?_
  split
  · exact .ite (.ite (.after (h _ s.dropHead) (.of_same rfl)) (.of_same rfl)) (.refl s)
  · exact .refl s

end

/-! ### Moves of the other blocks, which change no port -/

theorem ports_ite {s t u : State} {p : Prop} [Decidable p] (a : t.ports = s.ports) (b : u.ports = s.ports) :
    (if p then t else u).ports = s.ports := by split <;> assumption

theorem ports_foldl {α : Type} (f : State → α → State) (h : ∀ s a, (f s a).ports = s.ports) (l : List α) (s : State) :
    (l.foldl f s).ports = s.ports := by
  induction l generalizing s with
  | nil => rfl
  | cons a l ih => exact (ih _).trans (h s a)

section
variable (s : State) (t : Time)

theorem enter_ports (k : NoticeKind) (n : Nat) (c : List Val) : (s.enter k n c).ports = s.ports := ports_ite rfl rfl

theorem engineMove_ports (e : Engine) (c : TransCause) : (s.engineMove e c).ports = s.ports := enter_ports _ _ _ _

theorem warn_ports (f : Warnings → Warnings) : (s.warn f).ports = s.ports := ports_ite rfl rfl

theorem warnManual_ports (p : Prop) [Decidable p] : (if p then s.warnManual else s).ports = s.ports :=
  ports_ite (ports_ite (warn_ports _ _) rfl) rfl

theorem goAbsent_ports (c : AbsentCause) : (s.goAbsent t c).ports = s.ports :=
  ports_ite ((warn_ports _ _).trans (enter_ports _ _ _ _)) (enter_ports _ _ _ _)

theorem nextLine_ports : s.nextLine.ports = s.ports := ports_ite rfl rfl

theorem lock_ports : (s.lock t).ports = s.ports := (enter_ports _ _ _ _).trans (ports_ite rfl rfl)

theorem takeLine_ports : (s.takeLine t).ports = s.ports := by
  unfold State.takeLine
  split
  · rfl
  · exact ports_ite rfl (ports_ite (goAbsent_ports _ _ _) rfl)
  · exact ports_ite (goAbsent_ports _ _ _) (nextLine_ports s)

theorem takeFrame_ports : (s.takeFrame t).ports = s.ports := by
  unfold State.takeFrame
  have broken : ((s.openFrame t).goAbsent t .lineCount).ports = s.ports := goAbsent_ports _ _ _
  split
  · exact enter_ports _ _ _ _
  · exact ports_ite rfl (ports_ite (ports_ite rfl (lock_ports _ _)) broken)
  · exact ports_ite rfl broken

theorem timerStep_ports : s.timerStep.ports = s.ports := ports_ite (nextLine_ports s) rfl

theorem clockStep_ports : s.clockStep.ports = s.ports := by
  unfold State.clockStep
  split <;> rfl

theorem linkReply_ports (k g : Byte) (x : Result) : (s.linkReply k g x).ports = s.ports := ports_ite rfl rfl

theorem damagedFrame_ports : s.damagedFrame.ports = s.ports := linkReply_ports _ _ _ _

theorem linkByte_ports (b : Byte) : (State.linkByte t s b).ports = s.ports := by
  unfold State.linkByte
  split
  · exact ports_ite rfl rfl
  · have valid (u : State) (r : Request) : (u.validFrame t r).ports = u.ports := ports_ite (linkReply_ports _ _ _ _) rfl
    exact ports_ite (damagedFrame_ports _) (ports_ite rfl (ports_ite (valid _ _) (damagedFrame_ports _)))

theorem abortPass_ports (d : Deck) : (s.abortPass d).ports = s.ports := by
  rw [State.abortPass_eq]
  rfl

end

/-! ### The moves that change every port (R17, R72, R185) -/

theorem initial_portOk : PortOk Port.initial := by decide

theorem softReset_portOk (p : Port) : PortOk p.softReset := by
  obtain ⟨servo, pass, poll, flight⟩ := initial_portOk
  exact ⟨servo, pass, poll, flight⟩

/-- The reset line stops the command in flight (R185). -/
theorem flightless_portOk (p : Port) (ok : PortOk p) : PortOk { p with tx := [], flight := none } := by
  obtain ⟨servo, pass, poll, -⟩ := ok
  exact ⟨servo, pass, poll, rfl⟩

theorem reduce_isRecord (f : SuiteFormat) (c : DeckCmd) : (c.reduce f).isRecord = c.isRecord := by cases c <;> rfl

/-- A new format changes the frame of a LOCATE, and no command's class (R17). -/
theorem reduce_portOk (f : SuiteFormat) (p : Port) (ok : PortOk p) : PortOk (p.reduce f) := by
  obtain ⟨servo, pass, poll, flight⟩ := ok
  refine ⟨?_, ?_, poll, ?_⟩
  · cases held : p.servo <;> simp_all [Port.reduce, reduce_isRecord]
  · cases held : p.pass <;> simp_all [Port.reduce, reduce_isRecord]
  · cases held : p.flight <;> simp_all [Port.reduce, reduce_isRecord]

/-- At power-on every port is empty (Table 4-9). -/
theorem initial_portsOk {t : State} (ports : t.ports = Vector.replicate 6 Port.initial) : PortsOk t := fun d => by
  have port : t.port d = Port.initial := by rw [State.port, ports]; exact Vector.getElem_replicate _
  rw [port]
  exact initial_portOk

theorem softReset_ports (s : State) (t : Time) : PortsKept s (((decks.foldl State.abortPass s).softValues t).hello .soft) := by
  refine .map (g := Port.softReset) ((enter_ports _ _ _ _).trans ?_) fun p _ => softReset_portOk p
  exact congrArg (Vector.map Port.softReset) (ports_foldl _ abortPass_ports decks s)

theorem changeFormat_ports (s : State) (f : SuiteFormat) : PortsKept s (s.changeFormat f) := by
  rw [State.changeFormat_eq]
  exact .map (g := Port.reduce f) rfl (reduce_portOk f)

/-! ### DECK_COMMAND (R69) -/

/-- Check 4 of R69: no RECORD command passes the checks. -/
theorem deckCommandCheck_notRecord {f : SuiteFormat} {p : Port} {code : Nat} {data : List Byte} {c : DeckCmd}
    (passed : deckCommandCheck f p code data = none) (named : deckCmdOf f code data = some c) : c.isRecord = false := by
  by_contra record
  unfold deckCommandCheck at passed
  rw [named] at passed
  split at passed
  · next n _ _ named' =>
    obtain rfl := Option.some.inj named'
    by_cases fits : data.length = n <;> simp [record, fits] at passed
  · cases passed

theorem deckCommand_ports (s : State) : KeepsPorts s (execDeckCommand s) := by
  refine takeRequest_ports fun r s => ?_
  split
  · exact .of_same rfl
  · next d _ =>
    dsimp only
    split
    · exact .of_same rfl
    · next c passed named =>
      have allowed : ((s.port d).clampSpeed c).isRecord = false := by
        rw [clampSpeed_isRecord, deckCommandCheck_notRecord passed named]
      refine ((Steady.setPort s d _ fun ok => ?_).trans (Steady.hand _ d)).portsKept
      obtain ⟨servo, -, poll, flight⟩ := ok
      exact ⟨servo, by simp [allowed], poll, flight⟩
    · exact .of_same rfl

/-! ### Every command -/

section
variable (s : State)

/-- Resets, timed rows and starts keep record protection. -/
theorem exec_row_ports (c : Instr) (row : c ∉ requestRows.map Prod.snd) : KeepsPorts s (exec c s) := by
  unfold exec
  cases c with
  | powerOn => exact ⟨_, rfl, ⟨fun _ => initial_portsOk rfl⟩⟩
  | resetLineAssert => exact ⟨_, rfl, .map rfl flightless_portOk⟩
  | resetLineRelease t => exact ⟨_, rfl, .ite ⟨fun _ => initial_portsOk rfl⟩ (.refl s)⟩
  | softResetEffect t => exact timed_ports fun s => .ite (softReset_ports s t) (.refl s)
  | framePulse field2 t =>
    exact timed_ports fun s => .of_same (ports_ite (takeLine_ports s t) (takeFrame_ports s t))
  | linePulse t => exact timed_ports fun s => .of_same (takeLine_ports s t)
  | noPulseTimeout t | latePulseTimeout t => exact timed_ports fun s => .of_same (ports_ite (goAbsent_ports s t _) rfl)
  | timerLineStep t => exact timed_ports fun s => .of_same (ports_ite (timerStep_ports s) rfl)
  | houseClockFrameStart => exact running_ports fun s => .of_same (ports_ite (clockStep_ports s) rfl)
  | tcTransition d t => exact timed_ports fun s => (Steady.transition s d t).portsKept
  | bitSyncTimeout d t =>
    refine timed_ports fun s => ?_
    dsimp only
    split
    · exact .of_same (ports_ite rfl rfl)
    · exact .refl s
  | readerFrameTests d | stillCountReached d =>
    exact running_ports fun s => (Steady.ite (Steady.readerStep s d) (.refl s)).portsKept
  | commandSent d t =>
    refine timed_ports fun s => (Steady.ite (.ite ?awaiting (.trans ?freed (.hand _ _))) (.refl s)).portsKept
    case awaiting | freed => exact .setPort s d _ id
  | replyTimeout d t => exact timed_ports fun s => (Steady.ite (.endCommand _ _ _ _ _) (.refl s)).portsKept
  | deckReplyReceived d cs t | lateReplyReceived d cs t | strayFrameReceived d cs t =>
    exact timed_ports fun s => (Steady.portBytes s d t cs).portsKept
  | deckGapTimeout d t =>
    exact timed_ports fun s => (Steady.ite
      (.ite (.endCommand _ _ _ _ _) ((Steady.breakStray s d).trans (.breakLate _ d))) (.refl s)).portsKept
  | recoveryQuiet d t =>
    refine timed_ports fun s => (Steady.ite ?_ (.refl s)).portsKept
    have broken := (Steady.breakStray s d).trans (.breakLate _ d)
    exact .after (.hand _ _) (.after (.setPort _ _ _ id) broken)
  | attachTimer d t =>
    exact timed_ports fun s => (Steady.ite ((Steady.putIdentify _ _).trans (.hand _ _)) (.refl s)).portsKept
  | deckPortFrameStart d =>
    refine running_ports fun s => (Steady.ite ?_ (.refl s)).portsKept
    exact .after (.hand _ _) (.after (.setPort _ _ _ (Steady.frameStart_ok _ _)) (.due s _ rfl))
  | chaseSample d | rollCountExpired d =>
    exact running_ports fun s => (Steady.ite (Steady.sample s d) (.refl s)).portsKept
  | sequencerFrameStart | postrollTimeout =>
    exact running_ports fun s => (Steady.ite (Steady.seqStep s) (.refl s)).portsKept
  | cueTimeout | rollTimeout | outTimeout => exact running_ports fun s => (Steady.timeoutStep s _).portsKept
  | transitionFieldStart =>
    refine running_ports fun s => ?_
    split
    · exact .refl s
    · exact .after (Steady.engineField _ _).portsKept (.of_same rfl)
  | mixerFieldStart | outboundSend =>
    refine running_ports fun s => .of_same ?_
    split <;> rfl
  | mixerSendLine =>
    refine running_ports fun s => .of_same ?_
    split
    · rfl
    · exact ports_ite rfl rfl
  | gpiFrameStart => exact running_ports fun s => (Steady.ite (Steady.gpiFrame s) (.refl s)).portsKept
  | gpiLineFire =>
    refine running_ports fun s => ?_
    split
    · exact .refl s
    · exact .ite (.after (Steady.fire _ _ _ _).portsKept (.of_same rfl)) (.refl s)
  | gpiPulseEnd o => exact running_ports fun s => .of_same (ports_ite rfl rfl)
  | frameReceived bs t => exact timed_ports fun s => .of_same (ports_foldl _ (linkByte_ports · t) _ _)
  | linkGapTimeout t =>
    refine timed_ports fun s => .of_same ?_
    split
    · rfl
    · exact ports_ite (damagedFrame_ports s) rfl
  | unknownRequest =>
    refine running_ports fun s => .of_same ?_
    split
    · exact ports_ite rfl rfl
    · rfl
  | silenceTimeout t =>
    exact timed_ports fun s => .ite (.after (Steady.silenceCheck _).portsKept (.of_same rfl)) (.refl s)
  | _ => exact absurd (by simp [requestRows]) row

/-- Every request keeps record protection. -/
theorem exec_request_ports (c : Instr) (request : c ∈ requestRows.map Prod.snd) : KeepsPorts s (exec c s) := by
  unfold exec
  cases c with
  | getReference | getEdit | getRun | getTransition | getGpi | getLinkStatus | setReaderParams | setEditTimes
  | setMixerSendLine | setRouting | setNoticeMask => exact takeRequest_ports fun _ _ => .of_same rfl
  | setHouseTime | setLoadWindow | deleteEvents | clearList | resetStatus | setSilenceLimit =>
    exact takeRequest_ports fun _ _ => .of_same (ports_ite rfl rfl)
  | getReader =>
    refine takeRequest_ports fun r s => .of_same ?_
    split
    · rfl
    · exact ports_ite rfl rfl
  | deckCommand => exact deckCommand_ports s
  | getDeck | getChase | gpiSet =>
    refine takeRequest_ports fun r s => .of_same ?_
    split <;> rfl
  | prepareTransition =>
    refine takeRequest_ports fun r s => .of_same ?_
    dsimp only
    split <;> rfl
  | setPortEnable =>
    refine takeRequest_ports fun r s => ?_
    split
    · exact .of_same rfl
    · exact .ite (.ite ((Steady.ok s r _).trans (.enablePort _ _)).portsKept (.of_same rfl))
        (.ite (.of_same rfl) (.ite (.of_same rfl) ((Steady.ok s r _).trans (.disablePort _ _)).portsKept))
  | setServoParams =>
    refine takeRequest_ports fun r s => ?_
    refine .after (Steady.ok _ _ _).portsKept (.after (.foldl _ (fun s d => ?_) decks _) (.of_same rfl))
    exact ((Steady.reclampServo s d).trans (.idleLead _ d)).portsKept
  | setChase =>
    refine takeRequest_ports fun r s => ?_
    split
    · dsimp only
      split
      · exact .of_same rfl
      · exact ((Steady.linkChase _ _ _ _).trans (.ok _ _ _)).portsKept
    · exact .of_same rfl
  | clearChase =>
    refine takeRequest_ports fun r s => ?_
    split
    · exact .of_same rfl
    · exact .ite (.of_same rfl) ((Steady.clearLink _ _ _).trans (.ok _ _ _)).portsKept
  | loadEvents | loadContinue =>
    refine takeRequest_ports fun r s => .of_same ?_
    unfold State.load
    split <;> rfl
  | readEvent =>
    refine takeRequest_ports fun r s => .of_same (ports_ite rfl (ports_ite rfl ?_))
    split <;> rfl
  | executeEvent =>
    refine takeRequest_ports fun r s => ?_
    dsimp only
    split
    · exact .of_same rfl
    · exact .ite (.of_same rfl) (.ite (.of_same rfl)
        (.ite (.of_same rfl) ((Steady.ok _ _ _).trans (.startEdit _ _ _)).portsKept))
  | abortEdit => exact takeRequest_ports fun r s => .ite (.of_same rfl) ((Steady.ok _ _ _).trans (.abort _ _)).portsKept
  | allStop =>
    refine takeRequest_ports fun r s => (Steady.trans ?_ ((Steady.stopAll _ _).trans (.endRun _ _))).portsKept
    exact ((Steady.ok s r _).trans (.abort _ _)).trans (.foldl _ (fun _ _ => .clearLink _ _ _) _ _)
  | startRun =>
    refine takeRequest_ports fun r s => ?_
    dsimp only
    split
    · split
      · exact .of_same rfl
      · exact .of_same rfl
      · exact .after (Steady.runTake _ _ _).portsKept (.of_same rfl)
    · exact .of_same rfl
  | continueRun =>
    refine takeRequest_ports fun r s => .ite (.of_same rfl) ?_
    split
    · exact .of_same rfl
    · exact .ite (.of_same rfl) (.ite (.of_same rfl) ((Steady.ok _ _ _).trans (.runTake _ _ _)).portsKept)
  | skipEvent =>
    refine takeRequest_ports fun r s => .ite (.of_same rfl) (.trans (.of_same ?_) (Steady.runAdvance _).portsKept)
    split <;> rfl
  | pauseRun =>
    refine takeRequest_ports fun r s => ?_
    have moved (x : Run) (w : RunReason) : PortsKept s ((s.ok r []).runMove x w) :=
      ((Steady.ok _ _ _).trans (.runMove _ _ _)).portsKept
    split <;> [exact moved _ _; exact .of_same rfl; exact moved _ _; exact .of_same rfl; exact .of_same rfl]
  | stopRun => exact takeRequest_ports fun r s => .ite ((Steady.ok _ _ _).trans (.endRun _ _)).portsKept (.of_same rfl)
  | autoTake =>
    refine takeRequest_ports fun r s => .of_same ?_
    dsimp only
    split
    · exact engineMove_ports _ _ _
    · exact engineMove_ports _ _ _
    · rfl
    · rfl
    · split
      · rfl
      · refine ports_ite rfl ?_
        split <;> [rfl; exact engineMove_ports _ _ _; exact engineMove_ports _ _ _]
  | cutNow =>
    exact takeRequest_ports fun _ s => .of_same (ports_ite rfl ((engineMove_ports _ _ _).trans (warnManual_ports s _)))
  | resetTransition =>
    exact takeRequest_ports fun _ s => .of_same (ports_ite (warnManual_ports s _)
      ((engineMove_ports _ _ _).trans (warnManual_ports s _)))
  | lever =>
    refine takeRequest_ports fun r s => ((Steady.moveLever s _ ?_).trans (.ok _ _ _)).portsKept
    unfold clamp
    omega
  | setFormat =>
    refine takeRequest_ports fun r s => ?_
    split
    · exact .of_same rfl
    · exact .ite (.of_same rfl) (.after (Steady.ok _ _ _).portsKept (changeFormat_ports s _))
  | setRecorder =>
    refine takeRequest_ports fun r s => ?_
    split
    · exact .of_same rfl
    · exact .ite (.of_same rfl) (.after ((Steady.clearLink _ _ _).trans (.ok _ _ _)).portsKept (.of_same rfl))
  | softReset =>
    refine takeRequest_ports fun r s => .ite (.after ?_ (.of_same rfl)) (.of_same rfl)
    exact .after (Steady.foldl _ (fun _ _ => .postEmergency _ _ _ _) _ _).portsKept (.of_same rfl)
  | _ => exact absurd request (by simp [requestRows])

/-- Every command answers a next state and keeps record protection. -/
theorem exec_ports (c : Instr) : KeepsPorts s (exec c s) := by
  by_cases request : c ∈ requestRows.map Prod.snd
  · exact exec_request_ports s c request
  · exact exec_row_ports s c request

end

end Sys2Proof.Laws

namespace Sys2Proof.Proofs

open Sys2Proof.Machine Sys2Proof.Safety

/-- Settles O58: a step is a command's answer, and every command keeps record protection. -/
theorem recordStaysProtected : Obligations.RecordStaysProtected := by
  intro s t ok stepped
  unfold step at stepped
  split at stepped
  · obtain rfl : s = t := by simpa using stepped
    exact ok
  · next c cs _ =>
    obtain ⟨u, answer, kept⟩ := Laws.exec_ports { s with pending := cs } c
    obtain rfl : u = t := by simpa [answer] using stepped
    exact kept.keeps ok

end Sys2Proof.Proofs

/-! ## Frames and their checks (R48, R49, R188, R191) -/

namespace Sys2Proof.Machine

/-! ### Checks -/

/-- The exclusive-or of bytes, appended to them, makes that of all 0. -/
theorem xorAll_checked (bs : List Byte) : xorAll (bs ++ [xorAll bs]) = 0 := by
  rw [xorAll, List.foldl_append]
  exact BitVec.xor_self

/-- The check byte of a control link frame makes the sum 0. -/
theorem sum_checked (bs : List Byte) : (bs ++ [sumCheck bs]).foldl (· + ·) 0 = 0 := by
  rw [List.foldl_append]
  exact BitVec.add_right_neg _

/-! ### The data of a deck command (Table 12-5) -/

theorem beBytes_two (n : Nat) : beBytes 2 n = [BitVec.ofNat 8 (n / 256), BitVec.ofNat 8 n] := rfl

/-- A signed number in two bytes, by the quotient and the remainder of 256. -/
theorem Val.bytes_i_two (f : SuiteFormat) (v : Int) :
    (Val.i 2 v).bytes f 0 = [BitVec.ofInt 8 (v / 256), BitVec.ofInt 8 v] := by
  rw [Val.bytes, beBytes_two]
  have high : BitVec.ofNat 8 ((v % (256 ^ 2 : Nat)).toNat / 256) = BitVec.ofInt 8 (v / 256) := by
    apply BitVec.eq_of_toNat_eq
    simp only [BitVec.toNat_ofNat, BitVec.toNat_ofInt]
    omega
  have low : BitVec.ofNat 8 (v % (256 ^ 2 : Nat)).toNat = BitVec.ofInt 8 v := by
    apply BitVec.eq_of_toNat_eq
    simp only [BitVec.toNat_ofNat, BitVec.toNat_ofInt]
    omega
  rw [high, low]

theorem DeckCmd.length_data_le (f : SuiteFormat) (c : DeckCmd) : (c.data f).length ≤ 4 := by
  cases c <;> simp [DeckCmd.data, Val.bytes_i_two, beBytes_two, Label.bytes]

/-- A deck command's frame is its body and the check over it. -/
theorem DeckCmd.frame_eq (f : SuiteFormat) (c : DeckCmd) : c.frame f = replyFrame c.code (c.data f) := rfl

theorem DeckCmd.frame_checked (f : SuiteFormat) (c : DeckCmd) :
    let len : Byte := BitVec.ofNat 8 ((c.data f).length + 2)
    c.frame f = len :: c.code :: c.data f ++ [(c.data f).foldl (· ^^^ ·) (len ^^^ c.code)] ∧
      (c.frame f).foldl (· ^^^ ·) 0 = 0 ∧ (c.frame f).length = len.toNat + 1 ∧ 2 ≤ len.toNat ∧ len.toNat ≤ 18 := by
  intro len
  have short := c.length_data_le f
  have value : len.toNat = (c.data f).length + 2 := by
    rw [BitVec.toNat_ofNat]
    omega
  refine ⟨?_, xorAll_replyFrame _ _, ?_, by omega, by omega⟩
  · simp [frame_eq, replyFrame, replyBody, xorAll, len]
  · simp [frame_eq, replyFrame, replyBody, value]

end Sys2Proof.Machine

namespace Sys2Proof.Proofs

open Sys2Proof.Machine

/-- Settles O21: each frame is a body with the check over it, and the body of a deck command is that of Table 12-5. -/
theorem framesCarryTheirChecks : Obligations.FramesCarryTheirChecks := by
  refine ⟨fun f c => ?command, fun k g ps => ⟨_, rfl, ?sum, sum_checked _, fun few => ?length⟩,
    fun n a b m kind pattern preview => ?record, fun e n => ⟨xorAll_checked _, rfl⟩⟩
  case command =>
    have checked := c.frame_checked f
    cases c with
    | identify | statusSense | timeSense | stop | play | locate _ | recordOff => exact checked
    | shuttle v =>
      rw [show DeckCmd.data f (.shuttle v) = _ from Val.bytes_i_two f v] at checked
      exact checked
    | varispeed v =>
      have data : DeckCmd.data f (.varispeed v) = [BitVec.ofInt 8 ((v : Int) / 256), BitVec.ofInt 8 v] := by
        rw [DeckCmd.data, beBytes_two, BitVec.ofInt_natCast, ← BitVec.ofInt_natCast 8 (v / 256), Int.natCast_ediv]
        rfl
      rw [data] at checked
      exact checked
    | recordOn tracks kind => cases kind <;> exact checked
  case sum =>
    have whole := sum_checked (BitVec.ofNat 8 (ps.length + 3) :: k :: g :: ps)
    simpa [List.foldl_append] using whole
  case length =>
    have value : (BitVec.ofNat 8 (ps.length + 3)).toNat = ps.length + 3 := by
      rw [BitVec.toNat_ofNat]
      omega
    exact ⟨value, by simp [linkFrame, value]⟩
  case record => cases preview <;> rfl

end Sys2Proof.Proofs

/-! ## DECK_COMMAND (R69) -/

namespace Sys2Proof.Machine

open Sys2Proof.Safety

/-! ### The commands by code (Table 12-5) -/

/-- The codes that name a command, with the number of their data bytes. -/
def deckLengths : List (Nat × Nat) :=
  [(0x10, 0), (0x11, 0), (0x12, 0), (0x20, 0), (0x21, 0), (0x22, 2), (0x23, 4), (0x24, 2), (0x30, 2), (0x31, 0)]

theorem deckCmdLen_eq_some_iff (code n : Nat) : deckCmdLen code = some n ↔ (code, n) ∈ deckLengths := by
  constructor
  · intro len
    unfold deckCmdLen at len
    split at len <;> simp_all [deckLengths]
  · intro mem
    fin_cases mem <;> rfl

/-- A code that has a length names a command; its class shows in the code. -/
theorem deckCmdOf_of_len {code n : Nat} (len : deckCmdLen code = some n) (f : SuiteFormat) (data : List Byte) :
    ∃ c, deckCmdOf f code data = some c ∧ (c.isRecord = true ↔ code = 0x30 ∨ code = 0x31) ∧
      (c.isTransport = true ↔ 0x20 ≤ code ∧ code ≠ 0x30 ∧ code ≠ 0x31) := by
  have mem := (deckCmdLen_eq_some_iff code n).mp len
  fin_cases mem <;>
    exact ⟨_, rfl, by simp [DeckCmd.isRecord], by simp [DeckCmd.isTransport, DeckCmd.isSense, DeckCmd.isRecord]⟩

theorem natAt_pair {data : List Byte} (two : data.length = 2) : natAt data 0 2 = byteN data 0 * 256 + byteN data 1 := by
  obtain ⟨hi, lo, rfl⟩ := List.length_eq_two.mp two
  exact beNat_pair hi lo

theorem intAt_pair {data : List Byte} (two : data.length = 2) : intAt data 0 2 =
    if byteN data 0 * 256 + byteN data 1 < 32768 then ((byteN data 0 * 256 + byteN data 1 : Nat) : Int)
    else ((byteN data 0 * 256 + byteN data 1 : Nat) : Int) - 65536 := by
  have value := natAt_pair two
  obtain ⟨hi, lo, rfl⟩ := List.length_eq_two.mp two
  change beNat [hi, lo] = _ at value
  change beInt [hi, lo] = _
  simp only [beInt, value, List.length_cons, List.length_nil]
  split <;> split <;> omega

/-- The commands that the PASS slot of a port takes, by code and number of data bytes, with their clamps (R64, R69). -/
def postable (f : SuiteFormat) (p : Port) (data : List Byte) : List (Nat × Nat × DeckCmd) :=
  let word := byteN data 0 * 256 + byteN data 1
  let signed : Int := if word < 32768 then word else word - 65536
  let range := (p.ident.bind Identity.range).getD (500, 1500)
  [(0x10, 0, .identify), (0x11, 0, .statusSense), (0x12, 0, .timeSense), (0x20, 0, .stop), (0x21, 0, .play),
    (0x22, 2, .shuttle (max (-30000) (min 30000 signed))), (0x23, 4, .locate ((labelAt data 0).toFrame f)),
    (0x24, 2, .varispeed (max range.1 (min range.2 word)))]

theorem deckCmdOf_postable {f : SuiteFormat} {p : Port} {code : Nat} {data : List Byte} {c : DeckCmd}
    (mem : (code, data.length, c) ∈ postable f p data) : ∃ x, deckCmdLen code = some data.length ∧
      deckCmdOf f code data = some x ∧ p.clampSpeed x = c ∧ code ≠ 0x30 ∧ code ≠ 0x31 := by
  simp only [postable, List.mem_cons, Prod.mk.injEq, List.not_mem_nil, or_false] at mem
  rcases mem with ⟨code, len, rfl⟩ | ⟨code, len, rfl⟩ | ⟨code, len, rfl⟩ | ⟨code, len, rfl⟩ | ⟨code, len, rfl⟩ |
    shuttle | ⟨code, len, rfl⟩ | varispeed
  case inr.inr.inr.inr.inr.inl =>
    obtain ⟨code, len, rfl⟩ := shuttle
    rw [code, len, ← intAt_pair len]
    exact ⟨_, rfl, rfl, rfl, by decide, by decide⟩
  case inr.inr.inr.inr.inr.inr.inr =>
    obtain ⟨code, len, rfl⟩ := varispeed
    rw [code, len, ← natAt_pair len]
    exact ⟨_, rfl, rfl, rfl, by decide, by decide⟩
  all_goals
    rw [code, len]
    exact ⟨_, rfl, rfl, rfl, by decide, by decide⟩

/-! ### The checks (R69) -/

/-- The checks that follow the length of a command's data. -/
theorem deckCommandCheck_eq {code n : Nat} {data : List Byte} {f : SuiteFormat} {c : DeckCmd} (p : Port)
    (len : deckCmdLen code = some n) (named : deckCmdOf f code data = some c) : deckCommandCheck f p code data =
      if data.length ≠ n then some .badLength
      else if c.isRecord then some .recordProtected
      else if p.presence = .disabled then some .noDeck
      else if c.isTransport ∧ p.presence ≠ .present then some .noDeck
      else if c.isTransport ∧ p.claim ≠ .free then some .deckOwned
      else if code = 0x23 ∧ ¬(labelAt data 0).legal f then some .timecodeInvalid
      else if p.pass.isSome then some .lineBusy
      else none := by
  rw [deckCommandCheck, len, named]

/-- The checks for data of the right length: the classes are ranges of the code. -/
theorem deckCommandCheck_fits {code : Nat} {data : List Byte} (p : Port) (len : deckCmdLen code = some data.length)
    (f : SuiteFormat) : deckCommandCheck f p code data =
      if code = 0x30 ∨ code = 0x31 then some .recordProtected
      else if p.presence = .disabled then some .noDeck
      else if 0x20 ≤ code ∧ p.presence ≠ .present then some .noDeck
      else if 0x20 ≤ code ∧ p.claim ≠ .free then some .deckOwned
      else if code = 0x23 ∧ ¬(labelAt data 0).legal f then some .timecodeInvalid
      else if p.pass.isSome then some .lineBusy
      else none := by
  obtain ⟨c, named, isRecord, isTransport⟩ := deckCmdOf_of_len len f data
  rw [deckCommandCheck_eq p len named, if_neg (not_not_intro rfl)]
  by_cases record : code = 0x30 ∨ code = 0x31
  · rw [if_pos (isRecord.mpr record), if_pos record]
  · have class_iff : c.isTransport = true ↔ 0x20 ≤ code := by rw [isTransport]; omega
    simp only [if_neg record, if_neg (mt isRecord.mp record), class_iff]

theorem exec_deckCommand (s : State) : exec .deckCommand s = execDeckCommand s := rfl

section
variable {s : State} {r : Request} {d : Deck} (taken : Takes s 0x10 r) (number : byteN r.params 0 = Deck.num d)
include taken number

theorem exec_deckCommand_refused {x : Result}
    (fails : deckCommandCheck s.fmt (s.port d) (byteN r.params 1) (r.params.drop 2) = some x) :
    exec .deckCommand s = .next (answered s r x []) := by
  rw [← Laws.refuse_dropHead, exec_deckCommand]
  refine takeRequest_done taken ?_
  have fails' : deckCommandCheck s.dropHead.fmt (s.dropHead.port d) (byteN r.params 1) (r.params.drop 2) = some x := fails
  simp only [number, Laws.deckOf_num, fails']

theorem exec_deckCommand_posted {c : DeckCmd}
    (passes : deckCommandCheck s.fmt (s.port d) (byteN r.params 1) (r.params.drop 2) = none)
    (named : deckCmdOf s.fmt (byteN r.params 1) (r.params.drop 2) = some c) :
    exec .deckCommand s = .next ((s.dropHead.setPort d { s.port d with
      pass := some { cmd := (s.port d).clampSpeed c, kind := r.kind, tag := r.tag } }).hand d) := by
  rw [exec_deckCommand]
  refine takeRequest_done taken ?_
  have passes' : deckCommandCheck s.dropHead.fmt (s.dropHead.port d) (byteN r.params 1) (r.params.drop 2) = none := passes
  have named' : deckCmdOf s.dropHead.fmt (byteN r.params 1) (r.params.drop 2) = some c := named
  simp only [number, Laws.deckOf_num, passes', named']
  rfl

end

end Sys2Proof.Machine

namespace Sys2Proof.Proofs

open Sys2Proof.Machine Sys2Proof.Safety

/-- Settles O19: a code with a length names a command, and the checks of R69 stand as one chain. -/
theorem deckCommandWaitsInThePassSlot : Obligations.DeckCommandWaitsInThePassSlot := by
  refine ⟨fun s r d c taken number => ?_, fun s r taken => ?_⟩
  · intro p code data word signed range commands
    refine ⟨fun record => ?_, fun command reached owner legal free => ?_⟩
    · have len : deckCmdLen code = some data.length := by
        rcases record with ⟨code, len⟩ | ⟨code, len⟩ <;> rw [code, len] <;> rfl
      refine exec_deckCommand_refused taken number ?_
      rw [deckCommandCheck_fits p len, if_pos (by omega)]
    · obtain ⟨x, len, named, rfl, notOn, notOff⟩ := deckCmdOf_postable command
      refine exec_deckCommand_posted taken number ?_ named
      rw [deckCommandCheck_fits p len, if_neg (by omega)]
      by_cases transport : 0x20 ≤ code
      · obtain ⟨present, unclaimed⟩ := owner transport
        simpa [present, unclaimed, free] using legal
      · have enabled := reached (by omega)
        have other : code ≠ 0x23 := by omega
        simp [transport, enabled, other, free]
  · intro n code data lengths refused
    refine ⟨fun outside => ?_, fun d number => ?_⟩
    · change execDeckCommand s = _
      refine takeRequest_noDeck taken (fun d h => ?_) _
      have := d.isLt
      change n = d.val + 1 at h
      omega
    intro p known transport reached
    have fails {x : Result} (check : deckCommandCheck s.fmt p code data = some x) : refused x :=
      exec_deckCommand_refused taken number check
    have fits (mem : (code, data.length) ∈ lengths) :=
      deckCommandCheck_fits p ((deckCmdLen_eq_some_iff code data.length).mpr mem) s.fmt
    refine ⟨fun unnamed => fails ?_, fun ⟨x, mem, same, short⟩ => fails ?_, fun mem record => fails ?_,
      fun ⟨mem, notOn, notOff⟩ away => fails ?_, fun ⟨mem, notOn, notOff⟩ high present owned => fails ?_,
      fun ⟨⟨mem, notOn, notOff⟩, enabled, free⟩ locate illegal => fails ?_,
      fun ⟨⟨mem, notOn, notOff⟩, enabled, free⟩ legal occupied => fails ?_⟩
    · have none : deckCmdLen code = none := by
        by_contra some
        obtain ⟨m, len⟩ := Option.ne_none_iff_exists'.mp some
        exact unnamed _ ((deckCmdLen_eq_some_iff code m).mp len) rfl
      rw [deckCommandCheck, none]
    · have len : deckCmdLen code = some x.2 := by rw [same]; exact (deckCmdLen_eq_some_iff x.1 x.2).mpr mem
      obtain ⟨c, named, -⟩ := deckCmdOf_of_len len s.fmt data
      rw [deckCommandCheck_eq p len named, if_pos short]
    · rw [fits mem, if_pos record]
    · rw [fits mem, if_neg (by omega)]
      rcases away with disabled | ⟨high, away⟩
      · rw [if_pos disabled]
      · rw [if_pos (c := 0x20 ≤ code ∧ p.presence ≠ .present) ⟨high, away⟩, ite_self]
    · simp [fits mem, notOn, notOff, present, owned, show 0x20 ≤ code from high]
    · simp only [fits mem, notOn, notOff, or_self, if_false, if_neg enabled]
      rw [if_neg (fun h => h.2 (free h.1).1), if_neg (fun h => h.2 (free h.1).2), if_pos ⟨locate, by simp [illegal]⟩]
    · simp only [fits mem, notOn, notOff, or_self, if_false, if_neg enabled]
      rw [if_neg (fun h => h.2 (free h.1).1), if_neg (fun h => h.2 (free h.1).2), if_neg (fun h => h.2 (legal h.1)),
        if_pos occupied]

end Sys2Proof.Proofs

/-! ## Reading one field after an entry, a reply or the taking of a request -/

namespace Sys2Proof.Machine

section
variable (s : State) (k : NoticeKind) (n : Nat) (c : List Val)

@[simp] theorem State.enter_now : (s.enter k n c).now = s.now := by rw [enter_eq]; rfl
@[simp] theorem State.enter_asserted : (s.enter k n c).asserted = s.asserted := by rw [enter_eq]; rfl
@[simp] theorem State.enter_ref : (s.enter k n c).ref = s.ref := by rw [enter_eq]; rfl
@[simp] theorem State.enter_clock : (s.enter k n c).clock = s.clock := by rw [enter_eq]; rfl
@[simp] theorem State.enter_due : (s.enter k n c).due = s.due := by rw [enter_eq]; rfl
@[simp] theorem State.enter_readers : (s.enter k n c).readers = s.readers := by rw [enter_eq]; rfl
@[simp] theorem State.enter_ports : (s.enter k n c).ports = s.ports := by rw [enter_eq]; rfl
@[simp] theorem State.enter_chase : (s.enter k n c).chase = s.chase := by rw [enter_eq]; rfl
@[simp] theorem State.enter_list : (s.enter k n c).list = s.list := by rw [enter_eq]; rfl
@[simp] theorem State.enter_edit : (s.enter k n c).edit = s.edit := by rw [enter_eq]; rfl
@[simp] theorem State.enter_run : (s.enter k n c).run = s.run := by rw [enter_eq]; rfl
@[simp] theorem State.enter_engine : (s.enter k n c).engine = s.engine := by rw [enter_eq]; rfl
@[simp] theorem State.enter_mixer : (s.enter k n c).mixer = s.mixer := by rw [enter_eq]; rfl
@[simp] theorem State.enter_gpi : (s.enter k n c).gpi = s.gpi := by rw [enter_eq]; rfl
@[simp] theorem State.enter_set : (s.enter k n c).set = s.set := by rw [enter_eq]; rfl
@[simp] theorem State.enter_pending : (s.enter k n c).pending = s.pending := by rw [enter_eq]; rfl

@[simp] theorem State.enter_link : (s.enter k n c).link = { s.link with notices := s.noted k n c s.link.notices } := by
  rw [enter_eq]; rfl

@[simp] theorem State.port_enter (d : Deck) : (s.enter k n c).port d = s.port d := by rw [enter_eq]; rfl

@[simp] theorem State.chan_enter (d : Deck) : (s.enter k n c).chan d = s.chan d := by rw [enter_eq]; rfl

end

section
variable (s : State) (k t : Byte) (v : List Val) (d : Deck)

@[simp] theorem State.reply_fmt : (s.reply k t v).fmt = s.fmt := rfl
@[simp] theorem State.reply_now : (s.reply k t v).now = s.now := rfl
@[simp] theorem State.reply_asserted : (s.reply k t v).asserted = s.asserted := rfl
@[simp] theorem State.reply_ref : (s.reply k t v).ref = s.ref := rfl
@[simp] theorem State.reply_clock : (s.reply k t v).clock = s.clock := rfl
@[simp] theorem State.reply_due : (s.reply k t v).due = s.due := rfl
@[simp] theorem State.reply_readers : (s.reply k t v).readers = s.readers := rfl
@[simp] theorem State.reply_ports : (s.reply k t v).ports = s.ports := rfl
@[simp] theorem State.reply_chase : (s.reply k t v).chase = s.chase := rfl
@[simp] theorem State.reply_list : (s.reply k t v).list = s.list := rfl
@[simp] theorem State.reply_edit : (s.reply k t v).edit = s.edit := rfl
@[simp] theorem State.reply_run : (s.reply k t v).run = s.run := rfl
@[simp] theorem State.reply_engine : (s.reply k t v).engine = s.engine := rfl
@[simp] theorem State.reply_mixer : (s.reply k t v).mixer = s.mixer := rfl
@[simp] theorem State.reply_gpi : (s.reply k t v).gpi = s.gpi := rfl
@[simp] theorem State.reply_set : (s.reply k t v).set = s.set := rfl
@[simp] theorem State.reply_pending : (s.reply k t v).pending = s.pending := rfl

@[simp] theorem State.dropHead_fmt : s.dropHead.fmt = s.fmt := rfl
@[simp] theorem State.dropHead_now : s.dropHead.now = s.now := rfl
@[simp] theorem State.dropHead_asserted : s.dropHead.asserted = s.asserted := rfl
@[simp] theorem State.dropHead_ref : s.dropHead.ref = s.ref := rfl
@[simp] theorem State.dropHead_clock : s.dropHead.clock = s.clock := rfl
@[simp] theorem State.dropHead_due : s.dropHead.due = s.due := rfl
@[simp] theorem State.dropHead_readers : s.dropHead.readers = s.readers := rfl
@[simp] theorem State.dropHead_ports : s.dropHead.ports = s.ports := rfl
@[simp] theorem State.dropHead_chase : s.dropHead.chase = s.chase := rfl
@[simp] theorem State.dropHead_list : s.dropHead.list = s.list := rfl
@[simp] theorem State.dropHead_edit : s.dropHead.edit = s.edit := rfl
@[simp] theorem State.dropHead_run : s.dropHead.run = s.run := rfl
@[simp] theorem State.dropHead_engine : s.dropHead.engine = s.engine := rfl
@[simp] theorem State.dropHead_mixer : s.dropHead.mixer = s.mixer := rfl
@[simp] theorem State.dropHead_gpi : s.dropHead.gpi = s.gpi := rfl
@[simp] theorem State.dropHead_set : s.dropHead.set = s.set := rfl
@[simp] theorem State.dropHead_pending : s.dropHead.pending = s.pending := rfl

@[simp] theorem State.reply_link : (s.reply k t v).link = { s.link with
    replies := s.link.replies ++ [{ kind := replyKind k, tag := t, vals := v.map (Val.fix s.fmt) }] } := rfl

@[simp] theorem State.dropHead_link : s.dropHead.link = { s.link with input := s.link.input.tail } := rfl

@[simp] theorem State.port_reply : (s.reply k t v).port d = s.port d := rfl

@[simp] theorem State.chan_reply : (s.reply k t v).chan d = s.chan d := rfl

@[simp] theorem State.port_dropHead : s.dropHead.port d = s.port d := rfl

@[simp] theorem State.chan_dropHead : s.dropHead.chan d = s.chan d := rfl

end

end Sys2Proof.Machine

/-! ## Entries of the notice table (R177) -/

namespace Sys2Proof.Machine

open Sys2Proof.Safety

/-- The entry that the notice table holds for a pair of kind and source. -/
def State.entry (s : State) (k : NoticeKind) (n : Nat) : Option Notice :=
  s.link.notices.find? fun x => x.kind == k && x.source == n

theorem toldBefore_eq (s : State) (k : NoticeKind) (n : Nat) : toldBefore s k n = ((s.entry k n).map Notice.count).getD 0 := rfl

theorem State.entry_congr {s t : State} (same : t.link.notices = s.link.notices) (k : NoticeKind) (n : Nat) :
    t.entry k n = s.entry k n := by rw [entry, same, entry]

theorem pair_of_beq {k k' : NoticeKind} {n n' : Nat} (h : (k == k' && n == n') = true) : k' = k ∧ n' = n := by
  simp only [Bool.and_eq_true, beq_iff_eq] at h
  exact ⟨h.1.symm, h.2.symm⟩

/-- An entry of a pair raises the occurrence count of the pair and leaves the other pairs as they are. -/
theorem find_noticeEnter (k : NoticeKind) (n : Nat) (c : List Val) (stamp : Nat) (l : List Notice) (k' : NoticeKind)
    (n' : Nat) :
    (noticeEnter k n c stamp l).find? (fun x => x.kind == k' && x.source == n') =
      if k' = k ∧ n' = n then
        some { kind := k, source := n, content := c, stamp := stamp
               count := sat8 (((l.find? fun x => x.kind == k && x.source == n).map Notice.count).getD 0 + 1) }
      else l.find? fun x => x.kind == k' && x.source == n' := by
  induction l with
  | nil =>
    by_cases same : k' = k ∧ n' = n
    · obtain ⟨rfl, rfl⟩ := same
      simp [noticeEnter, sat8]
    · simp only [noticeEnter, if_neg same, List.find?_nil, List.find?_cons]
      rw [Bool.eq_false_iff.mpr fun h => same (pair_of_beq h)]
  | cons x l ih =>
    unfold noticeEnter
    by_cases mine : x.kind = k ∧ x.source = n
    · obtain ⟨rfl, rfl⟩ := mine
      rw [if_pos ⟨rfl, rfl⟩]
      by_cases same : k' = x.kind ∧ n' = x.source
      · obtain ⟨rfl, rfl⟩ := same
        simp
      · have other : (x.kind == k' && x.source == n') = false := Bool.eq_false_iff.mpr fun h => same (pair_of_beq h)
        simp [if_neg same, other]
    · rw [if_neg mine, List.find?_cons, ih, List.find?_cons, List.find?_cons]
      have other : (x.kind == k && x.source == n) = false := by simpa using mine
      by_cases same : k' = k ∧ n' = n
      · obtain ⟨rfl, rfl⟩ := same
        simp [other]
      · simp only [if_neg same]

section
variable (s : State) {k : NoticeKind} {n : Nat} (c : List Val)

theorem State.entry_enter_ne {k' : NoticeKind} {n' : Nat} (other : ¬(k' = k ∧ n' = n)) :
    (s.enter k n c).entry k' n' = s.entry k' n' := by
  unfold State.enter
  split
  · rfl
  · exact (find_noticeEnter _ _ _ _ _ _ _).trans (if_neg other)

theorem State.entry_enter_self (unmasked : s.link.masked k = false) : (s.enter k n c).entry k n =
    some { kind := k, source := n, content := c, stamp := s.clock.frame, count := sat8 (toldBefore s k n + 1) } := by
  rw [State.enter, if_neg (by simp [unmasked])]
  exact (find_noticeEnter _ _ _ _ _ _ _).trans (if_pos ⟨rfl, rfl⟩)

end

/-- From s to t a pair is entered a number of times, unless the kind is masked: the entry that t holds for the pair. -/
def Entered (s t : State) (k : NoticeKind) (n : Nat) (c : List Val) (times : Nat) : Prop :=
  s.link.masked k = false → t.entry k n =
    some { kind := k, source := n, content := c, stamp := s.clock.frame, count := min 255 (toldBefore s k n + times) }

namespace Entered

variable {s t u : State} {k : NoticeKind} {n times : Nat} {c : List Val}

theorem told (h : Entered s t k n c times) : Told s t k n c times := fun unmasked => List.mem_of_find?_eq_some (h unmasked)

/-- The first entry of a pair. -/
theorem first (none : t.entry k n = s.entry k n) (mask : t.link.mask = s.link.mask) (clock : t.clock = s.clock) :
    Entered s (t.enter k n c) k n c 1 := fun unmasked => by
  have before : toldBefore t k n = toldBefore s k n := by rw [toldBefore_eq, none, toldBefore_eq]
  rw [State.entry_enter_self t c (by rwa [Link.masked, mask]), clock, before]
  rfl

/-- One entry more of a pair. -/
theorem again {c' : List Val} (h : Entered s t k n c times) (mask : t.link.mask = s.link.mask) (clock : t.clock = s.clock) :
    Entered s (t.enter k n c') k n c' (times + 1) := fun unmasked => by
  have before : toldBefore t k n = min 255 (toldBefore s k n + times) := by rw [toldBefore_eq, h unmasked]; rfl
  rw [State.entry_enter_self t c' (by rwa [Link.masked, mask]), clock, before]
  simp only [Option.some.injEq, Notice.mk.injEq, sat8, true_and]
  omega

/-- A move that leaves the pair as it is. -/
theorem kept (h : Entered s t k n c times) (same : u.entry k n = t.entry k n) : Entered s u k n c times :=
  fun unmasked => same.trans (h unmasked)

/-- A move before the entries that leaves the pair as it is. -/
theorem since (h : Entered t u k n c times) (same : t.entry k n = s.entry k n) (mask : t.link.mask = s.link.mask)
    (clock : t.clock = s.clock) : Entered s u k n c times := fun unmasked => by
  rw [h (by rwa [Link.masked, mask]), clock, toldBefore_eq, same, toldBefore_eq]

end Entered

end Sys2Proof.Machine

/-! ## SET_CHASE and CLEAR_CHASE (R91, R92) -/

namespace Sys2Proof.Machine

open Sys2Proof.Safety

/-! ### The checks (R91) -/

/-- A chase that is not IDLE follows deck d. -/
def State.Followed (s : State) (d : Deck) : Prop := ∃ e : Deck, (s.chan e).st ≠ .idle ∧ (s.chan e).follows d = true

theorem State.followed_iff (s : State) (d : Deck) :
    (decks.any fun e => (s.chan e).st != .idle && (s.chan e).follows d) = true ↔ s.Followed d := by
  simp [Followed, mem_decks]

theorem Master.ofCode_code (m : Master) : Master.ofCode m.code = some m := by
  cases m with
  | house => rfl
  | deck d => revert d; decide

/-- A deck slave that the checks 2 to 4 let pass. -/
structure Port.Chaseable (p : Port) : Prop where
  present : p.presence = .present
  unowned : p.claim ≠ .sequencer
  speeds : p.hasVarispeed = true

section
variable {s : State} {d : Deck}

theorem State.chaseCheck_noDeck (absent : (s.port d).presence ≠ .present) (m : Master) : s.chaseCheck d m = some .noDeck :=
  if_pos absent

theorem State.chaseCheck_deckOwned (present : (s.port d).presence = .present) (owned : (s.port d).claim = .sequencer)
    (m : Master) : s.chaseCheck d m = some .deckOwned :=
  (if_neg (not_not_intro present)).trans (if_pos owned)

theorem State.chaseCheck_notChaseable (present : (s.port d).presence = .present) (unowned : (s.port d).claim ≠ .sequencer)
    (fixed : (s.port d).hasVarispeed = false) (m : Master) : s.chaseCheck d m = some .notChaseable :=
  (if_neg (not_not_intro present)).trans ((if_neg unowned).trans (if_pos (by simp [fixed])))

variable (free : (s.port d).Chaseable)
include free

open Classical in
/-- The checks of the master (R91). -/
theorem State.chaseCheck_master (m : Master) : s.chaseCheck d m = match m with
    | .house => if s.Followed d then some .chaseLoop else none
    | .deck x =>
      if x = d then some .chaseLoop
      else if (s.port x).presence ≠ .present then some .noDeck
      else if (s.chan x).st ≠ .idle then some .chaseLoop
      else if s.Followed d then some .chaseLoop
      else if x ∈ s.edit.sources then some .chaseLoop
      else none := by
  obtain ⟨present, unowned, speeds⟩ := free
  unfold chaseCheck
  dsimp only
  rw [if_neg (not_not_intro present), if_neg unowned, if_neg (not_not_intro speeds)]
  cases m <;> simp only [followed_iff]

theorem State.chaseCheck_loop {m : Master} (loop : m = .deck d ∨ (m = .house ∧ s.Followed d)) :
    s.chaseCheck d m = some .chaseLoop := by
  rw [chaseCheck_master free]
  rcases loop with rfl | ⟨rfl, followed⟩
  · exact if_pos rfl
  · exact if_pos followed

theorem State.chaseCheck_deck_noDeck {x : Deck} (other : x ≠ d) (absent : (s.port x).presence ≠ .present) :
    s.chaseCheck d (.deck x) = some .noDeck := by
  rw [chaseCheck_master free]
  simp only [if_neg other, if_pos absent]

theorem State.chaseCheck_deck_loop {x : Deck} (other : x ≠ d) (present : (s.port x).presence = .present)
    (loop : (s.chan x).st ≠ .idle ∨ s.Followed d ∨ x ∈ s.edit.sources) : s.chaseCheck d (.deck x) = some .chaseLoop := by
  rw [chaseCheck_master free]
  simp only [if_neg other, if_neg (not_not_intro present)]
  split
  · rfl
  · next idle =>
    split
    · rfl
    · next unfollowed => exact if_pos (by tauto)

theorem State.chaseCheck_passes {m : Master} (unfollowed : ¬s.Followed d)
    (master : ∀ x, m = .deck x → x ≠ d ∧ (s.port x).presence = .present ∧ (s.chan x).st = .idle ∧ x ∉ s.edit.sources) :
    s.chaseCheck d m = none := by
  rw [chaseCheck_master free]
  cases m with
  | house => exact if_neg unfollowed
  | deck x =>
    obtain ⟨other, present, idle, noSource⟩ := master x rfl
    simp [other, present, idle, unfollowed, noSource]

end

/-! ### The channel set afresh (R91) -/

/-- The channel of a link chase right after SET_CHASE. -/
def Channel.setLink (lead : Nat) (old : Channel) (m : Master) (o : Int) : Channel :=
  { Channel.idle lead (old.gen + 1) old.loc with st := .seek, owner := some .link, master := some m, offset := o }

/-- The state that SET_CHASE leaves, but for the notice and the reply. -/
def State.linkSet (s : State) (d : Deck) (m : Master) (o : Int) : State :=
  (({ s with due := { s.due with
      chase := s.due.chase.set d.val (if (s.chan d).active then s.due.chase[d.val] else 0) } } : State).setPort d
    { s.port d with claim := .link, servo := (s.port d).servo.filter fun c => c.cmd == .stop }).setChan d
    ((s.chan d).setLink s.set.lead m o)

theorem State.linkChase_eq (s : State) (d : Deck) (m : Master) (o : Int) : s.linkChase d m o =
    (s.linkSet d m o).enter .chaseState (Deck.num d)
      (((s.chan d).setLink s.set.lead m o).noticeContent (s.chan d).st .set) := rfl

section
variable (s : State) {d : Deck} (m : Master) (o : Int)

@[simp] theorem State.linkSet_link : (s.linkSet d m o).link = s.link := by simp [linkSet]

@[simp] theorem State.linkSet_clock : (s.linkSet d m o).clock = s.clock := by simp [linkSet]

@[simp] theorem State.chan_linkSet : (s.linkSet d m o).chan d = (s.chan d).setLink s.set.lead m o := chan_setChan _ _ _

theorem State.chan_linkSet_ne {e : Deck} (other : e ≠ d) : (s.linkSet d m o).chan e = s.chan e := chan_setChan_ne _ _ other

@[simp] theorem State.port_linkSet : (s.linkSet d m o).port d =
    { s.port d with claim := .link, servo := (s.port d).servo.filter fun c => c.cmd == .stop } := port_setPort _ _ _

theorem State.port_linkSet_ne {e : Deck} (other : e ≠ d) : (s.linkSet d m o).port e = s.port e := port_setPort_ne _ _ other

end

/-! ### The requests -/

section
variable {s : State} {r : Request}

theorem exec_setChase (s : State) : exec .setChase s = execSetChase s := rfl

theorem exec_clearChase (s : State) : exec .clearChase s = execClearChase s := rfl

section
variable {d : Deck} {m : Master} (taken : Takes s 0x19 r) (slave : byteN r.params 0 = Deck.num d)
  (master : byteN r.params 1 = m.code)
include taken slave master

theorem exec_setChase_refused {x : Result} (fails : s.chaseCheck d m = some x) :
    exec .setChase s = .next (answered s r x []) := by
  rw [← Laws.refuse_dropHead, exec_setChase]
  refine takeRequest_done taken ?_
  have fails' : s.dropHead.chaseCheck d m = some x := fails
  simp only [slave, master, Laws.deckOf_num, Master.ofCode_code, fails']

theorem exec_setChase_set (passes : s.chaseCheck d m = none) {o : Int}
    (offset : clampInt (-(s.fmt.halfDay : Int)) (s.fmt.halfDay - 1) (intAt r.params 2 3) = o) :
    exec .setChase s = .next ((s.dropHead.linkChase d m o).ok r [.i 3 o]) := by
  subst offset
  rw [exec_setChase]
  refine takeRequest_done taken ?_
  have passes' : s.dropHead.chaseCheck d m = none := passes
  simp only [slave, master, Laws.deckOf_num, Master.ofCode_code, passes']
  rfl

end

theorem deckOf_outside {n : Nat} (outside : n = 0 ∨ 6 < n) : deckOf n = none :=
  deckOf_none fun d h => by
    have := d.isLt
    change n = d.val + 1 at h
    omega

theorem Master.ofCode_outside {n : Nat} (outside : 6 < n) : Master.ofCode n = none := by
  rw [ofCode, if_neg (by omega), deckOf_outside (.inr outside)]
  rfl

end

end Sys2Proof.Machine

namespace Sys2Proof.Proofs

open Sys2Proof.Machine Sys2Proof.Safety

theorem setChase_noDeck {s : State} {r : Request} (taken : Takes s 0x19 r)
    (outside : byteN r.params 0 = 0 ∨ 6 < byteN r.params 0 ∨ 6 < byteN r.params 1) :
    exec .setChase s = .next (answered s r .noDeck []) := by
  rw [← Laws.refuse_dropHead, exec_setChase]
  refine takeRequest_done taken ?_
  by_cases slave : byteN r.params 0 = 0 ∨ 6 < byteN r.params 0
  · simp only [deckOf_outside slave]
  · rw [Master.ofCode_outside (show 6 < byteN r.params 1 by omega)]
    split
    · contradiction
    · rfl

theorem clearChase_answers {s : State} {r : Request} {d : Deck} (taken : Takes s 0x1A r)
    (number : byteN r.params 0 = Deck.num d) : exec .clearChase s = .next (
      if (s.chan d).owner = some .sequencer then s.dropHead.refuse r .deckOwned
      else (s.dropHead.clearLink d .cleared).ok r []) := by
  rw [exec_clearChase]
  refine takeRequest_done taken ?_
  simp only [number, Laws.deckOf_num]
  rfl

/-- Settles O22: SET_CHASE by its checks and the channel set afresh, CLEAR_CHASE by the channel's owner. -/
theorem chaseIsSetAndCleared : Obligations.ChaseIsSetAndCleared := by
  refine ⟨fun s r taken outside => setChase_noDeck taken outside, fun s r d m taken slave master => ?_,
    fun s r taken outside => ?_, fun s r d taken number => ⟨fun owned => ?_, fun unowned => ?_, fun link active => ?_⟩⟩
  · intro p free followed o
    have refused {x : Result} (fails : s.chaseCheck d m = some x) := exec_setChase_refused taken slave master fails
    refine ⟨fun absent => refused (State.chaseCheck_noDeck absent m),
      fun present owned => refused (State.chaseCheck_deckOwned present owned m),
      fun present unowned fixed => refused (State.chaseCheck_notChaseable present unowned fixed m),
      fun ⟨present, unowned, speeds⟩ loop => refused (State.chaseCheck_loop ⟨present, unowned, speeds⟩ loop), ?_, ?_⟩
    · rintro x ⟨present, unowned, speeds⟩ rfl other
      exact ⟨fun absent => refused (State.chaseCheck_deck_noDeck ⟨present, unowned, speeds⟩ other absent),
        fun there loop => refused (State.chaseCheck_deck_loop ⟨present, unowned, speeds⟩ other there loop)⟩
    · rintro ⟨present, unowned, speeds⟩ unfollowed fit
      have passes := State.chaseCheck_passes ⟨present, unowned, speeds⟩ unfollowed fit
      refine ⟨_, exec_setChase_set taken slave master passes rfl, ?_⟩
      have entered : Entered s ((s.dropHead.linkChase d m o).ok r [.i 3 o]) .chaseState (Deck.num d)
          (((s.chan d).setLink s.set.lead m o).noticeContent (s.chan d).st .set) 1 :=
        .kept (.first (State.entry_congr (by simp) _ _) (by simp) (by simp)) rfl
      have chan : ((s.dropHead.linkChase d m o).ok r [.i 3 o]).chan d = (s.chan d).setLink s.set.lead m o := by
        simp [State.linkChase_eq, State.ok]
      refine ⟨chan, ?told, fun e other => ?chans, ?port, fun e other => ?ports, ?rest⟩
      case told =>
        rw [ChaseTold, chan]
        exact entered.told
      case chans => simp [State.linkChase_eq, State.ok, State.chan_linkSet_ne _ _ _ other]
      case port => simp [State.linkChase_eq, State.ok, p]
      case ports => simp [State.linkChase_eq, State.ok, State.port_linkSet_ne _ _ _ other]
      case rest => simp [State.linkChase_eq, State.ok, State.linkSet, answered, vResult, replyKind, Val.fix, o]; rfl
  · rw [← Laws.refuse_dropHead, exec_clearChase]
    refine takeRequest_done taken ?_
    simp only [deckOf_outside outside]
  · rw [clearChase_answers taken number, if_pos owned, Laws.refuse_dropHead]
  · have kept : s.dropHead.clearLink d .cleared = s.dropHead := if_neg (by rw [State.chan_dropHead, unowned]; decide)
    rw [clearChase_answers taken number, if_neg (by rw [unowned]; decide), kept, Laws.ok_dropHead]
    rfl
  · intro c
    rw [clearChase_answers taken number, if_neg (by rw [link]; decide),
      State.clearLink_active (s := s.dropHead) link active, State.enter_ok]
    rfl

end Sys2Proof.Proofs

/-! ## What the moves of sequencer, channels and arbiter leave as it is -/

namespace Sys2Proof.Machine

open Sys2Proof.Safety

/-- The fields of a port that arbiter and postings leave. -/
def Port.record (p : Port) :=
  (p.enabled, p.presence, p.ident, p.flags, p.fails, p.claim, p.nak, p.replyFrom, p.byteAt, p.rx, p.stray, p.late)

/-- A move from s to t that changes the edit, the arbiters' part of the ports, the channels, the engine, the GPI schedule and
the waiting replies at most, and enters notices of the kinds ks alone. -/
structure Quiet (ks : List NoticeKind) (s t : State) : Prop where
  fmt : t.fmt = s.fmt
  now : t.now = s.now
  asserted : t.asserted = s.asserted
  ref : t.ref = s.ref
  clock : t.clock = s.clock
  due : t.due = s.due
  readers : t.readers = s.readers
  list : t.list = s.list
  run : t.run = s.run
  mixer : t.mixer = s.mixer
  set : t.set = s.set
  pending : t.pending = s.pending
  link : t.link = { s.link with notices := t.link.notices, replies := t.link.replies }
  record : ∀ d, (t.port d).record = (s.port d).record
  entries : ∀ k n, k ∉ ks → t.entry k n = s.entry k n

namespace Quiet

variable {ks : List NoticeKind}

theorem refl (s : State) : Quiet ks s s :=
  ⟨rfl, rfl, rfl, rfl, rfl, rfl, rfl, rfl, rfl, rfl, rfl, rfl, rfl, fun _ => rfl, fun _ _ _ => rfl⟩

theorem trans {s t u : State} (a : Quiet ks s t) (b : Quiet ks t u) : Quiet ks s u where
  fmt := b.fmt.trans a.fmt
  now := b.now.trans a.now
  asserted := b.asserted.trans a.asserted
  ref := b.ref.trans a.ref
  clock := b.clock.trans a.clock
  due := b.due.trans a.due
  readers := b.readers.trans a.readers
  list := b.list.trans a.list
  run := b.run.trans a.run
  mixer := b.mixer.trans a.mixer
  set := b.set.trans a.set
  pending := b.pending.trans a.pending
  link := by rw [b.link, a.link]
  record d := (b.record d).trans (a.record d)
  entries k n other := (b.entries k n other).trans (a.entries k n other)

/-- `trans` with the later move first, so that the state between is known when the earlier one is checked. -/
theorem after {s t u : State} (b : Quiet ks t u) (a : Quiet ks s t) : Quiet ks s u := a.trans b

theorem mono {ks' : List NoticeKind} {s t : State} (h : Quiet ks s t) (sub : ks ⊆ ks') : Quiet ks' s t :=
  { h with entries := fun k n other => h.entries k n fun mem => other (sub mem) }

theorem ite {s t u : State} {p : Prop} [Decidable p] (a : Quiet ks s t) (b : Quiet ks s u) :
    Quiet ks s (if p then t else u) := by split <;> assumption

theorem foldl {α : Type} {f : State → α → State} (h : ∀ s a, Quiet ks s (f s a)) (l : List α) (s : State) :
    Quiet ks s (l.foldl f s) := by
  induction l generalizing s with
  | nil => exact refl s
  | cons a l ih => exact (h s a).trans (ih _)

/-! ### What is read of such a state -/

section
variable {s t : State} (h : Quiet ks s t)
include h

theorem reader (d : Deck) : t.reader d = s.reader d := by rw [State.reader, h.readers, State.reader]

theorem mask : t.link.mask = s.link.mask := by rw [h.link]

theorem recorder : t.recorder = s.recorder := by rw [State.recorder, h.link, State.recorder]

theorem safeStop : t.safeStop = s.safeStop := by rw [State.safeStop, h.link, State.safeStop]

theorem expired : t.link.expired = s.link.expired := by rw [h.link]

theorem presence (d : Deck) : (t.port d).presence = (s.port d).presence := congrArg (·.2.1) (h.record d)

theorem flags (d : Deck) : (t.port d).flags = (s.port d).flags := congrArg (·.2.2.2.1) (h.record d)

theorem fails (d : Deck) : (t.port d).fails = (s.port d).fails := congrArg (·.2.2.2.2.1) (h.record d)

theorem claim (d : Deck) : (t.port d).claim = (s.port d).claim := congrArg (·.2.2.2.2.2.1) (h.record d)

theorem nak (d : Deck) : (t.port d).nak = (s.port d).nak := congrArg (·.2.2.2.2.2.2.1) (h.record d)

theorem moving (d : Deck) : (t.port d).moving = (s.port d).moving := by simp only [Port.moving, Port.flag, h.flags]

theorem house : t.house = s.house := by rw [State.house, h.fmt, h.ref, State.house]

theorem extrap (d : Deck) (i : Nat) : t.extrap d i = s.extrap d i := by
  simp only [State.extrap, h.reader, h.fmt, h.moving]

theorem recNow : t.recNow = s.recNow := by
  simp only [State.recNow, State.recFrame, State.extrapFrame, h.extrap, h.recorder, h.house, h.fmt]

end

/-! ### Single fields -/

section
variable (s : State)

theorem edit (e : Edit) : Quiet ks s { s with edit := e } :=
  ⟨rfl, rfl, rfl, rfl, rfl, rfl, rfl, rfl, rfl, rfl, rfl, rfl, rfl, fun _ => rfl, fun _ _ _ => rfl⟩

theorem engine (e : Engine) : Quiet ks s { s with engine := e } :=
  ⟨rfl, rfl, rfl, rfl, rfl, rfl, rfl, rfl, rfl, rfl, rfl, rfl, rfl, fun _ => rfl, fun _ _ _ => rfl⟩

theorem gpi (g : Gpi) : Quiet ks s { s with gpi := g } :=
  ⟨rfl, rfl, rfl, rfl, rfl, rfl, rfl, rfl, rfl, rfl, rfl, rfl, rfl, fun _ => rfl, fun _ _ _ => rfl⟩

theorem reply (k g : Byte) (v : List Val) : Quiet ks s (s.reply k g v) :=
  ⟨rfl, rfl, rfl, rfl, rfl, rfl, rfl, rfl, rfl, rfl, rfl, rfl, rfl, fun _ => rfl, fun _ _ _ => rfl⟩

theorem setChan (d : Deck) (c : Channel) : Quiet ks s (s.setChan d c) :=
  ⟨rfl, rfl, rfl, rfl, rfl, rfl, rfl, rfl, rfl, rfl, rfl, rfl, rfl, fun _ => rfl, fun _ _ _ => rfl⟩

theorem setPort (d : Deck) (p : Port) (record : p.record = (s.port d).record) : Quiet ks s (s.setPort d p) where
  fmt := rfl
  now := rfl
  asserted := rfl
  ref := rfl
  clock := rfl
  due := rfl
  readers := rfl
  list := rfl
  run := rfl
  mixer := rfl
  set := rfl
  pending := rfl
  link := rfl
  entries _ _ _ := rfl
  record e := by
    by_cases same : e = d
    · rw [same, State.port_setPort, record]
    · rw [State.port_setPort_ne s p same]

theorem enter {k : NoticeKind} (mem : k ∈ ks) (n : Nat) (c : List Val) : Quiet ks s (s.enter k n c) where
  fmt := State.enter_fmt s k n c
  now := State.enter_now s k n c
  asserted := State.enter_asserted s k n c
  ref := State.enter_ref s k n c
  clock := State.enter_clock s k n c
  due := State.enter_due s k n c
  readers := State.enter_readers s k n c
  list := State.enter_list s k n c
  run := State.enter_run s k n c
  mixer := State.enter_mixer s k n c
  set := State.enter_set s k n c
  pending := State.enter_pending s k n c
  link := by rw [State.enter_link]
  record d := by rw [State.port_enter]
  entries k' n' other := State.entry_enter_ne s c fun same => other (same.1 ▸ mem)

end

end Quiet

end Sys2Proof.Machine

/-! ## The quiet operations -/

namespace Sys2Proof.Machine

open Sys2Proof.Safety

/-! ### The arbiter (R53, R61) -/

/-- A command that is picked leaves the record. -/
theorem Port.pickLower_record {p q : Port} {x : Flight} (picked : p.pickLower = some (x, q)) : q.record = p.record := by
  unfold Port.pickLower at picked
  split at picked
  · cases picked; rfl
  · cases picked; rfl
  · cases picked; rfl
  · split at picked
    · cases picked
    · split at picked <;> cases picked <;> rfl

theorem Port.pick_record {p q : Port} {x : Flight} (picked : p.pick = some (x, q)) : q.record = p.record := by
  unfold Port.pick at picked
  split at picked
  · split at picked <;> cases picked <;> rfl
  · split at picked
    · cases picked
    · exact Port.pickLower_record picked

theorem Port.sending_record (p : Port) (f : SuiteFormat) (x : Flight) : (p.sending f x).record = p.record := by
  unfold Port.sending
  dsimp only
  split <;> rfl

namespace Quiet

variable (s : State)

theorem setPhase (p : Phase) : Quiet [.editPhase] s (s.setPhase p) := by
  unfold State.setPhase
  exact ite (refl s) ((edit s _).trans (enter _ (by decide) _ _))

theorem toldRecordOn : Quiet [.editPhase] s s.toldRecordOn := edit s _

theorem toldRecordOff : Quiet [.editPhase] s s.toldRecordOff := (setPhase _ _).after (edit s _)

theorem toldEmergencyOff : Quiet [.editPhase] s s.toldEmergencyOff := by
  unfold State.toldEmergencyOff
  exact ite ((setPhase _ _).after (edit s _)) (refl s)

theorem toldSequencer (c : DeckCmd) : Quiet [.editPhase] s (s.toldSequencer c) := by
  unfold State.toldSequencer
  split
  · exact toldRecordOn s
  · exact toldRecordOn s
  · exact toldRecordOff s
  · exact refl s

theorem toldChannel (d : Deck) (gen : Nat) (c : DeckCmd) : Quiet [.editPhase] s (s.toldChannel d gen c) := by
  unfold State.toldChannel
  dsimp only
  split
  · split
    · exact setChan s _ _
    · exact setChan s _ _
    · exact refl s
  · exact refl s

theorem told (d : Deck) (x : Flight) : Quiet [.editPhase] s (s.told d x) := by
  unfold State.told
  split
  · exact refl s
  · cases x.origin with
    | sequencer => exact toldSequencer s _
    | servo gen loc => exact toldChannel s _ _ _
    | emergencyOff => exact toldEmergencyOff s
    | emergencyStop a b => exact refl s
    | pass k t => exact refl s
    | poll => exact refl s

theorem handLine (d : Deck) : Quiet [.editPhase] s (s.handLine d) := by
  unfold State.handLine
  dsimp only
  split
  · split
    · next x p picked =>
      exact (told _ d _).after (setPort s d _ ((Port.sending_record p _ _).trans (Port.pick_record picked)))
    · exact refl s
  · exact refl s

/-! ### Postings (R61 to R64, R87) -/

theorem putSeq (d : Deck) (c : DeckCmd) : Quiet [.editPhase] s (s.putSeq d c) := setPort s d _ rfl

theorem putServo (d : Deck) (c : DeckCmd) : Quiet [.editPhase] s (s.putServo d c) := setPort s d _ rfl

theorem chanFailed (d : Deck) (gen loc : Nat) (c : DeckCmd) : Quiet [.editPhase] s (s.chanFailed d gen loc c) := by
  unfold State.chanFailed
  dsimp only
  split
  · split
    · exact ite (setChan s _ _) (refl s)
    · exact setChan s _ _
    · exact setChan s _ _
    · exact refl s
  · exact refl s

theorem postEmergency (d : Deck) (toSeq toSafe : Bool) : Quiet [.editPhase] s (s.postEmergency d toSeq toSafe) := by
  have withdrawn (u : State) (c : Option ServoCmd) : Quiet [.editPhase] u (match c with
      | some c => u.chanFailed d c.gen c.loc c.cmd
      | none => u) := by
    split
    · exact chanFailed u _ _ _ _
    · exact refl u
  have answered (u : State) (c : Option PassCmd) : Quiet [.editPhase] u (match c with
      | some c => u.passAborted c
      | none => u) := by
    split
    · exact reply u _ _ _
    · exact refl u
  unfold State.postEmergency
  exact (handLine _ d).after ((answered _ _).after ((withdrawn _ _).after (setPort s d _ rfl)))

/-! ### The end of an edit (R66, R93, R126, R129, R154) -/

theorem warn (f : Warnings → Warnings) {ks : List NoticeKind} : Quiet ks s (s.warn f) := by
  unfold State.warn
  exact ite (edit s _) (refl s)

theorem leftLocked (old new : Channel) {ks : List NoticeKind} : Quiet ks s (s.leftLocked old new) := by
  unfold State.leftLocked
  exact ite (warn s _) (refl s)

theorem chanMove (d : Deck) (c : Channel) (why : ChaseCause) : Quiet [.chaseState] s (s.chanMove d c why) :=
  (leftLocked _ _ _).after ((enter _ (by decide) _ _).after (setChan s d c))

theorem clearChan (d : Deck) (why : ChaseCause) : Quiet [.chaseState] s (s.clearChan d why) := by
  unfold State.clearChan
  exact ite (refl s) ((enter _ (by decide) _ _).after ((setChan _ d _).after (setPort s d _ rfl)))

theorem clearEditChans : Quiet [.chaseState] s s.clearEditChans :=
  foldl (fun s d => ite (clearChan s d _) (refl s)) _ s

theorem engineMove (e : Engine) (why : TransCause) : Quiet [.transitionState] s (s.engineMove e why) :=
  (enter _ (by decide) _ _).after (engine s e)

theorem engineAbort : Quiet [.transitionState] s s.engineAbort := by
  unfold State.engineAbort
  exact ite (engineMove s _ _) (ite (engineMove s _ _) (engine s _))

theorem engineWithdraw : Quiet [.transitionState] s s.engineWithdraw := by
  unfold State.engineWithdraw
  exact ite (engineMove s _ _) (engine s _)

theorem gpiDisarm {ks : List NoticeKind} : Quiet ks s s.gpiDisarm := gpi s _

theorem closeWindow {ks : List NoticeKind} : Quiet ks s s.closeWindow := by
  unfold State.closeWindow
  exact ite (setPort s _ _ rfl) (refl s)

end Quiet

/-! ## When no silence stop is due (R180) -/

/-- A hand is the hand alone: the silence timer has not expired, its stop is taken, or a safe stop runs. -/
theorem State.hand_eq {s : State} (quiet : s.link.expired = false ∨ s.link.stopTaken = true ∨ s.safeStop = true)
    (d : Deck) : s.hand d = s.handLine d := by
  have kept := Quiet.handLine s d
  refine if_neg fun ⟨expired, _, notTaken, free⟩ => ?_
  rw [kept.safeStop] at free
  rw [kept.link] at expired notTaken
  rcases quiet with running | taken | stops
  · exact Bool.false_ne_true (running.symm.trans expired)
  · exact notTaken taken
  · exact free stops

/-- With the timer running a hand is the hand alone. -/
theorem State.hand_running {s : State} (running : s.link.expired = false) (d : Deck) : s.hand d = s.handLine d :=
  State.hand_eq (.inl running) d

end Sys2Proof.Machine

/-! ## The hand to an IDLE line, slot by slot (R61 to R66, R68, R120, R122, R129) -/

namespace Sys2Proof.Machine

open Sys2Proof.Safety

/-! ### The port that takes a command -/

section
variable (p : Port) (f : SuiteFormat)

/-- The line after a hand: the command goes out, and the fresh mark stays for a sense alone (R50, R54). -/
def Port.sends (x : Flight) : Port :=
  { p with line := .sending, flight := some x, tx := x.cmd.frame f, fresh := p.fresh && x.cmd.isSense }

/-- Record stands no more, and the quiet window is closed (R66, R68). -/
def Port.recordEnds : Port := { p with standing := false, quiet := false, hold := p.quiet || p.hold }

theorem Port.sending_plain {c : DeckCmd} (plain : c.isRecord = false) (o : Origin) :
    p.sending f ⟨c, o⟩ = p.sends f ⟨c, o⟩ := by
  cases c with
  | recordOn tracks kind => exact absurd plain (by simp [DeckCmd.isRecord])
  | recordOff => exact absurd plain (by simp [DeckCmd.isRecord])
  | _ => rfl

theorem Port.sending_on (tracks : BitVec 5) (kind : EditKind) (o : Origin) :
    p.sending f ⟨.recordOn tracks kind, o⟩ = { p.sends f ⟨.recordOn tracks kind, o⟩ with standing := true } := rfl

theorem Port.sending_off (o : Origin) : p.sending f ⟨.recordOff, o⟩ = p.recordEnds.sends f ⟨.recordOff, o⟩ := rfl

/-- Clamping changes no RECORD command, and makes none. -/
theorem Port.clampSpeed_isRecord (c : DeckCmd) : (p.clampSpeed c).isRecord = c.isRecord := by cases c <;> rfl

/-- Clamping leaves a command that is no speed. -/
theorem Port.clampSpeed_fixed {c : DeckCmd} (fixed : ∀ v, c ≠ .varispeed v) : p.clampSpeed c = c := by
  cases c with
  | varispeed v => exact absurd rfl (fixed v)
  | _ => rfl

end

/-- Without an EMERGENCY item an enabled port serves the slots below. -/
theorem Port.pick_lower {p : Port} (noItem : p.emerg = none) (enabled : p.presence ≠ .disabled) :
    p.pick = p.pickLower := by simp only [Port.pick, noItem, if_neg enabled]

/-! ### Who is told (R53) -/

/-- The channel once it hears that a command of its own is handed: the last speed sent (R81, R83). -/
def Channel.speedTold (c : Channel) (k : DeckCmd) : Channel :=
  match k with
  | .play => { c with speed := some 1000 }
  | .varispeed v => { c with speed := some v }
  | _ => c

theorem Channel.speedTold_other (c : Channel) {k : DeckCmd} (noPlay : k ≠ .play) (noSpeed : ∀ v, k ≠ .varispeed v) :
    c.speedTold k = c := by
  cases k with
  | play => exact absurd rfl noPlay
  | varispeed v => exact absurd rfl (noSpeed v)
  | _ => rfl

section
variable (s : State) (d : Deck)

theorem State.told_free (free : s.safeStop = false) (x : Flight) : s.told d x = match x.origin with
    | .sequencer => s.toldSequencer x.cmd
    | .servo gen _ => s.toldChannel d gen x.cmd
    | .emergencyOff => s.toldEmergencyOff
    | .emergencyStop _ _ => s
    | .pass _ _ => s
    | .poll => s := if_neg (by simp [free])

theorem State.told_safe (stops : s.safeStop = true) (x : Flight) : s.told d x = s := if_pos stops

theorem State.toldSequencer_plain {c : DeckCmd} (plain : c.isRecord = false) : s.toldSequencer c = s := by
  cases c with
  | recordOn tracks kind => exact absurd plain (by simp [DeckCmd.isRecord])
  | recordOff => exact absurd plain (by simp [DeckCmd.isRecord])
  | _ => rfl

theorem State.toldSequencer_on (tracks : BitVec 5) (kind : EditKind) :
    s.toldSequencer (.recordOn tracks kind) =
      if s.edit.phase = .rolling ∨ s.edit.phase = .editing then s.toldRecordOn else s := by
  unfold State.toldSequencer
  cases s.edit.phase <;> simp

theorem State.toldSequencer_off :
    s.toldSequencer .recordOff = if s.edit.phase = .editing then s.toldRecordOff else s := by
  unfold State.toldSequencer
  cases s.edit.phase <;> simp

theorem State.lateOff_eq (f : Option Nat) : s.lateOff f = f.any fun y => s.edit.active.any fun x =>
    2 ≤ s.fmt.d y (s.fmt.addFrames x.2.recOut (-(s.edit.offDelay : Int))) := by
  unfold State.lateOff Edit.fields Edit.offPoint
  cases f with
  | none => rfl
  | some y => cases s.edit.active <;> rfl

/-- What the sequencer hears of a command of its own changes neither ports nor channels, and nothing at all of a plain one. -/
theorem State.told_sequencer_plain {c : DeckCmd} (plain : c.isRecord = false) : s.told d ⟨c, .sequencer⟩ = s := by
  cases free : s.safeStop with
  | true => exact s.told_safe d free _
  | false => exact (s.told_free d free _).trans (s.toldSequencer_plain plain)

theorem State.told_emergencyStop (c : DeckCmd) (a b : Bool) : s.told d ⟨c, .emergencyStop a b⟩ = s := by simp [State.told]

theorem State.told_pass (c : DeckCmd) (k t : Byte) : s.told d ⟨c, .pass k t⟩ = s := by simp [State.told]

theorem State.told_poll (c : DeckCmd) : s.told d ⟨c, .poll⟩ = s := by simp [State.told]

/-- A channel that acts, and whose command it is, hears of a speed. -/
theorem State.told_servo (c : DeckCmd) (gen loc : Nat) : s.told d ⟨c, .servo gen loc⟩ =
    if s.safeStop = false ∧ (s.chan d).gen = gen ∧ (s.chan d).active = true then s.setChan d ((s.chan d).speedTold c)
    else s := by
  cases free : s.safeStop with
  | true => rw [s.told_safe d free, if_neg fun both => Bool.noConfusion both.1]
  | false =>
    rw [s.told_free d free]
    unfold State.toldChannel
    simp only [true_and]
    refine if_congr Iff.rfl ?_ rfl
    cases c with
    | play => rfl
    | varispeed v => rfl
    | _ => exact (s.setChan_chan d).symm

end

/-! ### The hand -/

section
variable {s : State} {d : Deck}

theorem State.handLine_busy (busy : (s.port d).line ≠ .idle) : s.handLine d = s := if_neg busy

section
variable (idle : (s.port d).line = .idle)
include idle

theorem State.handLine_none (nothing : (s.port d).pick = none) : s.handLine d = s := by
  simp only [State.handLine, if_pos idle, nothing]

theorem State.handLine_picked {x : Flight} {q : Port} (picked : (s.port d).pick = some (x, q)) : s.handLine d =
    (s.setPort d (q.sending s.fmt ⟨q.clampSpeed x.cmd, x.origin⟩)).told d ⟨q.clampSpeed x.cmd, x.origin⟩ := by
  simp only [State.handLine, if_pos idle, picked]

/-! The command that is picked. -/

theorem State.handLine_emergencyOff {a b : Bool}
    (item : (s.port d).emerg = some { recordOff := true, toSeq := a, toSafe := b }) : s.handLine d =
      (s.setPort d ({ s.port d with emerg := some { recordOff := false, toSeq := a, toSafe := b } }.recordEnds.sends s.fmt
        ⟨.recordOff, .emergencyOff⟩)).told d ⟨.recordOff, .emergencyOff⟩ :=
  State.handLine_picked idle (x := ⟨.recordOff, .emergencyOff⟩)
    (q := { s.port d with emerg := some { recordOff := false, toSeq := a, toSafe := b } })
    (by simp only [Port.pick, item, if_true])

theorem State.handLine_emergencyStop {a b : Bool}
    (item : (s.port d).emerg = some { recordOff := false, toSeq := a, toSafe := b }) : s.handLine d =
      s.setPort d ({ s.port d with emerg := none }.sends s.fmt ⟨.stop, .emergencyStop a b⟩) := by
  have picked : (s.port d).pick = some (⟨.stop, .emergencyStop a b⟩, { s.port d with emerg := none }) := by
    simp only [Port.pick, item, Bool.false_eq_true, if_false]
  rw [State.handLine_picked idle picked, State.told_emergencyStop]
  rfl

theorem State.handLine_disabled (noItem : (s.port d).emerg = none) (disabled : (s.port d).presence = .disabled) :
    s.handLine d = s :=
  State.handLine_none idle (by simp only [Port.pick, noItem, if_pos disabled])

section
variable (noItem : (s.port d).emerg = none) (enabled : (s.port d).presence ≠ .disabled)
include noItem enabled

theorem State.handLine_sequencer {c : DeckCmd} {x : Option DeckCmd}
    (waits : (s.port d).seqSlot.first = some c ∧ (s.port d).seqSlot.second = x ∨
      (s.port d).seqSlot.first = none ∧ (s.port d).seqSlot.second = some c ∧ x = none) : s.handLine d =
    (s.setPort d ({ s.port d with seqSlot := { first := none, second := x } }.sending s.fmt
      ⟨(s.port d).clampSpeed c, .sequencer⟩)).told d ⟨(s.port d).clampSpeed c, .sequencer⟩ := by
  refine State.handLine_picked idle (q := { s.port d with seqSlot := { first := none, second := x } }) (x := ⟨c, .sequencer⟩) ?_
  rw [Port.pick_lower noItem enabled, Port.pickLower]
  rcases waits with ⟨first, second⟩ | ⟨first, second, none⟩
  · simp only [first, second]
  · simp only [first, second, none]

/-- A command of the sequencer other than a RECORD command. -/
theorem State.handLine_plain {c : DeckCmd} {x : Option DeckCmd}
    (waits : (s.port d).seqSlot.first = some c ∧ (s.port d).seqSlot.second = x ∨
      (s.port d).seqSlot.first = none ∧ (s.port d).seqSlot.second = some c ∧ x = none) (plain : c.isRecord = false) :
    s.handLine d = s.setPort d ({ s.port d with seqSlot := { first := none, second := x } }.sends s.fmt
      ⟨(s.port d).clampSpeed c, .sequencer⟩) := by
  have clamped : ((s.port d).clampSpeed c).isRecord = false := by rw [Port.clampSpeed_isRecord, plain]
  rw [State.handLine_sequencer idle noItem enabled waits, Port.sending_plain _ _ clamped _]
  exact State.told_sequencer_plain _ _ clamped

section
variable (empty : (s.port d).seqSlot = { first := none, second := none })
include empty

theorem State.handLine_servo {x : ServoCmd} (waits : (s.port d).servo = some x) (plain : x.cmd.isRecord = false) :
    s.handLine d = (s.setPort d ({ s.port d with servo := none }.sends s.fmt
      ⟨(s.port d).clampSpeed x.cmd, .servo x.gen x.loc⟩)).told d ⟨(s.port d).clampSpeed x.cmd, .servo x.gen x.loc⟩ := by
  have clamped : ((s.port d).clampSpeed x.cmd).isRecord = false := by rw [Port.clampSpeed_isRecord, plain]
  have picked : (s.port d).pick = some (⟨x.cmd, .servo x.gen x.loc⟩, { s.port d with servo := none }) := by
    rw [Port.pick_lower noItem enabled, Port.pickLower]
    simp only [empty, waits]
  rw [State.handLine_picked idle picked]
  exact congrArg (State.told · d _) (congrArg (s.setPort d) (Port.sending_plain _ _ clamped _))

section
variable (noServo : (s.port d).servo = none)
include noServo

theorem State.handLine_barred (barred : (s.port d).quiet = true ∨ (s.port d).hold = true ∨
    ((s.port d).pass = none ∧ (s.port d).poll = none)) : s.handLine d = s := by
  refine State.handLine_none idle ?_
  rw [Port.pick_lower noItem enabled, Port.pickLower]
  simp only [empty, noServo]
  rcases barred with window | window | ⟨noPass, noPoll⟩
  · simp only [window, Bool.true_or, if_true]
  · simp only [window, Bool.or_true, if_true]
  · simp only [noPass, noPoll, ite_self]

variable (opened : ((s.port d).quiet || (s.port d).hold) = false)
include opened

theorem State.handLine_pass {x : PassCmd} (waits : (s.port d).pass = some x) (plain : x.cmd.isRecord = false) :
    s.handLine d = s.setPort d ({ s.port d with pass := none }.sends s.fmt
      ⟨(s.port d).clampSpeed x.cmd, .pass x.kind x.tag⟩) := by
  have clamped : ((s.port d).clampSpeed x.cmd).isRecord = false := by rw [Port.clampSpeed_isRecord, plain]
  have picked : (s.port d).pick = some (⟨x.cmd, .pass x.kind x.tag⟩, { s.port d with pass := none }) := by
    rw [Port.pick_lower noItem enabled, Port.pickLower]
    simp only [empty, noServo, opened, waits, Bool.false_eq_true, if_false]
  rw [State.handLine_picked idle picked, State.told_pass]
  exact congrArg (s.setPort d) (Port.sending_plain _ _ clamped _)

theorem State.handLine_poll {c : DeckCmd} (noPass : (s.port d).pass = none) (waits : (s.port d).poll = some c)
    (plain : c.isRecord = false) : s.handLine d =
      s.setPort d ({ s.port d with poll := none }.sends s.fmt ⟨(s.port d).clampSpeed c, .poll⟩) := by
  have clamped : ((s.port d).clampSpeed c).isRecord = false := by rw [Port.clampSpeed_isRecord, plain]
  have picked : (s.port d).pick = some (⟨c, .poll⟩, { s.port d with poll := none }) := by
    rw [Port.pick_lower noItem enabled, Port.pickLower]
    simp only [empty, noServo, opened, noPass, waits, Bool.false_eq_true, if_false]
  rw [State.handLine_picked idle picked, State.told_poll]
  exact congrArg (s.setPort d) (Port.sending_plain _ _ clamped _)

end

end

end

end

/-- The attach timer posts IDENTIFY on an empty POLL slot (R57). -/
theorem State.putIdentify_eq (s : State) (d : Deck) : s.putIdentify d = s.setPort d { s.port d with
    attachAt := some s.now, poll := some ((s.port d).poll.getD .identify) } := by
  unfold State.putIdentify
  dsimp only
  refine congrArg (fun q => s.setPort d { s.port d with attachAt := some s.now, poll := q }) ?_
  cases (s.port d).poll <;> rfl

end

end Sys2Proof.Machine

/-! ## Bytes outside a reply, and the frames they form (R52) -/

namespace Sys2Proof.Machine

open Sys2Proof.Safety

/-- One failure more of a PRESENT deck (R55). -/
def Port.failed (p : Port) : Port := { p with fails := if p.presence = .present then p.fails + 1 else p.fails }

/-- A failure that is not the third in a row of a PRESENT deck is counted at most. -/
theorem State.countFailure_counted {s : State} {d : Deck} (few : (s.port d).presence = .present → (s.port d).fails < 2) :
    s.countFailure d = s.setPort d (s.port d).failed := by
  by_cases present : (s.port d).presence = .present
  · rw [State.countFailure_few present (few present), Port.failed, if_pos present]
  · rw [Port.failed, if_neg present, State.setPort_port]
    exact if_neg present

/-! ### Frames -/

/-- Bytes are still to come of a frame that has its length byte. -/
def RxFrame.part (f : RxFrame) : Prop := 2 ≤ byteN f.bytes 0 ∧ byteN f.bytes 0 ≤ 18 ∧ f.bytes.length ≤ byteN f.bytes 0

/-- The check byte of a frame has come. -/
def RxFrame.whole (f : RxFrame) : Prop := 2 ≤ byteN f.bytes 0 ∧ byteN f.bytes 0 ≤ 18 ∧ f.bytes.length = byteN f.bytes 0 + 1

/-- A frame ends at a bad length byte or at its check byte. -/
def RxFrame.ends (f : RxFrame) : Bool := f.badLength || f.complete

section
variable {f : RxFrame}

theorem RxFrame.ends_of_part (part : f.part) : f.ends = false := by
  obtain ⟨low, high, short⟩ := part
  simp only [RxFrame.ends, RxFrame.badLength, RxFrame.complete, Bool.or_eq_false_iff, decide_eq_false_iff_not,
    beq_eq_false_iff_ne]
  omega

theorem RxFrame.ends_of_whole (whole : f.whole) : f.ends = true := by
  obtain ⟨_, _, length⟩ := whole
  simp [RxFrame.ends, RxFrame.complete, length]

theorem RxFrame.ends_of_bad (bad : byteN f.bytes 0 < 2 ∨ 18 < byteN f.bytes 0) : f.ends = true := by
  simp only [RxFrame.ends, RxFrame.badLength, Bool.or_eq_true, decide_eq_true_eq]
  exact .inl bad

theorem RxFrame.pushAll_eq (f : RxFrame) (cs : List LineChar) :
    f.pushAll cs = { bytes := f.bytes ++ cs.map LineChar.byte, bad := f.bad || cs.any LineChar.bad } := by
  induction cs generalizing f with
  | nil => simp [RxFrame.pushAll]
  | cons c cs ih =>
    change (f.push c).pushAll cs = _
    rw [ih]
    simp [RxFrame.push, Bool.or_assoc]

/-- A byte after the first leaves the length byte. -/
theorem RxFrame.length_pushAll (c : LineChar) (cs : List LineChar) :
    byteN ((f.push c).pushAll cs).bytes 0 = byteN (f.push c).bytes 0 := by
  rw [RxFrame.pushAll_eq]
  simp only [RxFrame.push, byteN]
  cases f.bytes <;> rfl

/-- Before its check byte a frame is in part. -/
theorem RxFrame.part_of_more {c : LineChar} {cs : List LineChar} (more : cs ≠ [])
    (ended : ((f.push c).pushAll cs).part ∨ ((f.push c).pushAll cs).whole) : (f.push c).part := by
  have longer : (f.push c).bytes.length < ((f.push c).pushAll cs).bytes.length := by
    rw [RxFrame.pushAll_eq]
    simp [List.length_pos_iff.mpr more]
  have length := RxFrame.length_pushAll (f := f) c cs
  unfold RxFrame.part RxFrame.whole at *
  omega

end

/-! ### Bytes collected into a frame -/

section
variable {s : State} {d : Deck} {t : Time} {held : RxFrame → State} {done : State}
  (next : ∀ f c, State.portByte d t (held f) c = if (f.push c).ends then done else held (f.push c))
include next

theorem State.portBytes_part (cs : List LineChar) {f : RxFrame} {c : LineChar} (part : ((f.push c).pushAll cs).part) :
    (held (f.push c)).portBytes d t cs = held ((f.push c).pushAll cs) := by
  induction cs generalizing f c with
  | nil => rfl
  | cons c' cs ih =>
    have goesOn : ((f.push c).push c').part := by
      cases cs with
      | nil => exact part
      | cons c'' cs => exact RxFrame.part_of_more (List.cons_ne_nil _ _) (.inl part)
    change (State.portByte d t (held (f.push c)) c').portBytes d t cs = _
    rw [next, RxFrame.ends_of_part goesOn]
    exact ih part

theorem State.portBytes_whole (cs : List LineChar) (c' : LineChar) {f : RxFrame} {c : LineChar}
    (whole : ((f.push c).pushAll (c' :: cs)).whole) : (held (f.push c)).portBytes d t (c' :: cs) = done := by
  induction cs generalizing f c c' with
  | nil =>
    change State.portByte d t (held (f.push c)) c' = done
    rw [next, if_pos (RxFrame.ends_of_whole (f := (f.push c).push c') whole)]
  | cons c'' cs ih =>
    have goesOn : ((f.push c).push c').part := RxFrame.part_of_more (List.cons_ne_nil c'' cs) (.inr whole)
    change (State.portByte d t (held (f.push c)) c').portBytes d t (c'' :: cs) = done
    rw [next, RxFrame.ends_of_part goesOn]
    exact ih c'' whole

variable {f : RxFrame} (first : ∀ c, State.portByte d t s c = if (f.push c).ends then done else held (f.push c))
include first

/-- Bytes that leave a frame in part. -/
theorem State.portBytes_collects {cs : List LineChar} (some : cs ≠ []) (part : (f.pushAll cs).part) :
    s.portBytes d t cs = held (f.pushAll cs) := by
  obtain ⟨c, cs, rfl⟩ := List.exists_cons_of_ne_nil some
  have goesOn : (f.push c).part := by
    cases cs with
    | nil => exact part
    | cons c' cs => exact RxFrame.part_of_more (List.cons_ne_nil _ _) (.inl part)
  change (State.portByte d t s c).portBytes d t cs = _
  rw [first, RxFrame.ends_of_part goesOn]
  exact State.portBytes_part next cs part

/-- Bytes that make a frame whole, or a bad length byte. -/
theorem State.portBytes_ends {cs : List LineChar} (some : cs ≠ [])
    (ends : (∃ c, cs = [c] ∧ (f.push c).ends = true) ∨ (f.pushAll cs).whole) : s.portBytes d t cs = done := by
  obtain ⟨c, cs, rfl⟩ := List.exists_cons_of_ne_nil some
  have alone (only : (f.push c).ends = true) : State.portByte d t s c = done := by rw [first, if_pos only]
  rcases ends with ⟨c', same, bad⟩ | whole
  · cases same
    exact alone bad
  · cases cs with
    | nil => exact alone (RxFrame.ends_of_whole whole)
    | cons c' cs =>
      change (State.portByte d t s c).portBytes d t (c' :: cs) = _
      rw [first, RxFrame.ends_of_part (RxFrame.part_of_more (List.cons_ne_nil c' cs) (.inr whole))]
      exact State.portBytes_whole next cs c' whole

end

/-! ### Late replies and stray frames -/

section
variable {s : State} {d : Deck} (t : Time) (known : (s.port d).presence ≠ .disabled)
include known

/-- In RECOVERING, with no stray frame open, bytes after the late reply are discarded. -/
theorem State.portBytes_discarded (recovering : (s.port d).line = .recovering) (noStray : (s.port d).stray = none)
    (nothing : (s.port d).late = .nothing) {cs : List LineChar} (some : cs ≠ []) :
    s.portBytes d t cs = s.setPort d { s.port d with byteAt := t } := by
  have goes {u : State} (c : LineChar) (x : Time) (port : u.port d = { s.port d with byteAt := x })
      (same : ∀ p, u.setPort d p = s.setPort d p) : State.portByte d t u c = s.setPort d { s.port d with byteAt := t } := by
    simp only [State.portByte, port, if_neg known, recovering, noStray, State.lateByte, nothing, same]
    rfl
  obtain ⟨c, cs, rfl⟩ := List.exists_cons_of_ne_nil some
  have first := goes c (s.port d).byteAt rfl fun _ => rfl
  change (State.portByte d t s c).portBytes d t cs = _
  rw [first]
  clear some first
  induction cs with
  | nil => rfl
  | cons c cs ih =>
    change (State.portByte d t _ c).portBytes d t cs = _
    rw [goes c t (State.port_setPort _ _ _) fun p => State.setPort_setPort _ _ _ _]
    exact ih

/-- A byte of the late reply. -/
theorem State.portByte_late (recovering : (s.port d).line = .recovering) (noStray : (s.port d).stray = none) {f : RxFrame}
    (late : (s.port d).late = .reply f) (c : LineChar) : State.portByte d t s c = if (f.push c).ends then
      (s.setPort d { s.port d with late := .nothing, byteAt := t }).countFailure d
    else s.setPort d { s.port d with late := .reply (f.push c), byteAt := t } := by
  simp only [State.portByte, if_neg known, recovering, noStray, State.lateByte, late]
  rfl

/-- A byte of a stray frame. -/
theorem State.portByte_stray (noReply : (s.port d).line ≠ .receiving)
    (opened : (s.port d).line = .awaiting ∨ (s.port d).line = .recovering → (s.port d).stray.isSome = true) {f : RxFrame}
    (stray : (s.port d).stray.getD { bytes := [], bad := false } = f) (c : LineChar) :
    State.portByte d t s c = if (f.push c).ends then
      (s.setPort d { s.port d with stray := none, byteAt := t }).countFailure d
    else s.setPort d { s.port d with stray := some (f.push c), byteAt := t } := by
  have goes : State.portByte d t s c = s.strayByte d t c := by
    simp only [State.portByte, if_neg known]
    cases line : (s.port d).line with
    | receiving => exact absurd line noReply
    | awaiting => exact if_pos (opened (.inl line))
    | recovering => exact if_pos (opened (.inr line))
    | idle => rfl
    | sending => rfl
  rw [goes, ← stray]
  rfl

end

/-! ### The 3 ms gap -/

/-- A late reply of which bytes have come. -/
def Port.lateBegun (p : Port) : Bool :=
  match p.late with
  | .reply f => !f.bytes.isEmpty
  | .nothing => false

/-- The port whose open stray frame breaks. -/
def Port.strayBroken (p : Port) : Port := { p with
  stray := none
  fails := if p.presence = .present then p.fails + (if p.stray.isSome then 1 else 0) else p.fails }

/-- The port whose late reply breaks. -/
def Port.lateBroken (p : Port) : Port := { p with
  late := if p.lateBegun then .nothing else p.late
  fails := if p.presence = .present then p.fails + (if p.lateBegun then 1 else 0) else p.fails }

theorem Port.strayBroken_none {p : Port} (none : p.stray.isSome = false) : p.strayBroken = p := by
  cases p
  simp_all [Port.strayBroken]

theorem Port.lateBroken_none {p : Port} (none : p.lateBegun = false) : p.lateBroken = p := by
  simp [Port.lateBroken, none]

section
variable {s : State} {d : Deck}

theorem State.breakStray_eq (few : (s.port d).presence = .present → (s.port d).stray.isSome = true → (s.port d).fails < 2) :
    s.breakStray d = s.setPort d (s.port d).strayBroken := by
  cases opened : (s.port d).stray.isSome with
  | false =>
    rw [Port.strayBroken_none opened, State.setPort_port]
    exact if_neg (ne_true_of_eq_false opened)
  | true =>
    rw [State.breakStray, if_pos opened, State.countFailure_counted, State.port_setPort, State.setPort_setPort]
    · simp only [Port.strayBroken, Port.failed, opened, if_true]
    · rw [State.port_setPort]
      exact fun present => few present opened

theorem State.breakLate_if : s.breakLate d =
    if (s.port d).lateBegun then (s.setPort d { s.port d with late := .nothing }).countFailure d else s := by
  cases late : (s.port d).late with
  | reply f =>
    simp only [State.breakLate, Port.lateBegun, late]
    cases f.bytes.isEmpty <;> rfl
  | nothing => simp [State.breakLate, Port.lateBegun, late]

theorem State.breakLate_eq (few : (s.port d).presence = .present → (s.port d).lateBegun = true → (s.port d).fails < 2) :
    s.breakLate d = s.setPort d (s.port d).lateBroken := by
  cases begun : (s.port d).lateBegun with
  | false =>
    rw [Port.lateBroken_none begun, State.setPort_port, State.breakLate_if]
    exact if_neg (ne_true_of_eq_false begun)
  | true =>
    rw [State.breakLate_if, if_pos begun, State.countFailure_counted, State.port_setPort, State.setPort_setPort]
    · simp only [Port.lateBroken, Port.failed, begun, if_true]
    · rw [State.port_setPort]
      exact fun present => few present begun

/-- Both breaks, with the failures that they count. -/
theorem State.broken_eq {n : Nat}
    (count : n = (if (s.port d).stray.isSome then 1 else 0) + if (s.port d).lateBegun then 1 else 0)
    (few : (s.port d).presence = .present → (s.port d).fails + n < 3) :
    (s.breakStray d).breakLate d = s.setPort d { s.port d with
      stray := none, late := if (s.port d).lateBegun then .nothing else (s.port d).late
      fails := if (s.port d).presence = .present then (s.port d).fails + n else (s.port d).fails } := by
  rw [State.breakStray_eq fun present opened => ?fewStray, State.breakLate_eq ?fewLate, State.port_setPort,
    State.setPort_setPort]
  case fewStray =>
    have total := few present
    rw [count, if_pos opened] at total
    omega
  case fewLate =>
    rw [State.port_setPort]
    intro (present : (s.port d).presence = .present) (late : (s.port d).lateBegun = true)
    have total := few present
    rw [count, if_pos late] at total
    change (if (s.port d).presence = .present then _ else _) < 2
    rw [if_pos present]
    omega
  refine congrArg (s.setPort d) ?_
  have begun : (s.port d).strayBroken.lateBegun = (s.port d).lateBegun := rfl
  rw [Port.lateBroken, begun, count, Port.strayBroken]
  by_cases present : (s.port d).presence = .present <;> simp [present, Nat.add_assoc]

end

/-! ### The rows -/

/-- Bytes of one event can be taken in any chunks: after the first of them the instant has come already. -/
theorem State.portBytes_append (s : State) (d : Deck) (t : Time) (cs rest : List LineChar) :
    (s.tick t).portBytes d t (cs ++ rest) = (((s.tick t).portBytes d t cs).tick t).portBytes d t rest := by
  have steady := (Laws.Steady.portBytes (s.tick t) d t cs).base
  have now : ((s.tick t).portBytes d t cs).now = max s.now t := congrArg (·.2.1) steady
  have come : ((s.tick t).portBytes d t cs).tick t = (s.tick t).portBytes d t cs := by
    rw [State.tick, now, max_assoc, max_self, ← now]
  rw [come]
  exact List.foldl_append

theorem State.port_tick (s : State) (t : Time) (d : Deck) : (s.tick t).port d = s.port d := rfl

section
variable {s : State} {d : Deck} {t : Time} (up : s.asserted = false)
include up

theorem exec_commandSent (sending : (s.port d).line = .sending) : exec (.commandSent d t) s = .next
    (if (s.port d).flight.isSome then (s.tick t).setPort d { s.port d with line := .awaiting, replyFrom := t }
    else ((s.tick t).setPort d { s.port d with line := .idle }).hand d) :=
  (Laws.timed_next s t _ up).trans (congrArg _ (if_pos sending))

theorem exec_deckGapTimeout (due : (s.port d).byteAt + ms 3 ≤ t) : exec (.deckGapTimeout d t) s = .next
    (if (s.port d).line = .receiving then (s.tick t).endCommand d t .lineError []
    else ((s.tick t).breakStray d).breakLate d) := by
  rw [show exec (.deckGapTimeout d t) s = execDeckGapTimeout d t s from rfl, execDeckGapTimeout, Laws.timed_next s t _ up,
    State.port_tick, if_pos due]

theorem exec_recoveryQuiet (recovering : (s.port d).line = .recovering)
    (due : max (s.port d).byteAt (s.port d).replyFrom + ms 3 ≤ t) : exec (.recoveryQuiet d t) s = .next
    (((((s.tick t).breakStray d).breakLate d).setPort d { (((s.tick t).breakStray d).breakLate d).port d with
      line := .idle, late := .nothing }).hand d) := by
  rw [show exec (.recoveryQuiet d t) s = execRecoveryQuiet d t s from rfl, execRecoveryQuiet, Laws.timed_next s t _ up,
    State.port_tick]
  have both : (s.port d).line = .recovering ∧ max (s.port d).byteAt (s.port d).replyFrom + ms 3 ≤ t := ⟨recovering, due⟩
  dsimp only
  rw [if_pos both]

theorem exec_attachTimer (absent : (s.port d).presence = .absent) (enabled : (s.port d).enabled = true)
    (due : ∀ a, (s.port d).attachAt = some a → a + ms 500 ≤ t) :
    exec (.attachTimer d t) s = .next (((s.tick t).putIdentify d).hand d) := by
  have come : (s.port d).attachAt.all (fun a => a + ms 500 ≤ t) = true := by
    cases last : (s.port d).attachAt with
    | none => rfl
    | some a =>
      rw [Option.all_some]
      exact decide_eq_true (due a last)
  have all := And.intro absent (And.intro enabled come)
  rw [show exec (.attachTimer d t) s = execAttachTimer d t s from rfl, execAttachTimer, Laws.timed_next s t _ up,
    State.port_tick]
  dsimp only
  rw [if_pos all]

theorem exec_deckPortFrameStart (owed : 0 < s.due.port[d.val]) : exec (.deckPortFrameStart d) s = .next
    ((({ s with due := { s.due with port := s.due.port.set d.val (s.due.port[d.val] - 1) } } : State).setPort d
      ((s.port d).frameStart ((s.reader d).src == .line))).hand d) :=
  (Laws.running_next s _ up).trans (congrArg _ (if_pos owed))

end

/-- The three events of bytes on a deck line are one. -/
theorem exec_bytes {c : Deck → List LineChar → Time → Instr}
    (bytes : c = .deckReplyReceived ∨ c = .lateReplyReceived ∨ c = .strayFrameReceived) (d : Deck) (cs : List LineChar)
    (t : Time) (s : State) : exec (c d cs t) s = timed s t fun s => s.portBytes d t cs := by
  rcases bytes with rfl | rfl | rfl <;> rfl

end Sys2Proof.Machine

namespace Sys2Proof.Proofs

open Sys2Proof.Machine Sys2Proof.Safety

/-- Settles O16: bytes are collected into frames (`State.portBytes_collects`, `State.portBytes_ends`), breaks counted
(`State.broken_eq`), and a hand is the case of `State.handLine` that the highest slot names. -/
theorem deckLineStatesAndPolls : Obligations.DeckLineStatesAndPolls := by
  refine ⟨fun s d t up sending => ?sent, fun s d t up => ?gap, fun s d t cs rest f up => ?bytes,
    fun s v d t cs rest c kind took => ?chunks, fun s d t up => ?attach, fun s d up owed => ?poll, fun s d quiet => ?hand⟩
  case sent =>
    rw [exec_commandSent up sending]
    exact ⟨fun flight => congrArg _ (if_pos flight), fun none => congrArg _ (if_neg (by simp [none]))⟩
  case gap =>
    intro p begun n cut few due
    have broken : (((s.tick t).breakStray d).breakLate d) = (s.tick t).setPort d cut := State.broken_eq (s := s.tick t) rfl few
    refine ⟨fun notReply => ?_, fun recovering entered => ?_⟩
    · rw [exec_deckGapTimeout up due, if_neg notReply, broken]
    · have quiet : max p.byteAt p.replyFrom + ms 3 ≤ t := by
        rw [← max_add_add_right]
        exact max_le due entered
      rw [exec_recoveryQuiet up recovering quiet, broken, State.port_setPort, State.setPort_setPort]
  case bytes =>
    intro p got n opened whole part fails takes known few open' some
    have pushed (cs : List LineChar) (f : RxFrame) :
        f.pushAll cs = { bytes := f.bytes ++ cs.map LineChar.byte, bad := f.bad || cs.any LineChar.bad } := f.pushAll_eq cs
    have ending (ended : whole) : (∃ c, cs = [c] ∧ (f.push c).ends = true) ∨ (f.pushAll cs).whole := by
      rw [pushed]
      rcases ended with ⟨bad, fresh, one⟩ | ended
      · obtain ⟨c, rfl⟩ := List.length_eq_one_iff.mp one
        exact .inl ⟨c, rfl, RxFrame.ends_of_bad bad⟩
      · exact .inr ended
    have counted {q : Port} (presence : q.presence = p.presence) (count : q.fails = p.fails) :
        ((s.tick t).setPort d q).countFailure d = (s.tick t).setPort d { q with fails := fails } := by
      rw [State.countFailure_counted, State.port_setPort, State.setPort_setPort, Port.failed, presence, count]
      rw [State.port_setPort, presence, count]
      exact few
    have row {c : Deck → List LineChar → Time → Instr}
        (bytes : c = .deckReplyReceived ∨ c = .lateReplyReceived ∨ c = .strayFrameReceived) {xs : List LineChar} {q : Port}
        (left : (s.tick t).portBytes d t xs = (s.tick t).setPort d q) : takes c xs q := by
      change exec (c d xs t) s = _
      rw [exec_bytes bytes, Laws.timed_next s t _ up, left]
    refine ⟨fun recovering noStray late => ?_, fun recovering noStray nothing => ?_, fun noReply open'' stray => ?_⟩
    · let held (f : RxFrame) := (s.tick t).setPort d { p with late := .reply f, byteAt := t }
      have first := State.portByte_late (s := s.tick t) t known recovering noStray late
      have next (f : RxFrame) (c : LineChar) : State.portByte d t (held f) c = if (f.push c).ends then
          ((s.tick t).setPort d { p with late := .nothing, byteAt := t }).countFailure d else held (f.push c) := by
        have here : (held f).port d = { p with late := .reply f, byteAt := t } := State.port_setPort _ _ _
        have byte := State.portByte_late (s := held f) t (by rw [here]; exact known) (by rw [here]; exact recovering)
          (by rw [here]; exact noStray) (by rw [here]) c
        rw [byte, here, State.setPort_setPort, State.setPort_setPort]
      refine ⟨fun ended => row (.inr (.inl rfl)) ?_, fun inPart => row (.inr (.inl rfl)) ?_⟩
      · have taken := (State.portBytes_ends next first some (ending ended)).trans (counted rfl rfl)
        have rests : (s.tick t).portBytes d t (cs ++ rest) = ((s.tick t).portBytes d t cs).portBytes d t rest :=
          List.foldl_append
        let v := (s.tick t).setPort d { p with late := .nothing, byteAt := t, fails := fails }
        have here : v.port d = { p with late := .nothing, byteAt := t, fails := fails } := State.port_setPort _ _ _
        rw [rests, taken]
        rcases eq_or_ne rest [] with rfl | more
        · rfl
        · rw [State.portBytes_discarded (s := v) t (by rw [here]; exact known) (by rw [here]; exact recovering)
            (by rw [here]; exact noStray) (by rw [here]) more, here, State.setPort_setPort]
      · have partly : (f.pushAll cs).part := by rw [pushed]; exact inPart
        rw [State.portBytes_collects next first some partly, pushed]
    · exact row (.inr (.inl rfl)) (State.portBytes_discarded (s := s.tick t) t known recovering noStray nothing some)
    · let held (f : RxFrame) := (s.tick t).setPort d { p with stray := Option.some f, byteAt := t }
      have first := State.portByte_stray (s := s.tick t) t known noReply open'' stray
      have next (f : RxFrame) (c : LineChar) : State.portByte d t (held f) c = if (f.push c).ends then
          ((s.tick t).setPort d { p with stray := none, byteAt := t }).countFailure d else held (f.push c) := by
        have here : (held f).port d = { p with stray := Option.some f, byteAt := t } := State.port_setPort _ _ _
        have byte := State.portByte_stray (s := held f) t (by rw [here]; exact known) (by rw [here]; exact noReply)
          (f := f) (by rw [here]; exact fun _ => rfl) (by rw [here]; rfl) c
        rw [byte, here, State.setPort_setPort, State.setPort_setPort]
      refine ⟨fun ended => row (.inr (.inr rfl)) ?_, fun inPart => row (.inr (.inr rfl)) ?_⟩
      · exact (State.portBytes_ends next first some (ending ended)).trans (counted rfl rfl)
      · have partly : (f.pushAll cs).part := by rw [pushed]; exact inPart
        rw [State.portBytes_collects next first some partly, pushed]
  case chunks =>
    rw [exec_bytes kind] at took ⊢
    rw [exec_bytes kind]
    cases up : s.asserted with
    | true =>
      have still : v = s := by simpa [timed, running, up, eq_comm] using took
      rw [still]
      simp [timed, running, up]
    | false =>
      rw [Laws.timed_next s t _ up] at took ⊢
      cases took
      rw [Laws.timed_next _ t _ ?up, State.portBytes_append]
      exact (congrArg (·.2.2.1) (Laws.Steady.portBytes (s.tick t) d t cs).base).trans up
  case attach =>
    intro p absent enabled due
    rw [exec_attachTimer up absent enabled due, State.putIdentify_eq]
    rfl
  case poll =>
    intro p u aged
    rw [exec_deckPortFrameStart up owed]
    refine ⟨fun present shut free => ?_, fun none => ?_⟩
    · have posts : p.presence = .present ∧ ¬p.quiet = true ∧ p.poll.isNone = true := ⟨present, by simp [shut], by simp [free]⟩
      refine congrArg (fun q => Host.Outcome.next ((u.setPort d q).hand d)) ((if_pos posts).trans ?_)
      rfl
    · have quiet : ¬(p.presence = .present ∧ ¬p.quiet = true ∧ p.poll.isNone = true) := by
        rintro ⟨present, shut, free⟩
        rcases none with away | opened | waits
        · exact away present
        · exact shut opened
        · simp [Option.isNone_iff_eq_none.mp free] at waits
      exact congrArg (fun q => Host.Outcome.next ((u.setPort d q).hand d)) (if_neg quiet)
  case hand =>
    rw [State.hand_eq quiet]
    refine ⟨State.handLine_busy, fun idle => ?_⟩
    intro p e range clamped sends off free below low barred
    have clamp (c : DeckCmd) : p.clampSpeed c = clamped c := by cases c <;> rfl
    have recNow (q : Port) (record : q.record = p.record) : (s.setPort d q).recNow = s.recNow :=
      (Quiet.setPort (ks := []) s d q record).recNow
    refine ⟨fun a b item => ?_, fun a b item => State.handLine_emergencyStop idle item,
      State.handLine_disabled idle, fun c x free waits => ?_, fun x below servo plain => ?_, fun x low opened waits plain => ?_,
      fun c low opened noPass waits plain => ?_, fun low bar => ?_⟩
    · intro v
      have hand : s.handLine d = v.told d ⟨.recordOff, .emergencyOff⟩ := State.handLine_emergencyOff idle item
      rw [hand]
      refine ⟨fun editing aborted running => ?_, fun other => ?_⟩
      · rw [v.told_free d running]
        refine (if_pos ⟨editing, aborted⟩).trans ?_
        rw [show v.recNow = s.recNow from recNow _ rfl]
        rfl
      · cases running : s.safeStop with
        | true => exact v.told_safe d running _
        | false =>
          rw [v.told_free d running]
          refine if_neg fun ⟨editing, aborted⟩ => ?_
          rcases other with another | free | stops
          · exact another editing
          · exact Bool.false_ne_true ((Option.isSome_eq_false_iff.mpr (Option.isNone_iff_eq_none.mpr free)).symm.trans aborted)
          · exact Bool.false_ne_true (running.symm.trans stops)
    · obtain ⟨noItem, enabled⟩ := free
      intro q
      refine ⟨fun plain => ?_, fun tracks kind isOn => ?_, fun isOff => ?_⟩
      · rw [State.handLine_plain idle noItem enabled waits plain, clamp]
        rfl
      · subst isOn
        intro v
        have hand : s.handLine d = v.told d ⟨.recordOn tracks kind, .sequencer⟩ :=
          State.handLine_sequencer idle noItem enabled waits
        rw [hand]
        refine ⟨fun ⟨phase, running⟩ => ?_, fun outside => ?_⟩
        · rw [v.told_free d running]
          refine (State.toldSequencer_on v tracks kind).trans ((if_pos phase).trans ?_)
          rw [State.toldRecordOn, show v.recNow = s.recNow from recNow _ rfl]
          rfl
        · cases running : s.safeStop with
          | true => exact v.told_safe d running _
          | false =>
            rw [v.told_free d running]
            exact (State.toldSequencer_on v tracks kind).trans (if_neg fun phase => outside ⟨phase, running⟩)
      · subst isOff
        intro v late
        have hand : s.handLine d = v.told d ⟨.recordOff, .sequencer⟩ := State.handLine_sequencer idle noItem enabled waits
        rw [hand]
        refine ⟨fun editing running => ?_, fun outside => ?_⟩
        · rw [v.told_free d running]
          refine (State.toldSequencer_off v).trans ((if_pos editing).trans ?_)
          rw [State.toldRecordOff, State.lateOff_eq, show v.recNow = s.recNow from recNow _ rfl]
          rfl
        · cases running : s.safeStop with
          | true => exact v.told_safe d running _
          | false =>
            rw [v.told_free d running]
            exact (State.toldSequencer_off v).trans (if_neg (outside.resolve_right (by simp [running])))
    · obtain ⟨⟨noItem, enabled⟩, empty⟩ := below
      intro c own v
      have hand : s.handLine d = v.told d ⟨clamped x.cmd, .servo x.gen x.loc⟩ := by
        rw [State.handLine_servo idle noItem enabled empty servo plain, clamp]
        rfl
      have acts : own ↔ v.safeStop = false ∧ (v.chan d).gen = x.gen ∧ (v.chan d).active = true := by
        change (c.gen = x.gen ∧ c.st ≠ .idle ∧ c.st ≠ .fault ∧ s.safeStop = false) ↔
          (s.safeStop = false ∧ c.gen = x.gen ∧ c.active = true)
        simp only [Channel.active, bne_iff_ne, Bool.and_eq_true, ne_eq]
        tauto
      rw [hand, State.told_servo]
      refine ⟨fun mine play => ?_, fun n mine speed => ?_, fun other => ?_⟩
      · rw [if_pos (acts.mp mine), play]
        rfl
      · rw [if_pos (acts.mp mine), speed]
        rfl
      · rcases other with foreign | ⟨noPlay, noSpeed⟩
        · exact if_neg fun mine => foreign (acts.mpr mine)
        · split
          · have fixed : clamped x.cmd = x.cmd := (s.port d).clampSpeed_fixed noSpeed
            have silent : (v.chan d).speedTold (clamped x.cmd) = v.chan d := by
              rw [fixed]
              exact (v.chan d).speedTold_other noPlay noSpeed
            rw [silent, State.setChan_chan]
          · rfl
    · obtain ⟨⟨⟨noItem, enabled⟩, empty⟩, noServo⟩ := low
      rw [State.handLine_pass idle noItem enabled empty noServo (by simpa [barred] using opened) waits plain, clamp]
      rfl
    · obtain ⟨⟨⟨noItem, enabled⟩, empty⟩, noServo⟩ := low
      rw [State.handLine_poll idle noItem enabled empty noServo (by simpa [barred] using opened) noPass waits plain, clamp]
      rfl
    · obtain ⟨⟨⟨noItem, enabled⟩, empty⟩, noServo⟩ := low
      exact State.handLine_barred idle noItem enabled empty noServo (or_assoc.mp bar)

end Sys2Proof.Proofs

/-! ## A posting of a channel (R61, R64) -/

namespace Sys2Proof.Machine

open Sys2Proof.Safety

theorem DeckCmd.isTransport_iff (c : DeckCmd) : c.isTransport = true ↔ c.isSense = false ∧ c.isRecord = false := by
  simp [DeckCmd.isTransport]

theorem Port.clampSpeed_isSense (p : Port) (c : DeckCmd) : (p.clampSpeed c).isSense = c.isSense := by cases c <;> rfl

section
variable {s : State} {d : Deck} (running : s.link.expired = false)
include running

/-- On a busy line a command of the channel waits in the SERVO slot. -/
theorem State.postServo_busy (busy : (s.port d).line ≠ .idle) (c : DeckCmd) :
    s.postServo d c = s.setPort d (servoPosted (s.port d) s.fmt c (s.chan d).gen (s.chan d).loc) := by
  rw [State.postServo, State.hand_running (s := s.putServo d c) running, State.handLine_busy, servoPosted, if_neg busy]
  · rfl
  · rw [State.putServo, State.port_setPort]
    exact busy

variable (first : ServoFirst (s.port d)) {c : DeckCmd} (transport : c.isTransport = true)
include first transport

/-- An IDLE line takes it at once, and the channel hears of its speed. -/
theorem State.postServo_idle (idle : (s.port d).line = .idle) : s.postServo d c =
    (s.setPort d (servoPosted (s.port d) s.fmt ((s.port d).clampSpeed c) (s.chan d).gen (s.chan d).loc)).told d
      ⟨(s.port d).clampSpeed c, .servo (s.chan d).gen (s.chan d).loc⟩ := by
  obtain ⟨noItem, empty, enabled⟩ := first idle
  obtain ⟨noSense, plain⟩ := c.isTransport_iff.mp transport
  have here : (s.putServo d c).port d =
      { s.port d with servo := some { cmd := c, gen := (s.chan d).gen, loc := (s.chan d).loc } } := State.port_setPort _ _ _
  have fresh : ((s.port d).fresh && ((s.port d).clampSpeed c).isSense) = false := by
    rw [Port.clampSpeed_isSense, noSense, Bool.and_false]
  rw [State.postServo, State.hand_running (s := s.putServo d c) running,
    State.handLine_servo (s := s.putServo d c) (by rw [here]; exact idle) (by rw [here]; exact noItem)
      (by rw [here]; exact enabled) (by rw [here]; exact empty) (by rw [here]) plain, here, servoPosted, if_pos idle,
    State.putServo, State.setPort_setPort]
  refine congrArg (fun q => (s.setPort d q).told d _) ?_
  exact congrArg (fun b => { ({ s.port d with servo := none } : Port).sends s.fmt _ with fresh := b }) fresh

/-- A channel that acts hears of the speed of a command that is handed. -/
theorem State.postServo_acting (free : s.safeStop = false) (acts : (s.chan d).active = true) :
    s.postServo d c = if (s.port d).line = .idle then
      (s.setPort d (servoPosted (s.port d) s.fmt ((s.port d).clampSpeed c) (s.chan d).gen (s.chan d).loc)).setChan d
        ((s.chan d).speedTold ((s.port d).clampSpeed c))
    else s.setPort d (servoPosted (s.port d) s.fmt c (s.chan d).gen (s.chan d).loc) := by
  split
  · next idle =>
    rw [State.postServo_idle running first transport idle, State.told_servo]
    exact if_pos ⟨free, rfl, acts⟩
  · next busy => exact State.postServo_busy running busy c

/-- A command that is no speed, of which the channel hears nothing. -/
theorem State.postServo_silent (fixed : ∀ v, c ≠ .varispeed v) (silent : c = .play → (s.chan d).active = false) :
    s.postServo d c = s.setPort d (servoPosted (s.port d) s.fmt c (s.chan d).gen (s.chan d).loc) := by
  have same : (s.port d).clampSpeed c = c := (s.port d).clampSpeed_fixed fixed
  by_cases idle : (s.port d).line = .idle
  · rw [State.postServo_idle running first transport idle, same, State.told_servo]
    split
    · next acts =>
      have active : (s.chan d).active = true := acts.2.2
      have deaf : (s.chan d).speedTold c = s.chan d := (s.chan d).speedTold_other
        (fun play => Bool.false_ne_true ((silent play).symm.trans active)) fixed
      exact (congrArg (State.setChan _ d) deaf).trans (State.setChan_chan _ d)
    · rfl
  · exact State.postServo_busy running idle c

end

/-! ## Moves of single decks that CHASE_STATE reports (R89) -/

theorem Deck.num_injective {d e : Deck} (same : Deck.num d = Deck.num e) : d = e := Fin.ext (Nat.succ_injective same)

section
variable (s : State) (d : Deck) (p : Port) (c : Channel)

/-- Deck d's port and channel as given, with a CHASE_STATE entry of its channel or without. -/
def State.touch (told : Option (List Val)) : State :=
  match told with
  | some v => ((s.setPort d p).setChan d c).enter .chaseState (Deck.num d) v
  | none => (s.setPort d p).setChan d c

theorem State.setPort_enter (k : NoticeKind) (n : Nat) (v : List Val) :
    (s.enter k n v).setPort d p = (s.setPort d p).enter k n v := by
  simp only [State.enter_eq]
  rfl

theorem State.setChan_enter (k : NoticeKind) (n : Nat) (v : List Val) :
    (s.enter k n v).setChan d c = (s.setChan d c).enter k n v := by
  simp only [State.enter_eq]
  rfl

/-- s with other ports, channels and notices. -/
def State.moved (ports : Vector Port 6) (chase : Vector Channel 6) (notices : List Notice) : State :=
  { s with ports := ports, chase := chase, link := { s.link with notices := notices } }

section
variable (ports : Vector Port 6) (chase : Vector Channel 6) (notices : List Notice)

@[simp] theorem State.moved_fmt : (s.moved ports chase notices).fmt = s.fmt := rfl
@[simp] theorem State.moved_now : (s.moved ports chase notices).now = s.now := rfl
@[simp] theorem State.moved_clock : (s.moved ports chase notices).clock = s.clock := rfl
@[simp] theorem State.moved_readers : (s.moved ports chase notices).readers = s.readers := rfl
@[simp] theorem State.moved_list : (s.moved ports chase notices).list = s.list := rfl
@[simp] theorem State.moved_edit : (s.moved ports chase notices).edit = s.edit := rfl
@[simp] theorem State.moved_run : (s.moved ports chase notices).run = s.run := rfl
@[simp] theorem State.moved_engine : (s.moved ports chase notices).engine = s.engine := rfl
@[simp] theorem State.moved_gpi : (s.moved ports chase notices).gpi = s.gpi := rfl
@[simp] theorem State.moved_set : (s.moved ports chase notices).set = s.set := rfl
@[simp] theorem State.moved_link : (s.moved ports chase notices).link = { s.link with notices := notices } := rfl
@[simp] theorem State.moved_safeStop : (s.moved ports chase notices).safeStop = s.safeStop := rfl
@[simp] theorem State.moved_recorder : (s.moved ports chase notices).recorder = s.recorder := rfl

end

variable {s d p c} {told : Option (List Val)}

theorem State.touch_rest : s.touch d p c told =
    s.moved (s.touch d p c told).ports (s.touch d p c told).chase (s.touch d p c told).link.notices := by
  cases told with
  | none => rfl
  | some v =>
    simp only [State.touch, State.enter_ports, State.enter_chase, State.enter_link]
    rw [State.enter_eq]
    rfl

theorem State.port_touch : (s.touch d p c told).port d = p := by
  cases told with
  | none => exact State.port_setPort s d p
  | some v => exact (State.port_enter _ _ _ _ d).trans (State.port_setPort s d p)

theorem State.port_touch_ne {e : Deck} (other : e ≠ d) : (s.touch d p c told).port e = s.port e := by
  cases told with
  | none => exact State.port_setPort_ne s p other
  | some v => exact (State.port_enter _ _ _ _ e).trans (State.port_setPort_ne s p other)

theorem State.chan_touch : (s.touch d p c told).chan d = c := by
  cases told with
  | none => exact State.chan_setChan (s.setPort d p) d c
  | some v => exact (State.chan_enter _ _ _ _ d).trans (State.chan_setChan (s.setPort d p) d c)

theorem State.chan_touch_ne {e : Deck} (other : e ≠ d) : (s.touch d p c told).chan e = s.chan e := by
  cases told with
  | none => exact State.chan_setChan_ne (s.setPort d p) c other
  | some v => exact (State.chan_enter _ _ _ _ e).trans (State.chan_setChan_ne (s.setPort d p) c other)

theorem State.entry_touch_ne {k : NoticeKind} {n : Nat} (other : ¬(k = .chaseState ∧ n = Deck.num d)) :
    (s.touch d p c told).entry k n = s.entry k n := by
  cases told with
  | none => rfl
  | some v => exact (State.entry_enter_ne _ _ other)

end

/-- The move from s to u touches the decks of which `on` holds: port and channel become `port` and `chan`, and CHASE_STATE is
entered as `told` says. -/
structure Touched (port : Deck → Port) (chan : Deck → Channel) (told : Deck → Option (List Val)) (on : Deck → Prop)
    (s u : State) : Prop where
  port : ∀ d, on d → u.port d = port d
  portKept : ∀ d, ¬on d → u.port d = s.port d
  chan : ∀ d, on d → u.chan d = chan d
  chanKept : ∀ d, ¬on d → u.chan d = s.chan d
  told : ∀ d v, on d → told d = some v → Entered s u .chaseState (Deck.num d) v 1
  kept : ∀ k n, (∀ d, on d → ¬(k = .chaseState ∧ n = Deck.num d)) → u.entry k n = s.entry k n
  rest : u = s.moved u.ports u.chase u.link.notices

namespace Touched

variable {port : Deck → Port} {chan : Deck → Channel} {told : Deck → Option (List Val)} {on : Deck → Prop} {s u : State}

theorem refl (s : State) (none : ∀ d, ¬on d) : Touched port chan told on s s where
  port d is := absurd is (none d)
  portKept _ _ := rfl
  chan d is := absurd is (none d)
  chanKept _ _ := rfl
  told d _ is := absurd is (none d)
  kept _ _ _ := rfl
  rest := rfl

theorem mask (h : Touched port chan told on s u) : u.link.mask = s.link.mask := by rw [h.rest]; rfl

theorem clock (h : Touched port chan told on s u) : u.clock = s.clock := by rw [h.rest]; rfl

theorem congr {on' : Deck → Prop} (h : Touched port chan told on s u) (same : ∀ d, on' d ↔ on d) :
    Touched port chan told on' s u := (funext fun d => propext (same d) : on' = on) ▸ h

/-- One deck more. -/
theorem touch (h : Touched port chan told on s u) {d : Deck} (new : ¬on d) :
    Touched port chan told (fun e => on e ∨ e = d) s (u.touch d (port d) (chan d) (told d)) where
  port e is := by
    by_cases same : e = d
    · rw [same, State.port_touch]
    · rw [State.port_touch_ne same, h.port e (is.resolve_right same)]
  portKept e isNot := by rw [State.port_touch_ne fun same => isNot (.inr same), h.portKept e fun is => isNot (.inl is)]
  chan e is := by
    by_cases same : e = d
    · rw [same, State.chan_touch]
    · rw [State.chan_touch_ne same, h.chan e (is.resolve_right same)]
  chanKept e isNot := by rw [State.chan_touch_ne fun same => isNot (.inr same), h.chanKept e fun is => isNot (.inl is)]
  told e v is content := by
    by_cases same : e = d
    · subst same
      have unchanged : u.entry .chaseState (Deck.num e) = s.entry .chaseState (Deck.num e) :=
        h.kept _ _ fun x onX both => new (Deck.num_injective both.2 ▸ onX)
      rw [content]
      exact Entered.first unchanged h.mask h.clock
    · exact (h.told e v (is.resolve_right same) content).kept
        (State.entry_touch_ne fun both => same (Deck.num_injective both.2))
  kept k n away := (State.entry_touch_ne (away d (.inr rfl))).trans (h.kept k n fun e is => away e (.inl is))
  rest := by
    have step := State.touch_rest (s := u) (d := d) (p := port d) (c := chan d) (told := told d)
    rwa [show u.moved _ _ _ = (s.moved u.ports u.chase u.link.notices).moved _ _ _ from congrArg (State.moved · _ _ _) h.rest]
      at step

/-- A move made of decks in turn, each of which touches its deck where `hit` holds and it is not touched yet. -/
theorem foldl {move : State → Deck → State} {hit : Deck → Prop}
    (hits : ∀ t on' d, Touched port chan told on' s t → (∀ e, on e → on' e) → ¬on' d → hit d →
      move t d = t.touch d (port d) (chan d) (told d))
    (misses : ∀ t on' d, Touched port chan told on' s t → (∀ e, on e → on' e) → (on' d ∨ ¬hit d) → move t d = t)
    (h : Touched port chan told on s u) (ds : List Deck) :
    Touched port chan told (fun d => on d ∨ d ∈ ds ∧ hit d) s (ds.foldl move u) := by
  induction ds generalizing on u with
  | nil => exact h.congr fun d => by simp
  | cons d ds ih =>
    by_cases touches : ¬on d ∧ hit d
    · have first : move u d = u.touch d (port d) (chan d) (told d) := hits u on d h (fun _ => id) touches.1 touches.2
      have later : Touched port chan told (fun e => on e ∨ e = d) s (move u d) := first ▸ h.touch touches.1
      refine (ih (fun t on' e reached sub => hits t on' e reached fun x is => sub x (.inl is))
        (fun t on' e reached sub => misses t on' e reached fun x is => sub x (.inl is)) later).congr fun e => ?_
      by_cases same : e = d
      · simp [same, touches.2]
      · simp [same]
    · have idle : move u d = u := misses u on d h (fun _ => id) (by tauto)
      rw [List.foldl_cons, idle]
      refine (ih hits misses h).congr fun e => ?_
      by_cases same : e = d
      · subst same
        simp only [List.mem_cons, true_or, true_and]
        tauto
      · simp [same]

end Touched

/-! ## The fault of a channel (R88) -/

/-- A channel in FAULT for a reason. -/
def Channel.faulted (c : Channel) (r : ChaseFault) : Channel :=
  { c with st := .fault, fault := some r, speed := none, relocate := false, replay := false }

theorem Channel.active_iff (c : Channel) : c.active = true ↔ c.st ≠ .idle ∧ c.st ≠ .fault := by
  simp [Channel.active]

/-- The port of a slave whose channel enters FAULT: STOP is posted unless the port is DISABLED. -/
def Port.chaseStopped (p : Port) (f : SuiteFormat) (c : Channel) : Port :=
  if p.presence = .disabled then p else servoPosted p f .stop c.gen c.loc

theorem Port.chaseStopped_disabled {p : Port} (disabled : p.presence = .disabled) (f : SuiteFormat) (c : Channel) :
    p.chaseStopped f c = p := if_pos disabled

theorem Port.chaseStopped_busy {p : Port} (enabled : p.presence ≠ .disabled) (busy : p.line ≠ .idle) (f : SuiteFormat)
    (c : Channel) : p.chaseStopped f c = { p with servo := some { cmd := .stop, gen := c.gen, loc := c.loc } } :=
  (if_neg enabled).trans (if_neg busy)

theorem Port.chaseStopped_idle {p : Port} (enabled : p.presence ≠ .disabled) (idle : p.line = .idle) (f : SuiteFormat)
    (c : Channel) : p.chaseStopped f c = { p with
      servo := none, line := .sending, flight := some ⟨.stop, .servo c.gen c.loc⟩, tx := [2, 0x20, 0x22], fresh := false } := by
  rw [Port.chaseStopped, if_neg enabled, servoPosted, if_pos idle, DeckCmd.frame_stop]

section
variable {s : State} {d : Deck}

theorem State.chaseFault_inactive (inactive : (s.chan d).active = false) (r : ChaseFault) : s.chaseFault d r = s :=
  if_neg fun both => Bool.false_ne_true (inactive.symm.trans both.1)

/-- What the fault does to its own channel and deck, before the sequencer hears of it. -/
def State.channelFaults (s : State) (d : Deck) (r : ChaseFault) : State :=
  s.touch d ((s.port d).chaseStopped s.fmt (s.chan d)) ((s.chan d).faulted r)
    (some (((s.chan d).faulted r).noticeContent (s.chan d).st .fault))

variable (free : s.safeStop = false) (running : s.link.expired = false)
  (first : (s.port d).line = .idle → (s.port d).emerg = none ∧ (s.port d).seqSlot = { first := none, second := none })
  (acts : (s.chan d).active = true) (r : ChaseFault)
include free running first acts

/-- A channel of the link enters FAULT: nobody else hears of it. -/
theorem State.chaseFault_link (other : (s.chan d).owner ≠ some .sequencer) : s.chaseFault d r = s.channelFaults d r := by
  let u := (s.setChan d ((s.chan d).faulted r)).enter .chaseState (Deck.num d)
    (((s.chan d).faulted r).noticeContent (s.chan d).st .fault)
  have moved : s.chanMove d ((s.chan d).faulted r) .fault = u := if_neg fun all => other all.2.2.1
  have here : u.port d = s.port d := State.port_enter _ _ _ _ d
  have channel : u.chan d = (s.chan d).faulted r := (State.chan_enter _ _ _ _ d).trans (State.chan_setChan _ _ _)
  have fmt : u.fmt = s.fmt := State.enter_fmt _ _ _ _
  have posted : (if (u.port d).presence = .disabled then u else u.postServo d .stop) =
      u.setPort d ((s.port d).chaseStopped s.fmt (s.chan d)) := by
    by_cases disabled : (s.port d).presence = .disabled
    · rw [if_pos (by rw [here, disabled]), Port.chaseStopped, if_pos disabled, ← here, State.setPort_port]
    · rw [if_neg (by rw [here]; exact disabled), Port.chaseStopped, if_neg disabled,
        State.postServo_silent (s := u) (by simpa [u] using running) ?_ rfl (by simp) (by simp), here, channel, fmt]
      · rfl
      · rw [here]
        exact fun idle => ⟨(first idle).1, (first idle).2, disabled⟩
  have fault : s.chaseFault d r = if (s.chan d).owner = some .sequencer then
      (if (u.port d).presence = .disabled then u else u.postServo d .stop).editChanFault r
    else if (u.port d).presence = .disabled then u else u.postServo d .stop := by
    rw [← moved]
    exact if_pos ⟨acts, by simp [free]⟩
  rw [fault, if_neg other, posted, State.setPort_enter]
  rfl

end

/-! ## The loss of a deck reaches the channels (R88) -/

section
variable {s : State} {d : Deck}

/-- A channel that the loss of deck d reaches: one that acts, on the deck itself or with it as its master. -/
def State.lossHits (s : State) (d e : Deck) : Prop :=
  (s.chan e).active = true ∧ (e = d ∨ (s.chan e).master = some (.deck d))

theorem Channel.follows_iff (c : Channel) (d : Deck) : c.follows d = true ↔ c.master = some (.deck d) := by
  simp [Channel.follows]

/-- The reason of the fault. -/
def lossReason (d e : Deck) : ChaseFault := if e = d then .slaveLost else .masterLost

/-- Channels of the link enter FAULT, each posting STOP to its slave. -/
theorem State.chaseDeckLost_touched (free : s.safeStop = false) (running : s.link.expired = false)
    (first : ∀ e, (s.port e).line = .idle → (s.port e).emerg = none ∧ (s.port e).seqSlot = { first := none, second := none })
    (linked : ∀ e, s.lossHits d e → (s.chan e).owner = some .link) :
    Touched (fun e => (s.port e).chaseStopped s.fmt (s.chan e)) (fun e => (s.chan e).faulted (lossReason d e))
      (fun e => some (((s.chan e).faulted (lossReason d e)).noticeContent (s.chan e).st .fault)) (s.lossHits d) s
      (s.chaseDeckLost d) := by
  let on (e : Deck) := e = d ∧ (s.chan d).active = true
  have slave : Touched (fun e => (s.port e).chaseStopped s.fmt (s.chan e)) (fun e => (s.chan e).faulted (lossReason d e))
      (fun e => some (((s.chan e).faulted (lossReason d e)).noticeContent (s.chan e).st .fault)) on s
      (s.chaseFault d .slaveLost) := by
    by_cases acts : (s.chan d).active = true
    · have link : (s.chan d).owner ≠ some .sequencer := by simp [linked d ⟨acts, .inl rfl⟩]
      have fault : lossReason d d = .slaveLost := if_pos rfl
      have touched := (Touched.refl s (fun _ => id) : Touched (fun e => (s.port e).chaseStopped s.fmt (s.chan e))
        (fun e => (s.chan e).faulted (lossReason d e))
        (fun e => some (((s.chan e).faulted (lossReason d e)).noticeContent (s.chan e).st .fault)) (fun _ => False) s s).touch
        (d := d) id
      rw [State.chaseFault_link free running (first d) acts _ link]
      simp only [fault] at touched
      exact touched.congr fun e => by simp [on, acts]
    · rw [State.chaseFault_inactive (Bool.eq_false_iff.mpr acts)]
      exact Touched.refl s fun e both => acts both.2
  refine (slave.foldl (move := fun s m => if (s.chan m).follows d then s.chaseFault m .masterLost else s)
    (hit := s.lossHits d) ?_ ?_ decks).congr fun e => ?_
  · intro t on' m reached sub new ⟨acts, cause⟩
    have other : m ≠ d := fun same => new (sub m ⟨same, same ▸ acts⟩)
    have port := reached.portKept m new
    have chan := reached.chanKept m new
    have follows : (t.chan m).follows d = true := by rw [chan, Channel.follows_iff]; exact cause.resolve_left other
    have reason : lossReason d m = .masterLost := if_neg other
    have link : (t.chan m).owner ≠ some .sequencer := by simp [chan, linked m ⟨acts, cause⟩]
    have freeT : t.safeStop = false := by rw [reached.rest]; exact free
    have runningT : t.link.expired = false := by rw [reached.rest]; exact running
    have fmt : t.fmt = s.fmt := by rw [reached.rest]; rfl
    rw [if_pos follows, State.chaseFault_link freeT runningT (by rw [port]; exact first m) (by rw [chan]; exact acts) _ link,
      State.channelFaults, port, chan, fmt, reason]
  · intro t on' m reached sub none
    have inactive : (t.chan m).follows d = true → (t.chan m).active = false := by
      intro follows
      by_cases touched : on' m
      · rw [reached.chan m touched]
        rfl
      · have chan := reached.chanKept m touched
        rw [chan, Channel.follows_iff] at follows
        rw [chan]
        exact Bool.eq_false_iff.mpr fun acts => none.resolve_left touched ⟨acts, .inr follows⟩
    split
    · next follows => exact State.chaseFault_inactive (inactive follows) _
    · rfl
  · constructor
    · exact fun hit => Or.inr ⟨mem_decks e, hit⟩
    · rintro (⟨rfl, acts⟩ | ⟨_, hit⟩)
      · exact ⟨acts, .inl rfl⟩
      · exact hit

/-- Where no channel acts on deck d or with it as its master, the channels are as before. -/
theorem State.chaseDeckLost_none (none : ∀ e, ¬s.lossHits d e) : s.chaseDeckLost d = s := by
  have inactive (e : Deck) (cause : e = d ∨ (s.chan e).master = some (.deck d)) (r : ChaseFault) : s.chaseFault e r = s :=
    State.chaseFault_inactive (Bool.eq_false_iff.mpr fun acts => none e ⟨acts, cause⟩) r
  have still (ds : List Deck) : ds.foldl (fun s m => if (s.chan m).follows d then s.chaseFault m .masterLost else s) s = s := by
    induction ds with
    | nil => rfl
    | cons m ds ih =>
      rw [List.foldl_cons]
      split
      · next follows => rw [inactive m (.inr ((Channel.follows_iff _ _).mp follows)), ih]
      · exact ih
  unfold State.chaseDeckLost
  rw [inactive d (.inl rfl)]
  exact still decks

end

/-! ## The loss of a deck (R56) -/

section
variable (s : State) (d : Deck)

/-- s with other ports, readers and notices. -/
def State.shown (ports : Vector Port 6) (readers : Vector Reader 6) (notices : List Notice) : State :=
  { s with ports := ports, readers := readers, link := { s.link with notices := notices } }

/-- The record of a deck that leaves PRESENT. -/
def Port.leaving (p : Port) (new : Presence) : Port :=
  { p with presence := new, ident := none, flags := none, nak := none, standing := false }

/-- A deck leaves PRESENT: its record, the notice and its reader. -/
def State.deckLeaves (new : Presence) (why : PresenceCause) : State :=
  (s.presenceMove d ((s.port d).leaving new) why).readerDeckLost d

theorem State.deckLost_eq (new : Presence) (why : PresenceCause) :
    s.deckLost d new why = ((s.deckLeaves d new why).chaseDeckLost d).editDeckLost d := rfl

section
variable (ports : Vector Port 6) (readers : Vector Reader 6) (notices : List Notice)

@[simp] theorem State.shown_fmt : (s.shown ports readers notices).fmt = s.fmt := rfl
@[simp] theorem State.shown_clock : (s.shown ports readers notices).clock = s.clock := rfl
@[simp] theorem State.shown_chase : (s.shown ports readers notices).chase = s.chase := rfl
@[simp] theorem State.shown_list : (s.shown ports readers notices).list = s.list := rfl
@[simp] theorem State.shown_edit : (s.shown ports readers notices).edit = s.edit := rfl
@[simp] theorem State.shown_engine : (s.shown ports readers notices).engine = s.engine := rfl
@[simp] theorem State.shown_gpi : (s.shown ports readers notices).gpi = s.gpi := rfl
@[simp] theorem State.shown_link : (s.shown ports readers notices).link = { s.link with notices := notices } := rfl
@[simp] theorem State.shown_safeStop : (s.shown ports readers notices).safeStop = s.safeStop := rfl

end

theorem State.readerSource_shown (r : Reader) (why : ReaderCause) : s.readerSource d r why =
    s.shown s.ports (s.readerSource d r why).readers (s.readerSource d r why).link.notices := by
  unfold State.readerSource
  dsimp only
  split
  · rfl
  · rw [State.enter_link, State.enter_readers, State.enter_eq]
    rfl

theorem State.entry_readerSource (r : Reader) (why : ReaderCause) {k : NoticeKind} (other : k ≠ .readerState) (n : Nat) :
    (s.readerSource d r why).entry k n = s.entry k n := by
  unfold State.readerSource
  dsimp only
  split
  · rfl
  · exact State.entry_enter_ne _ _ fun both => other both.1

variable {s d} {new : Presence} {why : PresenceCause}

theorem State.deckLeaves_shown : s.deckLeaves d new why = s.shown (s.setPort d ((s.port d).leaving new)).ports
    (s.deckLeaves d new why).readers (s.deckLeaves d new why).link.notices := by
  have moved : s.presenceMove d ((s.port d).leaving new) why =
      s.shown (s.setPort d ((s.port d).leaving new)).ports s.readers
        (s.presenceMove d ((s.port d).leaving new) why).link.notices := by
    rw [State.presenceMove, State.enter_link, State.enter_eq]
    rfl
  have left : s.deckLeaves d new why = (s.presenceMove d ((s.port d).leaving new) why).shown
      (s.presenceMove d ((s.port d).leaving new) why).ports (s.deckLeaves d new why).readers
      (s.deckLeaves d new why).link.notices := State.readerSource_shown _ _ _ _
  have ports : (s.presenceMove d ((s.port d).leaving new) why).ports = (s.setPort d ((s.port d).leaving new)).ports :=
    State.enter_ports _ _ _ _
  rw [ports] at left
  refine left.trans ((congrArg (State.shown · _ _ _) moved).trans ?_)
  rfl

theorem State.port_deckLeaves : (s.deckLeaves d new why).port d = (s.port d).leaving new := by
  rw [State.deckLeaves_shown]
  exact State.port_setPort s d _

theorem State.port_deckLeaves_ne {e : Deck} (other : e ≠ d) : (s.deckLeaves d new why).port e = s.port e := by
  rw [State.deckLeaves_shown]
  exact State.port_setPort_ne s _ other

theorem State.chan_deckLeaves (e : Deck) : (s.deckLeaves d new why).chan e = s.chan e := by
  rw [State.deckLeaves_shown]
  rfl

theorem State.fmt_deckLeaves : (s.deckLeaves d new why).fmt = s.fmt := by
  rw [State.deckLeaves_shown]
  rfl

theorem State.safeStop_deckLeaves : (s.deckLeaves d new why).safeStop = s.safeStop := by
  rw [State.deckLeaves_shown]
  rfl

theorem State.expired_deckLeaves : (s.deckLeaves d new why).link.expired = s.link.expired := by
  rw [State.deckLeaves_shown]
  rfl

theorem State.edit_deckLeaves : (s.deckLeaves d new why).edit = s.edit := by
  rw [State.deckLeaves_shown]
  rfl

/-- Entries of other kinds than DECK_PRESENCE and READER_STATE. -/
theorem State.entry_deckLeaves {k : NoticeKind} (noPresence : k ≠ .deckPresence) (noReader : k ≠ .readerState) (n : Nat) :
    (s.deckLeaves d new why).entry k n = s.entry k n :=
  (State.entry_readerSource _ _ _ _ noReader n).trans (State.entry_enter_ne _ _ fun both => noPresence both.1)

theorem State.lossHits_deckLeaves (e : Deck) : (s.deckLeaves d new why).lossHits d e = s.lossHits d e := by
  rw [State.lossHits, State.chan_deckLeaves, State.lossHits]

theorem State.editDeckLost_apart (apart : d ∉ s.edit.involved) : s.editDeckLost d = s := if_neg apart

/-- The loss of a deck that is not involved in the edit, with channels of the link alone to hear of it. -/
theorem State.deckLost_link (free : s.safeStop = false) (running : s.link.expired = false)
    (first : ∀ e, (s.port e).line = .idle → (s.port e).emerg = none ∧ (s.port e).seqSlot = { first := none, second := none })
    (linked : ∀ e, s.lossHits d e → (s.chan e).owner = some .link) (apart : d ∉ s.edit.involved) :
    Touched (fun e => ((s.deckLeaves d new why).port e).chaseStopped s.fmt (s.chan e))
      (fun e => (s.chan e).faulted (lossReason d e))
      (fun e => some (((s.chan e).faulted (lossReason d e)).noticeContent (s.chan e).st .fault)) (s.lossHits d)
      (s.deckLeaves d new why) (s.deckLost d new why) := by
  have hits : (s.deckLeaves d new why).lossHits d = s.lossHits d := funext fun e => State.lossHits_deckLeaves e
  have touched := State.chaseDeckLost_touched (s := s.deckLeaves d new why) (d := d)
    (State.safeStop_deckLeaves.trans free) (State.expired_deckLeaves.trans running) ?first ?linked
  case first =>
    intro e
    by_cases same : e = d
    · rw [same, State.port_deckLeaves]
      exact first d
    · rw [State.port_deckLeaves_ne same]
      exact first e
  case linked =>
    intro e
    rw [hits, State.chan_deckLeaves]
    exact linked e
  have edit : ((s.deckLeaves d new why).chaseDeckLost d).edit = s.edit := by
    rw [touched.rest, State.moved_edit, State.edit_deckLeaves]
  have lost : s.deckLost d new why = (s.deckLeaves d new why).chaseDeckLost d := by
    rw [State.deckLost_eq]
    exact State.editDeckLost_apart (by rw [edit]; exact apart)
  rw [lost]
  simp only [hits, State.fmt_deckLeaves, State.chan_deckLeaves] at touched
  exact touched

end

end Sys2Proof.Machine

/-! ## SET_PORT_ENABLE (R60) -/

namespace Sys2Proof.Machine

open Sys2Proof.Safety

section
variable (s : State) (d : Deck)

/-- One waiting PASS command is answered ABORTED. -/
theorem passAborted_single : Safety.passAborted s [d] = match (s.port d).pass with
    | some c => [{ kind := c.kind ||| 0x80, tag := c.tag, vals := [.u 1 0x12] }]
    | none => [] := by
  cases pass : (s.port d).pass with
  | none => simp [Safety.passAborted, pass]
  | some c =>
    simp only [Safety.passAborted, pass, List.flatMap_singleton]
    rfl

/-- A disable empties the slots below EMERGENCY. -/
theorem State.emptySlots_eq : s.emptySlots d = (s.withReplies (s.link.replies ++ Safety.passAborted s [d])).setPort d
    { s.port d with seqSlot := { first := none, second := none }, servo := none, pass := none, poll := none } := by
  rw [passAborted_single]
  cases pass : (s.port d).pass with
  | none => simp only [State.emptySlots, pass, List.append_nil, State.withReplies_self]
  | some c =>
    simp only [State.emptySlots, pass, State.passAborted_eq]
    rfl

theorem State.enablePort_eq : s.enablePort d = ((s.setPort d { s.port d with
    enabled := true, presence := .absent, attachAt := some s.now, poll := some ((s.port d).poll.getD .identify) }).enter
      .deckPresence (Deck.num d) [.u 1 Presence.absent.code, .u 1 PresenceCause.enabled.code]).hand d := by
  unfold State.enablePort State.presenceMove
  rw [State.putIdentify_eq, State.port_enter, State.port_setPort, State.setPort_enter, State.setPort_setPort, State.enter_now]
  rfl

/-- A disabled port: the slots below EMERGENCY empty, a waiting PASS command answered. -/
def State.portOff : State := (s.withReplies (s.link.replies ++ Safety.passAborted s [d])).setPort d { s.port d with
  enabled := false, attachAt := none, seqSlot := { first := none, second := none }, servo := none, pass := none, poll := none }

theorem State.disablePort_eq : s.disablePort d =
    if (s.port d).presence = .present then (s.portOff d).deckLost d .disabled .disabled
    else (s.portOff d).presenceMove d { (s.portOff d).port d with presence := .disabled } .disabled := by
  have emptied : (s.setPort d { s.port d with enabled := false, attachAt := none }).emptySlots d = s.portOff d := by
    have answered : Safety.passAborted (s.setPort d { s.port d with enabled := false, attachAt := none }) [d] =
        Safety.passAborted s [d] := by rw [passAborted_single, passAborted_single, State.port_setPort]
    rw [State.emptySlots_eq, State.port_setPort, answered]
    exact State.setPort_setPort (s.withReplies (s.link.replies ++ Safety.passAborted s [d])) d _ _
  rw [← emptied]
  rfl

end

/-! ### The request -/

/-- SET_PORT_ENABLE for deck d. -/
def portEnabling (r : Request) (s : State) (d : Deck) : State :=
  if flagAt r.params 1 then
    if (s.port d).presence = .disabled then (s.ok r [.u 1 Presence.absent.code]).enablePort d
    else s.ok r [.u 1 (s.port d).presence.code]
  else if (s.port d).claim = .sequencer then s.reply r.kind r.tag [vResult .deckOwned, .u 1 (s.port d).presence.code]
  else if (s.port d).presence = .disabled then s.ok r [.u 1 (s.port d).presence.code]
  else (s.ok r [.u 1 Presence.disabled.code]).disablePort d

theorem exec_setPortEnable (s : State) : exec .setPortEnable s = takeRequest 0x12 s fun r s =>
    match deckOf (byteN r.params 0) with
    | none => s.refuse r .noDeck
    | some d => portEnabling r s d := rfl

theorem flagAt_set {bs : List Byte} {i : Nat} (set : byteN bs i ≠ 0) : flagAt bs i = true := bne_iff_ne.mpr set

theorem flagAt_clear {bs : List Byte} {i : Nat} (clear : byteN bs i = 0) : flagAt bs i = false := by simp [flagAt, clear]

end Sys2Proof.Machine

namespace Sys2Proof.Proofs

open Sys2Proof.Machine Sys2Proof.Safety

/-- Settles O20: a port enabled or disabled by its claim and presence (`portEnabling`); the loss of a PRESENT deck reaches
the channels of the link as `State.deckLost_link` says. -/
theorem portEnableAndDisable : Obligations.PortEnableAndDisable := by
  refine ⟨fun s r taken outside => ?_, fun s r d taken number => ?_⟩
  · rw [exec_setPortEnable]
    refine takeRequest_noDeck taken (fun e h => ?_) portEnabling
    have := e.isLt
    change _ = e.val + 1 at h
    omega
  · intro p x u emptied off lost shows
    have ended : u.withReplies (u.link.replies ++ Safety.passAborted u [d]) = emptied := by
      rw [passAborted_single]
      rfl
    have gone : u.portOff d = emptied.setPort d { off with presence := p.presence } := by
      rw [State.portOff, ended]
      rfl
    have answer : exec .setPortEnable s = .next (portEnabling r s.dropHead d) :=
      (exec_setPortEnable s).trans (takeRequest_deck (k := 0x12) taken number portEnabling)
    rw [portEnabling, State.port_dropHead] at answer
    refine ⟨fun enables disabled => ?_, fun enables known => ?_, fun disables owned => ?_, fun disables free disabled => ?_,
      fun disables free absent => ?_, fun disables free present apart => ?_⟩
    · rw [answer, if_pos (flagAt_set enables), if_pos disabled, Laws.ok_dropHead, State.enablePort_eq]
      rfl
    · rw [answer, if_pos (flagAt_set enables), if_neg known, Laws.ok_dropHead]
      rfl
    · rw [answer, if_neg (by simp [flagAt_clear disables]), if_pos owned]
      simp [State.reply, State.dropHead, answered, vResult, replyKind, Val.fix, p]
    · rw [answer, if_neg (by simp [flagAt_clear disables]), if_neg free, if_pos disabled, disabled, Laws.ok_dropHead]
      rfl
    · have away : ¬(u.port d).presence = .present := by simp [show (u.port d).presence = _ from absent]
      rw [answer, if_neg (by simp [flagAt_clear disables]), if_neg free,
        if_neg (by simp [show (s.port d).presence = _ from absent]), Laws.ok_dropHead]
      change Host.Outcome.next (u.disablePort d) = _
      rw [State.disablePort_eq, if_neg away, gone, State.port_setPort, State.presenceMove, State.setPort_setPort]
      rfl
    · intro v w hit
      let left := shows .disabled .disabled (emptied.setPort d { off with
        ident := none, flags := none, nak := none, standing := false })
      have reader : left.reader d = x := State.reader_enter _ _ _ _ _
      have record : left.readerDeckLost d = w := by
        change left.readerSource d _ _ = _
        rw [reader]
        by_cases none : x.src = .none
        · rw [State.readerSource_same (by rw [reader, none])]
          exact (if_pos none).symm
        · rw [State.readerSource_new (by rw [reader]; exact fun same => none same.symm), reader]
          exact (if_neg none).symm
      have leaves : (u.portOff d).deckLeaves d .disabled .disabled = w := by
        rw [State.deckLeaves, gone, State.port_setPort, State.presenceMove, State.setPort_setPort, ← record]
        rfl
      have lost : exec .setPortEnable s = .next ((u.portOff d).deckLost d .disabled .disabled) := by
        rw [answer, if_neg (by simp [flagAt_clear disables]), if_neg free,
          if_neg (by simp [show (s.port d).presence = _ from present]), Laws.ok_dropHead]
        change Host.Outcome.next (u.disablePort d) = _
        rw [State.disablePort_eq, if_pos (show (u.port d).presence = .present from present)]
      have here : (u.portOff d).port d = { off with presence := p.presence } := by rw [gone, State.port_setPort]
      have there {e : Deck} (other : e ≠ d) : (u.portOff d).port e = s.port e := by
        rw [gone, State.port_setPort_ne _ _ other]
        rfl
      have hits (e : Deck) : (u.portOff d).lossHits d e ↔ hit e := by
        rw [State.lossHits, Channel.active_iff, and_assoc]
        rfl
      have apart' : d ∉ (u.portOff d).edit.involved := apart
      refine ⟨fun noHit => ?_, fun running timer linked first => ?_⟩
      · rw [lost, State.deckLost_eq, State.chaseDeckLost_none, State.editDeckLost_apart, leaves]
        · rw [State.edit_deckLeaves]
          exact apart'
        · intro e
          rw [State.lossHits_deckLeaves, hits]
          exact noHit e
      · have touched := State.deckLost_link (s := u.portOff d) (d := d) (new := .disabled) (why := .disabled) running timer
          (fun e => ?first) (fun e is => linked e ((hits e).mp is)) apart'
        case first =>
          by_cases same : e = d
          · rw [same, here]
            exact fun idle => ⟨(first d idle).1, rfl⟩
          · rw [there same]
            exact first e
        rw [leaves] at touched
        have portHere : w.port d = { off with ident := none, flags := none, nak := none, standing := false } := by
          rw [← leaves, State.port_deckLeaves, here]
          rfl
        have portThere {e : Deck} (other : e ≠ d) : w.port e = s.port e := by
          rw [← leaves, State.port_deckLeaves_ne other, there other]
        have chan (e : Deck) : w.chan e = s.chan e := by
          rw [← leaves, State.chan_deckLeaves]
          rfl
        have shown := State.deckLeaves_shown (s := u.portOff d) (d := d) (new := .disabled) (why := .disabled)
        have entry (n : Nat) : w.entry .chaseState n = s.entry .chaseState n := by
          rw [← leaves, State.entry_deckLeaves (by decide) (by decide)]
          rfl
        rw [leaves] at shown
        have rest := touched.rest
        have stopped {e : Deck} (other : e ≠ d) (is : hit e) :
            ((u.portOff d).deckLost d .disabled .disabled).port e = (s.port e).chaseStopped s.fmt (s.chan e) := by
          rw [touched.port e ((hits e).mpr is), portThere other]
          rfl
        refine ⟨_, lost, ?_, by rw [rest, State.moved_readers], by rw [rest, State.moved_link],
          by rw [rest, State.moved_edit, shown]; rfl, by rw [rest, State.moved_list, shown]; rfl,
          by rw [rest, State.moved_engine, shown]; rfl, fun e => ⟨fun is => ⟨touched.chan e ((hits e).mpr is), ?_⟩,
            fun isNot => ⟨(touched.chanKept e (mt (hits e).mp isNot)).trans (chan e), fun other => ?_⟩,
            fun other is disabled => ?_, fun other is enabled => ⟨fun busy => ?_, fun idle => ?_⟩⟩⟩
        · by_cases is : hit d
          · rw [touched.port d ((hits d).mpr is)]
            exact Port.chaseStopped_disabled (by rw [portHere]) _ _
          · exact touched.portKept d (mt (hits d).mp is)
        · have told := (touched.told e _ ((hits e).mpr is) rfl).since (entry _) (by rw [shown]; rfl) (by rw [shown]; rfl)
          rw [ChaseTold, touched.chan e ((hits e).mpr is)]
          exact told.told
        · exact (touched.portKept e (mt (hits e).mp isNot)).trans (portThere other)
        · exact (stopped other is).trans (Port.chaseStopped_disabled disabled _ _)
        · exact (stopped other is).trans (Port.chaseStopped_busy enabled busy _ _)
        · exact (stopped other is).trans (Port.chaseStopped_idle enabled idle _ _)

end Sys2Proof.Proofs

/-! ## EMERGENCY postings on decks in turn (R62, R129) -/

namespace Sys2Proof.Machine

open Sys2Proof.Safety

/-! ### Changes of phase -/

section
variable {s t : State}

theorem State.setPhase_same {p : Phase} (same : s.edit.phase = p) : s.setPhase p = s := if_pos same

theorem State.setPhase_new {p : Phase} (new : s.edit.phase ≠ p) : s.setPhase p =
    ({ s with edit := { s.edit with phase := p } } : State).enter .editPhase 0
      ({ s.edit with phase := p }.phaseContent s.edit.phase s.recNow) := by
  have now : ({ s with edit := { s.edit with phase := p } } : State).recNow = s.recNow := (Quiet.edit (ks := []) s _).recNow
  rw [← now]
  exact if_neg new

theorem State.setPhase_edit (s : State) (p : Phase) : (s.setPhase p).edit = { s.edit with phase := p } := by
  by_cases same : s.edit.phase = p
  · rw [State.setPhase_same same, ← same]
  · rw [State.setPhase_new same, State.enter_edit]

/-- The table after an entry, from what an entry reads. -/
theorem State.enter_notices_congr (clock : t.clock = s.clock) (mask : t.link.mask = s.link.mask)
    (notices : t.link.notices = s.link.notices) (k : NoticeKind) (n : Nat) (c : List Val) :
    (t.enter k n c).link.notices = (s.enter k n c).link.notices := by
  rw [State.enter_link, State.enter_link, State.noted, State.noted, Link.masked, Link.masked, mask, clock, notices]

/-- A change of phase reads of a state its edit, its recorder position and what a notice needs. -/
theorem State.setPhase_congr (edit : t.edit = s.edit) (recNow : t.recNow = s.recNow) (clock : t.clock = s.clock)
    (mask : t.link.mask = s.link.mask) (notices : t.link.notices = s.link.notices) (p : Phase) :
    (t.setPhase p).link.notices = (s.setPhase p).link.notices := by
  by_cases same : s.edit.phase = p
  · rw [State.setPhase_same same, State.setPhase_same (edit ▸ same), notices]
  · rw [State.setPhase_new same, State.setPhase_new (edit ▸ same), recNow, edit]
    apply State.enter_notices_congr
    exacts [clock, mask, notices]

/-- The sequencer is told of an EMERGENCY RECORD_OFF by what the same reads. -/
theorem State.toldEmergencyOff_congr (edit : t.edit = s.edit) (recNow : t.recNow = s.recNow) (clock : t.clock = s.clock)
    (mask : t.link.mask = s.link.mask) (notices : t.link.notices = s.link.notices) :
    t.toldEmergencyOff.edit = s.toldEmergencyOff.edit ∧
      t.toldEmergencyOff.link.notices = s.toldEmergencyOff.link.notices := by
  unfold State.toldEmergencyOff
  rw [edit, recNow]
  split
  · refine ⟨by rw [State.setPhase_edit, State.setPhase_edit], ?_⟩
    apply State.setPhase_congr
    exacts [rfl, (Quiet.edit (ks := []) t _).recNow.trans (recNow.trans (Quiet.edit (ks := []) s _).recNow.symm), clock, mask,
      notices]
  · exact ⟨edit, notices⟩

/-- The edit in RELEASE, its RECORD_OFF handed at a frame or not. -/
def Edit.offReleased (e : Edit) (f : Option Nat) : Edit := { e with phase := .release, stage := .offHanded, offFrame := f }

/-- The edit leaves EDITING at the hand of an EMERGENCY RECORD_OFF. -/
def Edit.heedsOff (e : Edit) : Prop := e.phase = .editing ∧ e.abort.isSome = true

theorem State.toldEmergencyOff_deaf (deaf : ¬s.edit.heedsOff) : s.toldEmergencyOff = s := if_neg deaf

theorem State.toldEmergencyOff_heeded (heeds : s.edit.heedsOff) : s.toldEmergencyOff =
    ({ s with edit := { s.edit with stage := .offHanded, offFrame := s.recNow } } : State).setPhase .release := if_pos heeds

theorem State.toldEmergencyOff_edit (heeds : s.edit.heedsOff) : s.toldEmergencyOff.edit = s.edit.offReleased s.recNow := by
  rw [State.toldEmergencyOff_heeded heeds, State.setPhase_edit]
  rfl

theorem State.toldEmergencyOff_once : ¬s.toldEmergencyOff.edit.heedsOff := by
  by_cases heeds : s.edit.heedsOff
  · rw [State.toldEmergencyOff_edit heeds]
    exact fun again => Phase.noConfusion again.1
  · rwa [State.toldEmergencyOff_deaf heeds]

end

/-! ### A channel whose command fails or is withdrawn (R87) -/

/-- The channel that is to post a command again, or a speed. -/
def Channel.failing (c : Channel) (gen loc : Nat) (k : DeckCmd) : Channel :=
  if c.gen = gen ∧ c.active = true then
    match k with
    | .locate _ => if c.st = .seek ∧ c.loc = loc then { c with relocate := true } else c
    | .play => { c with replay := true }
    | .varispeed _ => { c with speed := none }
    | _ => c
  else c

/-- A channel as before but for what it is to post. -/
def Channel.Kin (c x : Channel) : Prop :=
  x.st = c.st ∧ x.owner = c.owner ∧ x.gen = c.gen ∧ x.loc = c.loc ∧ (c.active = false → x = c)

theorem Channel.Kin.refl (c : Channel) : c.Kin c := ⟨rfl, rfl, rfl, rfl, fun _ => rfl⟩

theorem Channel.Kin.trans {a b c : Channel} (h : a.Kin b) (k : b.Kin c) : a.Kin c := by
  obtain ⟨st, owner, gen, loc, idle⟩ := h
  obtain ⟨st', owner', gen', loc', idle'⟩ := k
  refine ⟨st'.trans st, owner'.trans owner, gen'.trans gen, loc'.trans loc, fun inactive => ?_⟩
  have same := idle inactive
  exact (idle' (same ▸ inactive)).trans same

theorem Channel.failing_kin (c : Channel) (gen loc : Nat) (k : DeckCmd) : c.Kin (c.failing gen loc k) := by
  unfold Channel.failing
  split
  · next acts =>
    have active : ¬c.active = false := ne_false_of_eq_true acts.2
    split
    · split
      · exact ⟨rfl, rfl, rfl, rfl, fun inactive => absurd inactive active⟩
      · exact .refl c
    · exact ⟨rfl, rfl, rfl, rfl, fun inactive => absurd inactive active⟩
    · exact ⟨rfl, rfl, rfl, rfl, fun inactive => absurd inactive active⟩
    · exact .refl c
  · exact .refl c

theorem State.chanFailed_eq {s : State} (free : s.safeStop = false) (d : Deck) (gen loc : Nat) (k : DeckCmd) :
    s.chanFailed d gen loc k = s.setChan d ((s.chan d).failing gen loc k) := by
  unfold State.chanFailed Channel.failing
  dsimp only
  simp only [free, Bool.false_eq_true, not_false_eq_true, and_true]
  split
  · cases k with
    | locate n =>
      dsimp only
      split
      · rfl
      · exact (s.setChan_chan d).symm
    | play => rfl
    | varispeed v => rfl
    | _ => exact (s.setChan_chan d).symm
  · exact (s.setChan_chan d).symm

/-- The channel once the command in its SERVO slot is withdrawn. -/
def Channel.withdrawn (c : Channel) (x : Option ServoCmd) : Channel :=
  match x with
  | some k => c.failing k.gen k.loc k.cmd
  | none => c

theorem Channel.withdrawn_kin (c : Channel) (x : Option ServoCmd) : c.Kin (c.withdrawn x) := by
  cases x with
  | none => exact .refl c
  | some k => exact c.failing_kin _ _ _

/-! ### One posting (R62) -/

/-- An EMERGENCY posting on this port hands a RECORD_OFF at once. -/
def Port.handsOff (p : Port) : Prop :=
  p.line = .idle ∧ (match p.emerg with
    | some i => i.recordOff
    | none => p.standing) = true

section
variable (p : Port) (f : SuiteFormat) (e : Edit) (a b : Bool)

theorem Port.withEmergency_item : ∃ x y, (p.withEmergency e a b).emerg =
    some { recordOff := (match p.emerg with | some i => i.recordOff | none => p.standing), toSeq := x, toSafe := y } := by
  unfold Port.withEmergency
  cases p.emerg <;> exact ⟨_, _, rfl⟩

/-- After a posting the line is busy. -/
theorem Port.stopPosted_busy : (p.stopPosted f e a b).line ≠ .idle := by
  obtain ⟨x, y, item⟩ := p.withEmergency_item e a b
  rw [Port.stopPosted]
  by_cases idle : (p.withEmergency e a b).line = .idle
  · cases off : (match p.emerg with | some i => i.recordOff | none => p.standing) with
    | true =>
      rw [Port.handed_off idle (by rw [item, off])]
      exact LineState.noConfusion
    | false =>
      rw [Port.handed_stop idle (by rw [item, off])]
      exact LineState.noConfusion
  · rw [Port.handed_busy idle]
    exact idle

/-- A posting makes no record stand. -/
theorem Port.stopPosted_standing (stands : (p.stopPosted f e a b).standing = true) : p.standing = true := by
  obtain ⟨x, y, item⟩ := p.withEmergency_item e a b
  rw [Port.stopPosted] at stands
  by_cases idle : (p.withEmergency e a b).line = .idle
  · cases off : (match p.emerg with | some i => i.recordOff | none => p.standing) with
    | true =>
      rw [Port.handed_off idle (by rw [item, off])] at stands
      exact absurd stands Bool.false_ne_true
    | false =>
      rw [Port.handed_stop idle (by rw [item, off])] at stands
      exact stands
  · rw [Port.handed_busy idle] at stands
    exact stands

/-- On a busy line the item waits. -/
theorem Port.stopPosted_waits (busy : p.line ≠ .idle) : p.stopPosted f e a b = p.withEmergency e a b :=
  Port.handed_busy (p := p.withEmergency e a b) busy f

/-- An item that the sequencer awaits does not depend on the edit. -/
theorem Port.stopPosted_true (e' : Edit) : p.stopPosted f e true b = p.stopPosted f e' true b := by
  simp only [Port.stopPosted, Port.withEmergency, Bool.true_or]

theorem Port.stopPosted_dropServo : p.dropServo.stopPosted f e true b = p.stopPosted f e true b := by
  rw [Port.stopPosted, Port.stopPosted]
  refine congrArg (Port.handed · f) ?_
  simp only [Port.withEmergency, Port.dropServo, Bool.true_or]

/-- An item that already waits, with the slots below empty, is the item posted again. -/
theorem Port.withEmergency_same {p : Port} {o y : Bool} {b : Bool}
    (item : p.emerg = some { recordOff := o, toSeq := true, toSafe := y })
    (safe : (y || b) = y) (slot : p.seqSlot = { first := none, second := none }) (servo : p.servo = none) (pass : p.pass = none)
    (e : Edit) : p.withEmergency e true b = p := by
  cases p
  simp_all [Port.withEmergency]

/-- A second posting of the same item that still waits adds nothing. -/
theorem Port.stopPosted_again (e' : Edit) (waits : (p.stopPosted f e true b).emerg.isSome = true) :
    (p.stopPosted f e true b).stopPosted f e' true b = p.stopPosted f e true b := by
  obtain ⟨o, y, item, safe⟩ : ∃ o y, (p.withEmergency e true b).emerg = some { recordOff := o, toSeq := true, toSafe := y } ∧
      (y || b) = y := by
    unfold Port.withEmergency
    cases p.emerg with
    | none => exact ⟨_, b, rfl, Bool.or_self b⟩
    | some i => exact ⟨i.recordOff, i.toSafe || b, by simp, by simp⟩
  obtain ⟨slot, servo, pass⟩ := p.stopPosted_slots f e true b
  have busy := p.stopPosted_busy f e true b
  have kept : ∃ o, (p.stopPosted f e true b).emerg = some { recordOff := o, toSeq := true, toSafe := y } := by
    rw [Port.stopPosted] at waits ⊢
    by_cases idle : (p.withEmergency e true b).line = .idle
    · cases o with
      | true => exact ⟨false, by rw [Port.handed_off idle item]⟩
      | false =>
        rw [Port.handed_stop idle item] at waits
        exact absurd waits Bool.false_ne_true
    · exact ⟨o, by rw [Port.handed_busy idle, item]⟩
  obtain ⟨o', item'⟩ := kept
  rw [Port.stopPosted_waits _ _ _ _ _ busy, Port.withEmergency_same item' safe slot servo pass]

end

/-- The hand, with the port that `Port.handed` gives. -/
theorem State.handLine_handed {s : State} {d : Deck} (idle : (s.port d).line = .idle) {x : Flight} {q : Port}
    (picked : (s.port d).pick = some (x, q)) : s.handLine d =
      (s.setPort d ((s.port d).handed s.fmt)).told d ⟨q.clampSpeed x.cmd, x.origin⟩ := by
  rw [State.handLine_picked idle picked, Port.handed, if_pos idle, picked]

theorem Port.handed_record (p : Port) (f : SuiteFormat) : (p.handed f).record = p.record := by
  unfold Port.handed
  split
  · split
    · next x q picked => rw [Port.sending_record, Port.pick_record picked]
    · rfl
  · rfl

theorem Port.stopPosted_record (p : Port) (f : SuiteFormat) (e : Edit) (a b : Bool) :
    (p.stopPosted f e a b).record = p.record := Port.handed_record (p.withEmergency e a b) f

theorem Quiet.withReplies {ks : List NoticeKind} (s : State) (rs : List Reply) : Quiet ks s (s.withReplies rs) :=
  ⟨rfl, rfl, rfl, rfl, rfl, rfl, rfl, rfl, rfl, rfl, rfl, rfl, rfl, fun _ => rfl, fun _ _ _ => rfl⟩

/-- Deck d's channel once its waiting command is withdrawn; in a safe stop it does not hear of it (R184). -/
def State.withdrawnChan (s : State) (d : Deck) : Channel :=
  if s.safeStop = true then s.chan d else (s.chan d).withdrawn (s.port d).servo

theorem State.withdrawnChan_kin (s : State) (d : Deck) : (s.chan d).Kin (s.withdrawnChan d) := by
  unfold State.withdrawnChan
  split
  · exact .refl _
  · exact Channel.withdrawn_kin _ _

/-- The posting but for what the sequencer is told: port, channel, and the reply to a PASS command. -/
def State.stopping (s : State) (d : Deck) (a b : Bool) : State :=
  ((s.setPort d ((s.port d).stopPosted s.fmt s.edit a b)).setChan d (s.withdrawnChan d)).withReplies
    (s.link.replies ++ Safety.passAborted s [d])

section
variable {s : State} {d : Deck} (a b : Bool)

/-- A posting hands what the arbiter hands to the port with the item. -/
theorem State.postEmergency_hands : ∃ t : State, s.postEmergency d a b = t.handLine d ∧ t.safeStop = s.safeStop ∧
    t.port d = (s.port d).withEmergency s.edit a b ∧ (∀ q, t.setPort d q =
      ((s.setPort d q).setChan d (s.withdrawnChan d)).withReplies
        (s.link.replies ++ Safety.passAborted s [d])) ∧ t.fmt = s.fmt := by
  let u := s.setPort d ((s.port d).withEmergency s.edit a b)
  let v := u.setChan d (s.withdrawnChan d)
  have withdrawn : (match (s.port d).servo with
      | some c => u.chanFailed d c.gen c.loc c.cmd
      | none => u) = v := by
    cases safe : s.safeStop with
    | true =>
      have same : v = u := by simp only [v, State.withdrawnChan, if_pos safe]; exact u.setChan_chan d
      rw [same]
      cases (s.port d).servo with
      | none => rfl
      | some c => exact if_neg fun acts => acts.2.2 safe
    | false =>
      have chan : s.withdrawnChan d = (s.chan d).withdrawn (s.port d).servo := if_neg (by simp [safe])
      simp only [v, chan]
      cases (s.port d).servo with
      | none => exact (u.setChan_chan d).symm
      | some c => exact State.chanFailed_eq (s := u) safe d _ _ _
  have answered : (match (s.port d).pass with
      | some c => v.passAborted c
      | none => v) = v.withReplies (s.link.replies ++ Safety.passAborted s [d]) := by
    cases pass : (s.port d).pass with
    | none =>
      have nothing : Safety.passAborted s [d] = [] := by simp [Safety.passAborted, pass]
      rw [nothing, List.append_nil]
      exact v.withReplies_self.symm
    | some c => simp [Safety.passAborted, pass, State.passAborted_eq, v, u]
  refine ⟨v.withReplies (s.link.replies ++ Safety.passAborted s [d]), ?_, rfl, State.port_setPort _ _ _, fun q => ?_, rfl⟩
  · rw [← answered, ← withdrawn]
    rfl
  · exact congrArg (fun u : State => (u.setChan d _).withReplies _) (State.setPort_setPort s d _ q)

/-- A posting that hands a RECORD_OFF at once tells of it. -/
theorem State.postEmergency_told (off : (s.port d).handsOff) :
    s.postEmergency d a b = (s.stopping d a b).told d ⟨.recordOff, .emergencyOff⟩ := by
  obtain ⟨t, posted, _, here, touched, fmt⟩ := State.postEmergency_hands (s := s) (d := d) a b
  obtain ⟨idle, first⟩ := off
  obtain ⟨x, y, item⟩ := (s.port d).withEmergency_item s.edit a b
  have pick : (t.port d).pick = some (⟨.recordOff, .emergencyOff⟩,
      { t.port d with emerg := some { recordOff := false, toSeq := x, toSafe := y } }) := by
    simp only [Port.pick, here, item, first, if_true]
  rw [posted, State.handLine_handed (by rw [here]; exact idle) pick, touched, here, fmt]
  rfl

theorem State.postEmergency_off (free : s.safeStop = false) (off : (s.port d).handsOff) :
    s.postEmergency d a b = (s.stopping d a b).toldEmergencyOff :=
  (State.postEmergency_told a b off).trans (State.told_free (s.stopping d a b) d free _)

/-- Any other posting tells nobody, and in a safe stop none does. -/
theorem State.postEmergency_silent (silent : s.safeStop = true ∨ ¬(s.port d).handsOff) :
    s.postEmergency d a b = s.stopping d a b := by
  by_cases off : (s.port d).handsOff
  · have safe := silent.resolve_right (not_not.mpr off)
    exact (State.postEmergency_told a b off).trans (State.told_safe (s.stopping d a b) d safe _)
  obtain ⟨t, posted, _, here, touched, fmt⟩ := State.postEmergency_hands (s := s) (d := d) a b
  by_cases idle : (s.port d).line = .idle
  · obtain ⟨x, y, item⟩ := (s.port d).withEmergency_item s.edit a b
    have first : (match (s.port d).emerg with | some i => i.recordOff | none => (s.port d).standing) = false :=
      Bool.eq_false_iff.mpr fun first => off ⟨idle, first⟩
    have pick : (t.port d).pick = some (⟨.stop, .emergencyStop x y⟩, { t.port d with emerg := none }) := by
      simp only [Port.pick, here, item, first, Bool.false_eq_true, if_false]
    rw [posted, State.handLine_handed (by rw [here]; exact idle) pick, touched, here, fmt]
    exact State.told_emergencyStop _ d _ x y
  · rw [posted, State.handLine_busy (by rw [here]; exact idle), State.stopping, Port.stopPosted_waits _ _ _ _ _ idle, ← here,
      ← touched, State.setPort_port]

end

/-! ### Postings in turn -/

/-- s with another edit and other notices. -/
def State.phased (s : State) (e : Edit) (l : List Notice) : State := { s with edit := e, link := { s.link with notices := l } }

theorem State.setPhase_rest (s : State) (p : Phase) :
    s.setPhase p = s.phased (s.setPhase p).edit (s.setPhase p).link.notices := by
  by_cases same : s.edit.phase = p
  · rw [State.setPhase_same same]
    rfl
  · rw [State.setPhase_new same, State.enter_edit, State.enter_link, State.enter_eq]
    rfl

theorem State.toldEmergencyOff_rest (s : State) :
    s.toldEmergencyOff = s.phased s.toldEmergencyOff.edit s.toldEmergencyOff.link.notices := by
  by_cases heeds : s.edit.heedsOff
  · rw [State.toldEmergencyOff_heeded heeds]
    exact State.setPhase_rest _ _
  · rw [State.toldEmergencyOff_deaf heeds]
    rfl

open Classical in
/-- s with the sequencer told, where one of the postings on ds hands a RECORD_OFF outside a safe stop. -/
noncomputable def State.heard (s : State) (ds : List Deck) : State :=
  if s.safeStop = false ∧ ∃ d ∈ ds, (s.port d).handsOff then s.toldEmergencyOff else s

theorem State.heard_off {s : State} {ds : List Deck} (free : s.safeStop = false) (off : ∃ d ∈ ds, (s.port d).handsOff) :
    s.heard ds = s.toldEmergencyOff := if_pos ⟨free, off⟩

theorem State.heard_none {s : State} {ds : List Deck} (none : ∀ d ∈ ds, ¬(s.port d).handsOff) : s.heard ds = s :=
  if_neg fun ⟨_, d, mem, off⟩ => none d mem off

theorem State.heard_safe {s : State} (safe : s.safeStop = true) (ds : List Deck) : s.heard ds = s :=
  if_neg fun both => Bool.false_ne_true (both.1.symm.trans safe)

theorem State.heard_deaf {s : State} (deaf : ¬s.edit.heedsOff) (ds : List Deck) : s.heard ds = s := by
  rw [State.heard, State.toldEmergencyOff_deaf deaf, ite_self]

/-- The postings on the decks ds in turn lead from s to u. -/
structure StopsPosted (a b : Bool) (s u : State) (ds : List Deck) : Prop where
  quiet : Quiet [.editPhase] s u
  edit : u.edit = (s.heard ds).edit
  notices : u.link.notices = (s.heard ds).link.notices
  engine : u.engine = s.engine
  gpi : u.gpi = s.gpi
  kept : ∀ d, d ∉ ds → u.port d = s.port d ∧ u.chan d = s.chan d
  kin : ∀ d, (s.chan d).Kin (u.chan d)
  standing : ∀ d, (u.port d).standing = true → (s.port d).standing = true
  slots : ∀ d ∈ ds, (u.port d).seqSlot = { first := none, second := none } ∧ (u.port d).servo = none ∧ (u.port d).pass = none
  busy : ∀ d ∈ ds, (u.port d).line ≠ .idle
  item : ∀ d ∈ ds, (s.port d).line ≠ .idle → (u.port d).emerg.isSome = true
  replies : ∃ more, u.link.replies = s.link.replies ++ more ∧ (ds.Nodup → more = Safety.passAborted s ds)
  exact : ∀ d ∈ ds, a = true ∨ ¬s.edit.heedsOff ∨ (∀ e ∈ ds, ¬(s.port e).handsOff) →
    ds.Nodup ∨ (a = true ∧ ((s.port d).stopPosted s.fmt s.edit a b).emerg.isSome = true) →
    u.port d = (s.port d).stopPosted s.fmt s.edit a b

namespace StopsPosted

variable {a b : Bool} {s t u : State}

theorem nil (s : State) : StopsPosted a b s s [] where
  quiet := .refl s
  edit := by rw [State.heard_none (by simp)]
  notices := by rw [State.heard_none (by simp)]
  engine := rfl
  gpi := rfl
  kept _ _ := ⟨rfl, rfl⟩
  kin d := .refl _
  standing _ := id
  slots _ mem := absurd mem List.not_mem_nil
  busy _ mem := absurd mem List.not_mem_nil
  item _ mem := absurd mem List.not_mem_nil
  replies := ⟨[], by simp, fun _ => rfl⟩
  exact _ mem := absurd mem List.not_mem_nil

/-- One posting. -/
theorem single (d : Deck) : StopsPosted a b s (s.postEmergency d a b) [d] := by
  let v := s.stopping d a b
  have untold : Quiet [] s v := (Quiet.withReplies _ _).after ((Quiet.setChan _ d _).after
    (Quiet.setPort s d _ (Port.stopPosted_record _ _ _ _ _)))
  have told : s.postEmergency d a b = v.phased (s.heard [d]).edit (s.heard [d]).link.notices := by
    by_cases off : s.safeStop = false ∧ (s.port d).handsOff
    · obtain ⟨edit, notices⟩ := State.toldEmergencyOff_congr (s := s) (t := v) rfl untold.recNow rfl rfl rfl
      rw [State.postEmergency_off a b off.1 off.2, State.toldEmergencyOff_rest,
        State.heard_off off.1 ⟨d, List.mem_singleton_self d, off.2⟩]
      exact congrArg₂ v.phased edit notices
    · have silent : s.heard [d] = s := if_neg (by simpa using off)
      rw [State.postEmergency_silent a b (by simpa [or_iff_not_imp_left] using off), silent]
      rfl
  have quiet := Quiet.postEmergency s d a b
  have here : v.port d = (s.port d).stopPosted s.fmt s.edit a b := State.port_setPort s d _
  have there {e : Deck} (other : e ≠ d) : v.port e = s.port e := State.port_setPort_ne s _ other
  have channel : v.chan d = s.withdrawnChan d := State.chan_setChan (s.setPort d _) d _
  have channels {e : Deck} (other : e ≠ d) : v.chan e = s.chan e := State.chan_setChan_ne (s.setPort d _) _ other
  rw [told] at quiet ⊢
  exact {
    quiet := quiet
    edit := rfl
    notices := rfl
    engine := rfl
    gpi := rfl
    kept := fun e out => ⟨there (by simpa using out), channels (by simpa using out)⟩
    kin := fun e => by
      change (s.chan e).Kin (v.chan e)
      by_cases same : e = d
      · rw [same, channel]
        exact s.withdrawnChan_kin d
      · rw [channels same]
        exact .refl _
    standing := fun e (stands : (v.port e).standing = true) => by
      by_cases same : e = d
      · subst same
        rw [here] at stands
        exact Port.stopPosted_standing _ _ _ _ _ stands
      · rwa [there same] at stands
    slots := fun e mem => by
      obtain rfl := List.mem_singleton.mp mem
      change (v.port e).seqSlot = _ ∧ (v.port e).servo = _ ∧ (v.port e).pass = _
      rw [here]
      exact Port.stopPosted_slots _ _ _ _ _
    busy := fun e mem => by
      obtain rfl := List.mem_singleton.mp mem
      change (v.port e).line ≠ .idle
      rw [here]
      exact Port.stopPosted_busy _ _ _ _ _
    item := fun e mem busy => by
      obtain rfl := List.mem_singleton.mp mem
      change (v.port e).emerg.isSome = true
      rw [here, Port.stopPosted_waits _ _ _ _ _ busy]
      rfl
    replies := ⟨_, rfl, fun _ => rfl⟩
    exact := fun e mem _ _ => by
      obtain rfl := List.mem_singleton.mp mem
      exact here }

/-- Postings after another. -/
theorem cons {d : Deck} {ds : List Deck} (first : StopsPosted a b s t [d]) (rest : StopsPosted a b t u ds) :
    StopsPosted a b s u (d :: ds) := by
  have busy := first.busy d (List.mem_singleton_self d)
  have there {e : Deck} (other : e ≠ d) : t.port e = s.port e := (first.kept e (by simpa using other)).1
  have quiet := first.quiet.trans rest.quiet
  have noMore : ¬(t.port d).handsOff := fun off => busy off.1
  have hears : (s.heard (d :: ds)).edit = (t.heard ds).edit ∧
      (s.heard (d :: ds)).link.notices = (t.heard ds).link.notices := by
    have safe : t.safeStop = s.safeStop := first.quiet.safeStop
    cases stops : s.safeStop with
    | true =>
      have still : s.heard [d] = s := State.heard_safe stops _
      rw [State.heard_safe stops, State.heard_safe (safe.trans stops), first.edit, first.notices, still]
      exact ⟨rfl, rfl⟩
    | false =>
    by_cases off : (s.port d).handsOff
    · have edit : t.edit = s.toldEmergencyOff.edit := first.edit.trans (by rw [State.heard_off stops ⟨d, by simp, off⟩])
      have notices : t.link.notices = s.toldEmergencyOff.link.notices :=
        first.notices.trans (by rw [State.heard_off stops ⟨d, by simp, off⟩])
      have deaf : t.toldEmergencyOff = t := State.toldEmergencyOff_deaf (by rw [edit]; exact State.toldEmergencyOff_once)
      have still : t.heard ds = t := by rw [State.heard, deaf, ite_self]
      rw [still, edit, notices, State.heard_off stops ⟨d, by simp, off⟩]
      exact ⟨rfl, rfl⟩
    · have edit : t.edit = s.edit := first.edit.trans (by rw [State.heard_none (by simpa using off)])
      have notices : t.link.notices = s.link.notices := first.notices.trans (by rw [State.heard_none (by simpa using off)])
      by_cases later : ∃ e ∈ ds, (s.port e).handsOff
      · obtain ⟨e, mem, hands⟩ := later
        have other : e ≠ d := fun same => off (same ▸ hands)
        rw [State.heard_off stops ⟨e, List.mem_cons_of_mem d mem, hands⟩,
          State.heard_off (safe.trans stops) ⟨e, mem, show (t.port e).handsOff by rwa [there other]⟩]
        obtain ⟨edit', notices'⟩ :=
          State.toldEmergencyOff_congr edit first.quiet.recNow first.quiet.clock first.quiet.mask notices
        exact ⟨edit'.symm, notices'.symm⟩
      · have none (e : Deck) (mem : e ∈ ds) : ¬(t.port e).handsOff := by
          by_cases same : e = d
          · rwa [same]
          · rw [there same]
            exact fun hands => later ⟨e, mem, hands⟩
        have noneS (e : Deck) (mem : e ∈ d :: ds) : ¬(s.port e).handsOff := by
          rcases List.mem_cons.mp mem with rfl | mem
          · exact off
          · exact fun hands => later ⟨e, mem, hands⟩
        rw [State.heard_none none, State.heard_none noneS]
        exact ⟨edit.symm, notices.symm⟩
  obtain ⟨more, replies, answered⟩ := first.replies
  obtain ⟨more', replies', answered'⟩ := rest.replies
  exact {
    quiet := quiet
    edit := rest.edit.trans hears.1.symm
    notices := rest.notices.trans hears.2.symm
    engine := rest.engine.trans first.engine
    gpi := rest.gpi.trans first.gpi
    kept := fun e out => by
      obtain ⟨other, out⟩ := not_or.mp (mt List.mem_cons.mpr out)
      obtain ⟨port, chan⟩ := first.kept e (by simpa using other)
      obtain ⟨port', chan'⟩ := rest.kept e out
      exact ⟨port'.trans port, chan'.trans chan⟩
    kin := fun e => (first.kin e).trans (rest.kin e)
    standing := fun e stands => first.standing e (rest.standing e stands)
    slots := fun e mem => by
      by_cases later : e ∈ ds
      · exact rest.slots e later
      · obtain rfl := (List.mem_cons.mp mem).resolve_right later
        rw [(rest.kept e later).1]
        exact first.slots e (List.mem_singleton_self e)
    busy := fun e mem => by
      by_cases later : e ∈ ds
      · exact rest.busy e later
      · obtain rfl := (List.mem_cons.mp mem).resolve_right later
        rwa [(rest.kept e later).1]
    item := fun e mem waits => by
      by_cases later : e ∈ ds
      · refine rest.item e later ?_
        by_cases same : e = d
        · rwa [same]
        · rwa [there same]
      · obtain rfl := (List.mem_cons.mp mem).resolve_right later
        rw [(rest.kept e later).1]
        exact first.item e (List.mem_singleton_self e) waits
    replies := ⟨more ++ more', by rw [replies', replies, List.append_assoc], fun distinct => by
      obtain ⟨new, others⟩ := List.nodup_cons.mp distinct
      rw [answered (List.nodup_singleton d), answered' others]
      have waiting : Safety.passAborted t ds = Safety.passAborted s ds :=
        List.flatMap_congr fun e mem => by rw [there (ne_of_mem_of_not_mem mem new)]
      rw [waiting]
      simp [Safety.passAborted]⟩
    exact := fun e mem how only => by
      have same (p : Port) : p.stopPosted t.fmt t.edit a b = p.stopPosted s.fmt s.edit a b := by
        rw [first.quiet.fmt]
        rcases how with rfl | deaf | none
        · exact Port.stopPosted_true _ _ _ _ _
        · rw [first.edit, State.heard_deaf deaf]
        · rw [first.edit, State.heard_none fun x is => none x (List.mem_cons.mpr (.inl (List.mem_singleton.mp is)))]
      have howT : a = true ∨ ¬t.edit.heedsOff ∨ ∀ x ∈ ds, ¬(t.port x).handsOff := by
        refine how.imp_right (Or.imp (fun deaf => ?_) fun none x is hands => ?_)
        · rwa [first.edit, State.heard_deaf deaf]
        · by_cases same : x = d
          · exact noMore (same ▸ hands)
          · exact none x (List.mem_cons_of_mem d is) (there same ▸ hands)
      have howS : a = true ∨ ¬s.edit.heedsOff ∨ ∀ x ∈ [d], ¬(s.port x).handsOff :=
        how.imp_right (Or.imp_right fun none x is => none x (List.mem_cons.mpr (.inl (List.mem_singleton.mp is))))
      by_cases later : e ∈ ds
      · by_cases twice : e = d
        · subst twice
          obtain ⟨rfl, waits⟩ := only.resolve_left fun distinct => (List.nodup_cons.mp distinct).1 later
          have once := first.exact e (List.mem_singleton_self e) howS (.inl (List.nodup_singleton e))
          have again : (t.port e).stopPosted t.fmt t.edit true b = t.port e := by
            rw [once, first.quiet.fmt]
            exact Port.stopPosted_again _ _ _ _ _ waits
          rw [rest.exact e later howT (.inr ⟨rfl, by rw [again, once]; exact waits⟩), again, once]
        · rw [rest.exact e later howT ?_, there twice, same]
          rw [there twice, same]
          exact only.imp_left List.Nodup.of_cons
      · obtain rfl := (List.mem_cons.mp mem).resolve_right later
        rw [(rest.kept e later).1]
        exact first.exact e (List.mem_singleton_self e) howS (.inl (List.nodup_singleton e)) }

/-- The postings of a fold. -/
theorem foldl (s : State) (ds : List Deck) :
    StopsPosted a b s (ds.foldl (fun s d => s.postEmergency d a b) s) ds := by
  induction ds generalizing s with
  | nil => exact nil s
  | cons d ds ih =>
    exact cons (single d) (ih _)

end StopsPosted

end Sys2Proof.Machine

/-! ## What an abort tells channels, engine and host (R93, R129, R134, R154) -/

namespace Sys2Proof.Machine

open Sys2Proof.Safety

/-! ### The phase (R134) -/

theorem Edit.phaseContent_active {e : Edit} {n : Nat} {ev : EventFields} {m : EditMode} (active : e.active = some (n, ev))
    (mode : e.mode = some m) (s : State) (old : Phase) :
    e.phaseContent old s.recNow = Safety.phaseContent s e n m e.phase old := by
  simp only [Edit.phaseContent, Safety.phaseContent, active, mode, Option.map_some, Option.getD_some]

/-- A move whose change of phase to RELEASE, where it makes one, is entered once. -/
def ReleaseEntered (s u : State) : Prop :=
  u.edit.phase = .release → Entered s u .editPhase 0 (u.edit.phaseContent s.edit.phase s.recNow) 1

/-- A change of phase after a move that enters no EDIT_PHASE. -/
theorem State.setPhase_entered {s t : State} {p : Phase} (recNow : t.recNow = s.recNow)
    (silent : t.entry .editPhase 0 = s.entry .editPhase 0) (mask : t.link.mask = s.link.mask) (clock : t.clock = s.clock)
    (new : t.edit.phase ≠ p) :
    Entered s (t.setPhase p) .editPhase 0 ((t.setPhase p).edit.phaseContent t.edit.phase s.recNow) 1 := by
  rw [State.setPhase_edit, State.setPhase_new new, recNow]
  refine Entered.first ?_ mask clock
  exact (State.entry_congr rfl _ _).trans silent

/-- From s to u the phase stays and nothing is entered of it, or it becomes RELEASE with one entry. -/
def PhaseOnce (s u : State) : Prop :=
  (u.edit.phase = s.edit.phase ∧ u.entry .editPhase 0 = s.entry .editPhase 0) ∨
    (u.edit.phase = .release ∧ Entered s u .editPhase 0 (u.edit.phaseContent s.edit.phase s.recNow) 1)

namespace PhaseOnce

variable {s t u : State}

theorem entered (h : PhaseOnce s u) (open' : s.edit.phase ≠ .release) : ReleaseEntered s u := fun released => by
  rcases h with ⟨same, _⟩ | ⟨_, entered⟩
  · exact absurd (same.symm.trans released) open'
  · exact entered

theorem kept (h : PhaseOnce s t) (edit : u.edit = t.edit) (entry : u.entry .editPhase 0 = t.entry .editPhase 0) :
    PhaseOnce s u := by
  rw [PhaseOnce, edit, entry]
  exact h.imp_right fun ⟨released, entered⟩ => ⟨released, entered.kept entry⟩

section
variable (h : PhaseOnce s t) (recNow : t.recNow = s.recNow) (mask : t.link.mask = s.link.mask) (clock : t.clock = s.clock)
include h recNow mask clock

/-- The phase becomes RELEASE. -/
theorem setPhase : PhaseOnce s (t.setPhase .release) := by
  by_cases released : t.edit.phase = .release
  · rw [State.setPhase_same released]
    exact h
  · rcases h with ⟨same, entry⟩ | ⟨already, _⟩
    · refine .inr ⟨by rw [State.setPhase_edit], ?_⟩
      rw [← same]
      exact State.setPhase_entered recNow entry mask clock released
    · exact absurd already released

/-- Postings change the phase to RELEASE at most. -/
theorem posted {a b : Bool} {ds : List Deck} (posted : StopsPosted a b t u ds) : PhaseOnce s u := by
  by_cases heeds : t.edit.heedsOff
  · by_cases off : t.safeStop = false ∧ ∃ d ∈ ds, (t.port d).handsOff
    · let v : State := { t with edit := { t.edit with stage := .offHanded, offFrame := t.recNow } }
      have heard : t.heard ds = v.setPhase .release :=
        (State.heard_off off.1 off.2).trans (State.toldEmergencyOff_heeded heeds)
      have once : PhaseOnce s v := by
        rcases h with ⟨same, entry⟩ | ⟨released, _⟩
        · exact .inl ⟨same, entry⟩
        · exact absurd (released.symm.trans heeds.1) Phase.noConfusion
      exact (once.setPhase recNow mask clock).kept (posted.edit.trans (congrArg State.edit heard))
        (State.entry_congr (posted.notices.trans (congrArg (fun u : State => u.link.notices) heard)) _ _)
    · have heard : t.heard ds = t := if_neg off
      exact h.kept (posted.edit.trans (congrArg State.edit heard))
        (State.entry_congr (posted.notices.trans (congrArg (fun u : State => u.link.notices) heard)) _ _)
  · have heard : t.heard ds = t := State.heard_deaf heeds ds
    exact h.kept (posted.edit.trans (congrArg State.edit heard))
      (State.entry_congr (posted.notices.trans (congrArg (fun u : State => u.link.notices) heard)) _ _)

end

end PhaseOnce

/-! ### The channels of the sources (R93) -/

/-- A channel that is cleared (Table 5-5). -/
def Channel.cleared (c : Channel) (lead : Nat) : Channel := Channel.idle lead (c.gen + 1) c.loc

theorem State.clearChan_idle {s : State} {d : Deck} (idle : (s.chan d).st = .idle) (why : ChaseCause) :
    s.clearChan d why = s := if_pos idle

theorem State.clearChan_touch {s : State} {d : Deck} (moves : (s.chan d).st ≠ .idle) (why : ChaseCause) :
    s.clearChan d why = s.touch d (s.port d).dropServo ((s.chan d).cleared s.set.lead)
      (some (((s.chan d).cleared s.set.lead).noticeContent (s.chan d).st why)) := if_neg moves

/-- The edit's end clears deck d's channel. -/
def State.releases (s : State) (d : Deck) : Prop :=
  d ∈ s.edit.sources ∧ (s.chan d).owner = some .sequencer ∧ (s.chan d).st ≠ .idle

theorem State.clearEditChans_touched (s : State) : Touched (fun d => (s.port d).dropServo)
    (fun d => (s.chan d).cleared s.set.lead)
    (fun d => some (((s.chan d).cleared s.set.lead).noticeContent (s.chan d).st .released)) s.releases s s.clearEditChans := by
  refine (Touched.foldl (hit := fun d => (s.chan d).owner = some .sequencer ∧ (s.chan d).st ≠ .idle)
    (move := fun s d => if (s.chan d).owner = some .sequencer then s.clearChan d .released else s) ?_ ?_
    (.refl s fun _ => id) s.edit.sources).congr fun d => ?_
  · intro t on d reached _ new ⟨owned, moves⟩
    have port := reached.portKept d new
    have chan := reached.chanKept d new
    have set : t.set = s.set := by rw [reached.rest]; rfl
    rw [if_pos (by rw [chan, owned]), State.clearChan_touch (by rw [chan]; exact moves), port, chan, set]
  · intro t on d reached _ none
    split
    · next owned =>
      refine State.clearChan_idle ?_ _
      by_cases touched : on d
      · rw [reached.chan d touched]
        rfl
      · rw [reached.chanKept d touched] at owned ⊢
        exact not_not.mp fun moves => none.resolve_left touched ⟨owned, moves⟩
    · rfl
  · simp [State.releases]

/-! ### The transition engine (R154) -/

/-- The engine after an abort. -/
def Engine.abortEnded (e : Engine) : Engine :=
  if e.st = .armed then { e with st := .idle, preview := false }
  else if e.st = .running ∧ e.seqPlan = true then { e with st := .held, preview := false }
  else { e with preview := false }

/-- The cause that TRANSITION_STATE shows of it. -/
def Engine.abortCause (e : Engine) : TransCause := if e.st = .armed then .withdrawn else .held

theorem State.engineMove_entered (s : State) (e : Engine) (why : TransCause) :
    Entered s (s.engineMove e why) .transitionState 0 (e.noticeContent s.engine.st why) 1 :=
  Entered.first (t := { s with engine := e }) rfl rfl rfl

theorem State.engineMove_engine (s : State) (e : Engine) (why : TransCause) : (s.engineMove e why).engine = e :=
  Laws.engineMove_engine s e why

theorem State.engineMove_rest (s : State) (e : Engine) (why : TransCause) : s.engineMove e why =
    { s with engine := e, link := { s.link with notices := (s.engineMove e why).link.notices } } := by
  rw [State.engineMove]
  dsimp only
  rw [State.enter_link, State.enter_eq]
  rfl

theorem State.engineAbort_engine (s : State) : s.engineAbort.engine = s.engine.abortEnded := by
  unfold State.engineAbort Engine.abortEnded
  dsimp only
  split
  · exact State.engineMove_engine _ _ _
  · rw [show ({ s.engine with preview := false } : Engine).seqPlan = s.engine.seqPlan from rfl]
    split
    · exact State.engineMove_engine _ _ _
    · rfl

theorem State.engineAbort_entered (s : State) (moves : s.engine.abortEnded.st ≠ s.engine.st) :
    Entered s s.engineAbort .transitionState 0 (s.engine.abortEnded.noticeContent s.engine.st s.engine.abortCause) 1 := by
  unfold Engine.abortEnded at moves ⊢
  unfold State.engineAbort Engine.abortCause
  dsimp only
  by_cases armed : s.engine.st = .armed
  · simp only [if_pos armed]
    exact State.engineMove_entered _ _ _
  · rw [show ({ s.engine with preview := false } : Engine).seqPlan = s.engine.seqPlan from rfl]
    simp only [if_neg armed] at moves ⊢
    by_cases runs : s.engine.st = .running ∧ s.engine.seqPlan = true
    · simp only [if_pos runs]
      exact State.engineMove_entered _ _ _
    · rw [if_neg runs] at moves
      exact absurd rfl moves

theorem State.engineAbort_rest (s : State) : s.engineAbort = { s with
    engine := s.engineAbort.engine, link := { s.link with notices := s.engineAbort.link.notices } } := by
  unfold State.engineAbort
  dsimp only
  split
  · exact (State.engineMove_rest _ _ _).trans (by rw [State.engineMove_engine])
  · split
    · exact (State.engineMove_rest _ _ _).trans (by rw [State.engineMove_engine])
    · rfl

/-! ### All of it -/

/-- What an abort from s to u tells, as entries of the notice table. -/
structure AbortEntered (s u : State) : Prop where
  sources : ∀ d, s.releases d → u.chan d = (s.chan d).cleared s.set.lead ∧ Entered s u .chaseState (Deck.num d)
    (((s.chan d).cleared s.set.lead).noticeContent (s.chan d).st .released) 1
  engine : u.engine = s.engine.abortEnded
  plan : s.engine.abortEnded.st ≠ s.engine.st → Entered s u .transitionState 0
    (s.engine.abortEnded.noticeContent s.engine.st s.engine.abortCause) 1
  phase : ReleaseEntered s u

namespace AbortEntered

variable {s t u v : State}

theorem told (h : AbortEntered s u) (active : u.edit.active = s.edit.active) (mode : u.edit.mode = s.edit.mode) :
    AbortTold s u := by
  refine ⟨fun d source owned moves => ?_, ⟨fun armed => ?_, fun runs planned => ?_, fun unarmed other => ?_, fun moves => ?_⟩,
    fun n ev m isActive isMode released => ?_⟩
  · obtain ⟨chan, entered⟩ := h.sources d ⟨source, owned, moves⟩
    refine ⟨chan, ?_⟩
    rw [ChaseTold, chan]
    exact entered.told
  · rw [h.engine, Engine.abortEnded, if_pos armed]
  · rw [h.engine, Engine.abortEnded, if_neg (by simp [runs]), if_pos ⟨runs, planned⟩]
  · rw [h.engine, Engine.abortEnded, if_neg unarmed, if_neg]
    rintro ⟨runs, planned⟩
    rcases other with still | unplanned
    · exact still runs
    · exact Bool.false_ne_true (unplanned.symm.trans planned)
  · rw [h.engine] at moves ⊢
    exact (h.plan moves).told
  · have entered := h.phase released
    rw [Edit.phaseContent_active (active.trans isActive) (mode.trans isMode), released] at entered
    exact entered.told

/-- A move after the abort that leaves what it tells. -/
theorem kept (h : AbortEntered s u) (chans : ∀ d, s.releases d → v.chan d = u.chan d) (engine : v.engine = u.engine)
    (chase : ∀ d, s.releases d → v.entry .chaseState (Deck.num d) = u.entry .chaseState (Deck.num d))
    (plan : v.entry .transitionState 0 = u.entry .transitionState 0) (phase : ReleaseEntered s v) : AbortEntered s v where
  sources d is := by
    obtain ⟨chan, entered⟩ := h.sources d is
    exact ⟨(chans d is).trans chan, entered.kept (chase d is)⟩
  engine := engine.trans h.engine
  plan moves := (h.plan moves).kept plan
  phase := phase

/-- A move before the abort that leaves what it reads. -/
theorem since (h : AbortEntered t u) (sources : t.edit.sources = s.edit.sources) (chase : t.chase = s.chase)
    (engine : t.engine = s.engine) (set : t.set = s.set) (clock : t.clock = s.clock) (mask : t.link.mask = s.link.mask)
    (recNow : t.recNow = s.recNow) (entries : ∀ k n, k ≠ .editPhase → t.entry k n = s.entry k n)
    (phase : u.edit.phase = .release → t.edit.phase = s.edit.phase ∧ t.entry .editPhase 0 = s.entry .editPhase 0) :
    AbortEntered s u := by
  have chan (d : Deck) : t.chan d = s.chan d := by rw [State.chan, chase, State.chan]
  refine ⟨fun d is => ?_, by rw [h.engine, engine], fun moves => ?_, fun released => ?_⟩
  · have := h.sources d (by rwa [State.releases, sources, chan])
    rw [chan, set] at this
    exact ⟨this.1, this.2.since (entries _ _ (by decide)) mask clock⟩
  · have := h.plan (by rwa [engine])
    rw [engine] at this
    exact this.since (entries _ _ (by decide)) mask clock
  · have entered := h.phase released
    obtain ⟨samePhase, sameEntry⟩ := phase released
    rw [samePhase, recNow] at entered
    exact entered.since sameEntry mask clock

end AbortEntered

end Sys2Proof.Machine

/-! ## The abort of an edit (R129) -/

namespace Sys2Proof.Machine

open Sys2Proof.Safety

/-- The edit with an abort taken. -/
def Edit.aborting (e : Edit) (why : Reason) : Edit := { e with abort := some why, abortStage := e.stage, stops := e.involved }

/-- A port whose open quiet window closes where no record stands (R66). -/
def Port.windowShut (p : Port) : Port :=
  if p.quiet = true ∧ ¬p.standing = true then { p with quiet := false, hold := true } else p

theorem Port.windowShut_standing {p : Port} (stands : p.standing = true) : p.windowShut = p := if_neg fun both => both.2 stands

theorem Port.windowShut_closed {p : Port} (closed : p.quiet = false) : p.windowShut = p := by simp [Port.windowShut, closed]

@[simp] theorem Port.standing_windowShut (p : Port) : p.windowShut.standing = p.standing := by
  unfold Port.windowShut
  split <;> rfl

theorem State.closeWindow_eq (s : State) : s.closeWindow = s.setPort s.recorder (s.port s.recorder).windowShut := by
  unfold State.closeWindow Port.windowShut
  dsimp only
  split
  · rfl
  · exact (s.setPort_port _).symm

/-- s once the edit has taken the abort, and channels, schedule and engine have heard of it. -/
def State.relieved (s : State) (why : Reason) : State :=
  ({ s with edit := s.edit.aborting why } : State).clearEditChans.gpiDisarm.engineAbort

section
variable (s : State) (why : Reason)

theorem State.relieved_touched : Touched (fun d => (s.port d).dropServo) (fun d => (s.chan d).cleared s.set.lead)
    (fun d => some (((s.chan d).cleared s.set.lead).noticeContent (s.chan d).st .released)) s.releases
    { s with edit := s.edit.aborting why } ({ s with edit := s.edit.aborting why } : State).clearEditChans :=
  State.clearEditChans_touched { s with edit := s.edit.aborting why }

theorem State.relieved_rest : s.relieved why = { s with
    edit := s.edit.aborting why, gpi := { s.gpi with sched := [] }, engine := s.engine.abortEnded
    ports := (s.relieved why).ports, chase := (s.relieved why).chase
    link := { s.link with notices := (s.relieved why).link.notices } } := by
  let m : State := { s with edit := s.edit.aborting why }
  have rest : s.relieved why = { m.clearEditChans.gpiDisarm with
      engine := (s.relieved why).engine
      link := { m.clearEditChans.link with notices := (s.relieved why).link.notices } } := State.engineAbort_rest _
  have engine : (s.relieved why).engine = s.engine.abortEnded := by
    refine (State.engineAbort_engine _).trans (congrArg Engine.abortEnded ?_)
    exact (congrArg State.engine (State.relieved_touched s why).rest :)
  have ports : (s.relieved why).ports = m.clearEditChans.ports := (congrArg State.ports rest :)
  have chase : (s.relieved why).chase = m.clearEditChans.chase := (congrArg State.chase rest :)
  rw [engine] at rest
  rw [ports, chase]
  refine rest.trans ?_
  rw [(State.relieved_touched s why).rest]
  rfl

theorem Quiet.relieved : Quiet [.chaseState, .transitionState] s (s.relieved why) :=
  ((Quiet.engineAbort _).mono (by simp)).after ((Quiet.gpiDisarm _).after (((Quiet.clearEditChans _).mono (by simp)).after
    (Quiet.edit s _)))

theorem State.relieved_engine_entry {k : NoticeKind} (other : k ≠ .transitionState) (n : Nat) : (s.relieved why).entry k n =
    ({ s with edit := s.edit.aborting why } : State).clearEditChans.entry k n :=
  (Quiet.engineAbort _).entries k n (by simpa using other)

variable {s} {d : Deck}

theorem State.port_relieved (is : s.releases d) : (s.relieved why).port d = (s.port d).dropServo := by
  have ports : (s.relieved why).port d = ({ s with edit := s.edit.aborting why } : State).clearEditChans.port d :=
    (congrArg (State.port · d) (State.engineAbort_rest _) :)
  exact ports.trans ((State.relieved_touched s why).port d is)

theorem State.port_relieved_kept (isNot : ¬s.releases d) : (s.relieved why).port d = s.port d := by
  have ports : (s.relieved why).port d = ({ s with edit := s.edit.aborting why } : State).clearEditChans.port d :=
    (congrArg (State.port · d) (State.engineAbort_rest _) :)
  exact ports.trans ((State.relieved_touched s why).portKept d isNot)

theorem State.chan_relieved (is : s.releases d) : (s.relieved why).chan d = (s.chan d).cleared s.set.lead := by
  have chans : (s.relieved why).chan d = ({ s with edit := s.edit.aborting why } : State).clearEditChans.chan d :=
    (congrArg (State.chan · d) (State.engineAbort_rest _) :)
  exact chans.trans ((State.relieved_touched s why).chan d is)

theorem State.chan_relieved_kept (isNot : ¬s.releases d) : (s.relieved why).chan d = s.chan d := by
  have chans : (s.relieved why).chan d = ({ s with edit := s.edit.aborting why } : State).clearEditChans.chan d :=
    (congrArg (State.chan · d) (State.engineAbort_rest _) :)
  exact chans.trans ((State.relieved_touched s why).chanKept d isNot)

/-- Each port is as before but for a waiting command of its channel. -/
theorem State.port_relieved_or (d : Deck) :
    (s.relieved why).port d = s.port d ∨ (s.relieved why).port d = (s.port d).dropServo := by
  by_cases is : s.releases d
  · exact .inr (State.port_relieved why is)
  · exact .inl (State.port_relieved_kept why is)

theorem State.relieved_handsOff (d : Deck) : ((s.relieved why).port d).handsOff ↔ (s.port d).handsOff := by
  rcases State.port_relieved_or (s := s) why d with same | dropped
  · rw [same]
  · rw [dropped]
    exact Iff.rfl

theorem State.relieved_stopPosted (d : Deck) : ((s.relieved why).port d).stopPosted s.fmt (s.relieved why).edit true false =
    (s.port d).stopPosted s.fmt s.edit true false := by
  rw [Port.stopPosted_true _ _ _ _ s.edit]
  rcases State.port_relieved_or (s := s) why d with same | dropped
  · rw [same]
  · rw [dropped, Port.stopPosted_dropServo]

theorem State.passAborted_relieved (ds : List Deck) : Safety.passAborted (s.relieved why) ds = Safety.passAborted s ds :=
  List.flatMap_congr fun d _ => by
    rcases State.port_relieved_or (s := s) why d with same | dropped
    · rw [same]
    · rw [dropped]
      rfl

theorem State.relieved_chase (is : s.releases d) : Entered s (s.relieved why) .chaseState (Deck.num d)
    (((s.chan d).cleared s.set.lead).noticeContent (s.chan d).st .released) 1 :=
  (((State.relieved_touched s why).told d _ is rfl).since (s := s) rfl rfl rfl).kept
    (State.relieved_engine_entry s why (by decide) _)

theorem State.relieved_plan (moves : s.engine.abortEnded.st ≠ s.engine.st) :
    Entered s (s.relieved why) .transitionState 0 (s.engine.abortEnded.noticeContent s.engine.st s.engine.abortCause) 1 := by
  let t := ({ s with edit := s.edit.aborting why } : State).clearEditChans.gpiDisarm
  have quiet : Quiet [.chaseState] s t := (Quiet.gpiDisarm _).after ((Quiet.clearEditChans _).after (Quiet.edit s _))
  have engine : t.engine = s.engine := (congrArg State.engine (State.relieved_touched s why).rest :)
  have entered := State.engineAbort_entered t (by rwa [engine])
  rw [engine] at entered
  exact entered.since (quiet.entries _ _ (by decide)) quiet.mask quiet.clock

end

/-! ### The whole abort -/

/-- The abort of s's edit for a reason leads to u. -/
structure Aborted (why : Reason) (s u : State) : Prop where
  quiet : Quiet [.editPhase, .chaseState, .transitionState] s u
  told : AbortEntered s u
  once : PhaseOnce s u
  heard : s.edit.phase = .editing → (∃ d ∈ s.edit.involved, (s.port d).handsOff) →
    u.edit = (s.edit.aborting why).offReleased s.recNow
  unheard : ¬(s.edit.phase = .editing ∧ ∃ d ∈ s.edit.involved, (s.port d).handsOff) → u.edit = { s.edit.aborting why with
    phase := if (u.port s.recorder).standing then s.edit.phase else .release }
  gpi : u.gpi = { s.gpi with sched := [] }
  slots : ∀ d ∈ s.edit.involved,
    (u.port d).seqSlot = { first := none, second := none } ∧ (u.port d).servo = none ∧ (u.port d).pass = none
  busy : ∀ d ∈ s.edit.involved, (u.port d).line ≠ .idle
  item : ∀ d ∈ s.edit.involved, (s.port d).line ≠ .idle → (u.port d).emerg.isSome = true
  replies : ∃ more, u.link.replies = s.link.replies ++ more ∧
    (s.edit.involved.Nodup → more = Safety.passAborted s s.edit.involved)
  port : ∀ d ∈ s.edit.involved,
    s.edit.involved.Nodup ∨ ((s.port d).stopPosted s.fmt s.edit true false).emerg.isSome = true →
    u.port d = if d = s.recorder then ((s.port d).stopPosted s.fmt s.edit true false).windowShut
      else (s.port d).stopPosted s.fmt s.edit true false
  portReleased : ∀ d, d ∉ s.edit.involved → d ≠ s.recorder → s.releases d → u.port d = (s.port d).dropServo
  portKept : ∀ d, d ∉ s.edit.involved → d ≠ s.recorder → ¬s.releases d → u.port d = s.port d
  chaseKept : ∀ d, ¬s.releases d → u.entry .chaseState (Deck.num d) = s.entry .chaseState (Deck.num d)
  chanKept : ∀ d, d ∉ s.edit.involved → ¬s.releases d → u.chan d = s.chan d
  kin : ∀ d, ¬s.releases d → (s.chan d).Kin (u.chan d)
  standing : ∀ d, (u.port d).standing = true → (s.port d).standing = true

/-- The last stage: the window closes, and the phase is RELEASE unless record still stands (R66, R129). -/
def State.abortEnds (s : State) : State :=
  if (s.closeWindow.port s.recorder).standing then s.closeWindow else s.closeWindow.setPhase .release

section
variable (s : State)

theorem State.abortEnds_rest : s.abortEnds = s.closeWindow.phased s.abortEnds.edit s.abortEnds.link.notices := by
  unfold State.abortEnds
  split
  · rfl
  · exact State.setPhase_rest _ _

theorem State.port_abortEnds (d : Deck) :
    s.abortEnds.port d = if d = s.recorder then (s.port d).windowShut else s.port d := by
  have ports : s.abortEnds.port d = s.closeWindow.port d := (congrArg (State.port · d) s.abortEnds_rest :)
  rw [ports, State.closeWindow_eq]
  split
  · next same => rw [same, State.port_setPort]
  · next other => exact State.port_setPort_ne _ _ other

theorem State.chan_abortEnds (d : Deck) : s.abortEnds.chan d = s.chan d := by
  have chans : s.abortEnds.chan d = s.closeWindow.chan d := (congrArg (State.chan · d) s.abortEnds_rest :)
  rw [chans, State.closeWindow_eq]
  rfl

theorem State.standing_closeWindow : (s.closeWindow.port s.recorder).standing = (s.port s.recorder).standing := by
  rw [State.closeWindow_eq, State.port_setPort, Port.standing_windowShut]

theorem State.edit_closeWindow : s.closeWindow.edit = s.edit := by rw [State.closeWindow_eq]; rfl

/-- Where no record stands, the phase is RELEASE. -/
theorem State.abortEnds_edit : s.abortEnds.edit = { s.edit with
    phase := if (s.port s.recorder).standing = true then s.edit.phase else .release } := by
  unfold State.abortEnds
  rw [State.standing_closeWindow]
  split
  · exact State.edit_closeWindow s
  · rw [State.setPhase_edit, State.edit_closeWindow]

theorem Quiet.abortEnds : Quiet [.editPhase] s s.abortEnds := by
  unfold State.abortEnds
  exact .ite (.closeWindow s) ((Quiet.setPhase _ _).after (.closeWindow s))

theorem PhaseOnce.abortEnds {s t : State} (h : PhaseOnce s t) (recNow : t.recNow = s.recNow)
    (mask : t.link.mask = s.link.mask) (clock : t.clock = s.clock) : PhaseOnce s t.abortEnds := by
  have quiet : Quiet [] t t.closeWindow := Quiet.closeWindow t
  have once : PhaseOnce s t.closeWindow := h.kept t.edit_closeWindow (quiet.entries _ _ (by simp))
  unfold State.abortEnds
  split
  · exact once
  · exact once.setPhase (quiet.recNow.trans recNow) (quiet.mask.trans mask) (quiet.clock.trans clock)

end

theorem State.abort_eq {s : State} (takes : s.takesAbort = true) (why : Reason) : s.abort why =
    (s.edit.involved.foldl (fun s d => s.postEmergency d true false) (s.relieved why)).abortEnds := by
  have edit : (s.relieved why).edit = s.edit.aborting why := congrArg State.edit (State.relieved_rest s why)
  have involved : (s.relieved why).edit.involved = s.edit.involved := (congrArg Edit.involved edit :)
  rw [← involved]
  unfold State.abortEnds
  rw [← Quiet.recorder (Quiet.closeWindow (ks := []) _)]
  exact if_pos takes

theorem State.takesAbort_iff (s : State) :
    s.takesAbort = true ↔ s.edit.phase.abortable = true ∧ s.edit.abort = none ∧ s.safeStop = false := by
  simp [State.takesAbort, and_assoc]

theorem State.abort_untaken {s : State} (untaken : s.takesAbort = false) (why : Reason) : s.abort why = s :=
  if_neg (by simp [untaken])

theorem Phase.abortable_ne_release {p : Phase} (abortable : p.abortable = true) : p ≠ .release := by
  rintro rfl
  exact Bool.false_ne_true abortable

section
variable {s : State} (why : Reason)

theorem State.relieved_edit : (s.relieved why).edit = s.edit.aborting why := congrArg State.edit (State.relieved_rest s why)

/-- The sequencer hears of the postings of an abort where one of them hands a RECORD_OFF in EDITING. -/
theorem State.relieved_heard (free : s.safeStop = false)
    (off : s.edit.phase = .editing ∧ ∃ d ∈ s.edit.involved, (s.port d).handsOff) :
    (s.relieved why).heard s.edit.involved =
      ({ s.relieved why with edit := { s.edit.aborting why with stage := .offHanded, offFrame := s.recNow } } :
        State).setPhase .release := by
  obtain ⟨editing, d, mem, hands⟩ := off
  rw [State.heard_off ((Quiet.relieved s why).safeStop.trans free) ⟨d, mem, (State.relieved_handsOff why d).mpr hands⟩,
    State.toldEmergencyOff_heeded (by rw [State.relieved_edit]; exact ⟨editing, rfl⟩), State.relieved_edit,
    (Quiet.relieved s why).recNow]

theorem State.relieved_unheard (noOff : ¬(s.edit.phase = .editing ∧ ∃ d ∈ s.edit.involved, (s.port d).handsOff)) :
    (s.relieved why).heard s.edit.involved = s.relieved why := by
  by_cases editing : s.edit.phase = .editing
  · refine State.heard_none fun d mem hands => noOff ⟨editing, d, mem, (State.relieved_handsOff why d).mp hands⟩
  · refine State.heard_deaf (fun heeds => editing ?_) _
    rw [State.relieved_edit] at heeds
    exact heeds.1

end

/-- An abort that is taken. -/
theorem State.abort_aborted {s : State} (takes : s.takesAbort = true) (why : Reason) : Aborted why s (s.abort why) := by
  obtain ⟨abortable, none, free⟩ := s.takesAbort_iff.mp takes
  let r := s.relieved why
  let p := s.edit.involved.foldl (fun s d => s.postEmergency d true false) r
  have relieved : Quiet [.chaseState, .transitionState] s r := Quiet.relieved s why
  have posted : StopsPosted true false r p s.edit.involved := StopsPosted.foldl r _
  have edit : r.edit = s.edit.aborting why := State.relieved_edit why
  have quiet : Quiet [.editPhase, .chaseState, .transitionState] s p.abortEnds :=
    ((Quiet.abortEnds p).mono (by simp)).after ((posted.quiet.mono (by simp)).after (relieved.mono (by simp)))
  have recorder : p.recorder = s.recorder := posted.quiet.recorder.trans relieved.recorder
  rw [State.abort_eq takes]
  have port {d : Deck} (away : d ∉ s.edit.involved) (other : d ≠ s.recorder) : p.abortEnds.port d = r.port d := by
    rw [State.port_abortEnds, recorder, if_neg other, (posted.kept d away).1]
  have gone {d : Deck} (is : s.releases d) : p.abortEnds.chan d = (s.chan d).cleared s.set.lead := by
    obtain ⟨_, _, _, _, same⟩ := posted.kin d
    rw [State.chan_abortEnds, same (by rw [State.chan_relieved why is]; rfl), State.chan_relieved why is]
  have engine : p.abortEnds.engine = s.engine.abortEnded := by
    rw [State.abortEnds_rest, State.closeWindow_eq]
    exact posted.engine.trans (congrArg State.engine (State.relieved_rest s why))
  have once : PhaseOnce s p.abortEnds := by
    have before : PhaseOnce s r := .inl ⟨by rw [edit]; rfl, relieved.entries _ _ (by decide)⟩
    exact (before.posted relieved.recNow relieved.mask relieved.clock posted).abortEnds
      (posted.quiet.recNow.trans relieved.recNow) (posted.quiet.mask.trans relieved.mask)
      (posted.quiet.clock.trans relieved.clock)
  have after : Quiet [.editPhase] r p.abortEnds := (Quiet.abortEnds p).after posted.quiet
  obtain ⟨more, replies, answered⟩ := posted.replies
  exact {
    quiet := quiet
    told := {
      sources := fun d is => ⟨gone is, (State.relieved_chase why is).kept (after.entries _ _ (by decide))⟩
      engine := engine
      plan := fun moves => (State.relieved_plan why moves).kept (after.entries _ _ (by decide))
      phase := once.entered (Phase.abortable_ne_release abortable) }
    once := once
    chaseKept := fun d isNot => by
      rw [after.entries _ _ (by decide), State.relieved_engine_entry s why (by decide)]
      exact (State.relieved_touched s why).kept _ _ fun e is both => isNot (Deck.num_injective both.2 ▸ is)
    heard := fun editing off => by
      have edit : p.edit = _ := posted.edit.trans (congrArg State.edit (State.relieved_heard why free ⟨editing, off⟩))
      rw [State.abortEnds_edit, edit, State.setPhase_edit]
      simp only [ite_self]
      rfl
    unheard := fun noOff => by
      have edit : p.edit = _ := posted.edit.trans (congrArg State.edit (State.relieved_unheard why noOff))
      rw [State.abortEnds_edit, State.port_abortEnds, recorder, if_pos rfl, Port.standing_windowShut, edit,
        State.relieved_edit]
      rfl
    gpi := by
      rw [State.abortEnds_rest, State.closeWindow_eq]
      exact posted.gpi.trans (congrArg State.gpi (State.relieved_rest s why))
    slots := fun d mem => by
      rw [State.port_abortEnds]
      split
      · rw [Port.windowShut]
        split <;> exact posted.slots d mem
      · exact posted.slots d mem
    busy := fun d mem => by
      rw [State.port_abortEnds]
      split
      · rw [Port.windowShut]
        split <;> exact posted.busy d mem
      · exact posted.busy d mem
    item := fun d mem waits => by
      have item := posted.item d mem (by
        rcases State.port_relieved_or (s := s) why d with same | dropped
        · rwa [same]
        · rwa [dropped])
      rw [State.port_abortEnds]
      split
      · rw [Port.windowShut]
        split <;> exact item
      · exact item
    replies := by
      refine ⟨more, ?_, fun distinct => ?_⟩
      · rw [State.abortEnds_rest, State.closeWindow_eq]
        exact replies.trans (congrArg (fun u : State => u.link.replies ++ more) (State.relieved_rest s why) :)
      · rw [answered distinct, State.passAborted_relieved]
    port := fun d mem how => by
      have exact' := posted.exact d mem (.inl rfl)
      rw [relieved.fmt, State.relieved_stopPosted] at exact'
      rw [State.port_abortEnds, recorder, exact' (how.imp_right fun waits => ⟨rfl, waits⟩)]
    portReleased := fun d away other is => by rw [port away other, State.port_relieved why is]
    portKept := fun d away other isNot => by rw [port away other, State.port_relieved_kept why isNot]
    chanKept := fun d away isNot => by
      rw [State.chan_abortEnds, (posted.kept d away).2, State.chan_relieved_kept why isNot]
    kin := fun d isNot => by
      rw [State.chan_abortEnds, ← State.chan_relieved_kept why isNot]
      exact posted.kin d
    standing := fun d stands => by
      have before := posted.standing d (by
        rw [State.port_abortEnds] at stands
        split at stands
        · rwa [Port.standing_windowShut] at stands
        · exact stands)
      rcases State.port_relieved_or (s := s) why d with same | dropped
      · rwa [same] at before
      · rwa [dropped] at before }

end Sys2Proof.Machine

/-! ## What is read of an abort -/

namespace Sys2Proof.Machine

open Sys2Proof.Safety

namespace Aborted

variable {why : Reason} {s u : State} (h : Aborted why s u)
include h

/-- In either case the edit is the aborted one, but for phase, stage and hand frame. -/
theorem edit_cases : ∃ p x f, u.edit = { s.edit.aborting why with phase := p, stage := x, offFrame := f } := by
  by_cases off : s.edit.phase = .editing ∧ ∃ d ∈ s.edit.involved, (s.port d).handsOff
  · exact ⟨_, _, _, h.heard off.1 off.2⟩
  · exact ⟨_, _, _, h.unheard off⟩

theorem abort : u.edit.abort = some why := by
  obtain ⟨_, _, _, edit⟩ := h.edit_cases
  rw [edit]
  rfl

theorem stops : u.edit.stops = s.edit.involved := by
  obtain ⟨_, _, _, edit⟩ := h.edit_cases
  rw [edit]
  rfl

theorem abortStage : u.edit.abortStage = s.edit.stage := by
  obtain ⟨_, _, _, edit⟩ := h.edit_cases
  rw [edit]
  rfl

theorem abortTold : AbortTold s u := by
  obtain ⟨_, _, _, edit⟩ := h.edit_cases
  exact h.told.told (by rw [edit]; rfl) (by rw [edit]; rfl)

/-- With no record standing the phase is RELEASE. -/
theorem release (clear : (s.port s.recorder).standing = false) : u.edit.phase = .release := by
  by_cases off : s.edit.phase = .editing ∧ ∃ d ∈ s.edit.involved, (s.port d).handsOff
  · rw [h.heard off.1 off.2]
    rfl
  · rw [h.unheard off]
    exact if_neg fun stands => Bool.false_ne_true (clear.symm.trans (h.standing _ stands))

end Aborted

/-! ### With record standing -/

theorem Port.stopPosted_item {p : Port} (noItem : p.emerg = none) (f : SuiteFormat) (e : Edit) (b : Bool) :
    p.stopPosted f e true b = itemPosted p true b := Port.stopPosted_eq_itemPosted noItem f e true b

/-- Where record stands, the item with its RECORD_OFF has its STOP still to come. -/
theorem itemPosted_emerg {p : Port} (stands : p.standing = true) (a b : Bool) : (itemPosted p a b).emerg.isSome = true := by
  by_cases idle : p.line = .idle
  · rw [Laws.itemPosted_standing p a b idle stands]
    rfl
  · rw [Laws.itemPosted_busy p a b idle]
    rfl

/-- Its window is closed, or record still stands. -/
theorem itemPosted_windowShut {p : Port} (stands : p.standing = true) (a b : Bool) :
    (itemPosted p a b).windowShut = itemPosted p a b := by
  by_cases idle : p.line = .idle
  · rw [Laws.itemPosted_standing p a b idle stands]
    exact Port.windowShut_closed rfl
  · rw [Laws.itemPosted_busy p a b idle]
    exact Port.windowShut_standing stands

section
variable {why : Reason} {s u : State} (h : Aborted why s u) (recording : Recording s)
include recording

theorem Recording.takesAbort : s.takesAbort = true := by
  obtain ⟨editing, noAbort, free, _⟩ := recording
  exact s.takesAbort_iff.mpr ⟨by rw [editing]; rfl, noAbort, free⟩

/-- The recorder's line alone can take a RECORD_OFF at once. -/
theorem Recording.handsOff_iff : (∃ d ∈ s.edit.involved, (s.port d).handsOff) ↔ (s.port s.recorder).line = .idle := by
  obtain ⟨_, _, _, involved, stands, others⟩ := recording
  constructor
  · rintro ⟨d, _, idle, off⟩
    simp only [(others d).1] at off
    by_cases same : d = s.recorder
    · rwa [← same]
    · exact absurd off (by rw [(others d).2 same]; exact Bool.false_ne_true)
  · intro idle
    refine ⟨s.recorder, involved, idle, ?_⟩
    simp only [(others s.recorder).1]
    exact stands

include h

theorem Aborted.recordStopped : RecordStopped s u why := by
  obtain ⟨editing, _, _, involved, stands, others⟩ := id recording
  have noItem := (others s.recorder).1
  have port : u.port s.recorder = itemPosted (s.port s.recorder) true false := by
    have exact' := h.port s.recorder involved
    rw [Port.stopPosted_item noItem, if_pos rfl, itemPosted_windowShut stands] at exact'
    exact exact' (.inr (itemPosted_emerg stands _ _))
  refine ⟨port, h.abort, h.stops, h.abortStage, fun busy => ?_, fun idle => ?_⟩
  · have edit := h.unheard fun off => busy ((Recording.handsOff_iff recording).mp off.2)
    have still : (u.port s.recorder).standing = true := by
      rw [port, Laws.itemPosted_busy _ _ _ busy]
      exact stands
    rw [edit, still]
    exact ⟨editing, rfl, rfl⟩
  · rw [h.heard editing ((Recording.handsOff_iff recording).mpr idle)]
    exact ⟨rfl, rfl, rfl⟩

end

end Sys2Proof.Machine

/-! ## The frame start of the sequencer (R116, R118, R122) -/

namespace Sys2Proof.Machine

open Sys2Proof.Safety

/-- s with a frame start of the sequencer taken. -/
def State.seqTaken (s : State) : State := { s with due := { s.due with seq := s.due.seq - 1 } }

/-- The recorder frame that the next frame start of the sequencer reads. -/
def State.startFrameRec (s : State) : Option Nat := s.recFrame (s.startInstant s.due.seq)

theorem State.seqStep_eq (s : State) : s.seqStep = s.seqTaken.phaseTests s.startFrameRec := rfl

/-! ### The tests of a phase -/

section
variable {s : State} {n : Nat} {ev : EventFields} {m : EditMode}

theorem State.phaseTests_still (still : s.edit.phase = .idle ∨ s.edit.phase = .release ∨ s.edit.abort.isSome = true ∨
    s.safeStop = true) (f : Option Nat) : s.phaseTests f = s := by
  unfold State.phaseTests
  split
  · rcases still with idle | release | aborted | stops
    · rw [idle, ite_self]
    · rw [release, ite_self]
    · exact if_pos (.inl aborted)
    · exact if_pos (.inr stops)
  · rfl

variable (active : s.edit.active = some (n, ev)) (mode : s.edit.mode = some m) (noAbort : s.edit.abort = none)
  (free : s.safeStop = false)
include active mode noAbort free

theorem State.phaseTests_cueing (phase : s.edit.phase = .cueing) (f : Option Nat) : s.phaseTests f = s.cueingStep n ev m := by
  simp [State.phaseTests, active, mode, noAbort, free, phase]

theorem State.phaseTests_rolling (phase : s.edit.phase = .rolling) (f : Option Nat) :
    s.phaseTests f = s.rollingStep ev m f := by
  simp [State.phaseTests, active, mode, noAbort, free, phase]

theorem State.phaseTests_editing (phase : s.edit.phase = .editing) (f : Option Nat) :
    s.phaseTests f = s.editingStep ev m f := by
  simp [State.phaseTests, active, mode, noAbort, free, phase]

theorem State.phaseTests_postroll (phase : s.edit.phase = .postroll) (f : Option Nat) :
    s.phaseTests f = s.postrollStep ev f := by
  simp [State.phaseTests, active, mode, noAbort, free, phase]

end

/-! ### The instructions -/

section
variable {s : State} (up : s.asserted = false) (owed : 0 < s.due.seq)
include up owed

theorem exec_sequencerFrameStart : exec .sequencerFrameStart s = .next s.seqStep := by
  rw [show exec .sequencerFrameStart s = execSequencerFrameStart s from rfl, execSequencerFrameStart,
    Laws.running_next s _ up, if_pos owed]

/-- The frame start at which a deadline aborts the edit with a reason, by the instruction of that reason. -/
theorem exec_timeout {c : Instr} {why : Reason} (noAbort : s.edit.abort = none) (last : s.edit.deadline ≤ 1)
    (row : c = .cueTimeout ∧ why = .cueTimeout ∨ c = .rollTimeout ∧ why = .rollTimeout ∨
      c = .outTimeout ∧ why = .outTimeout)
    (aborts : s.seqStep.edit.abort = some why) : exec c s = .next s.seqStep := by
  have step : s.timeoutStep why = s.seqStep := if_pos ⟨owed, noAbort, last, aborts⟩
  rcases row with ⟨rfl, rfl⟩ | ⟨rfl, rfl⟩ | ⟨rfl, rfl⟩
  · exact (Laws.running_next s (State.timeoutStep · .cueTimeout) up).trans (congrArg Host.Outcome.next step)
  · exact (Laws.running_next s (State.timeoutStep · .rollTimeout) up).trans (congrArg Host.Outcome.next step)
  · exact (Laws.running_next s (State.timeoutStep · .outTimeout) up).trans (congrArg Host.Outcome.next step)

theorem exec_postrollTimeout (phase : s.edit.phase = .postroll) (last : s.edit.deadline ≤ 1) :
    exec .postrollTimeout s = .next s.seqStep := by
  rw [show exec .postrollTimeout s = execPostrollTimeout s from rfl, execPostrollTimeout,
    Laws.running_next s _ up, if_pos ⟨owed, phase, last⟩]

end

/-! ### The deadline -/

/-- The edit with its deadline one frame nearer. -/
def Edit.ticked (e : Edit) : Edit := { e with deadline := e.deadline - 1 }

section
variable {s : State}

theorem State.deadlineStep_within (within : 2 ≤ s.edit.deadline) (why : Reason) :
    s.deadlineStep why = { s with edit := s.edit.ticked } := if_neg (by omega)

theorem State.deadlineStep_out (last : s.edit.deadline = 1) (why : Reason) :
    s.deadlineStep why = ({ s with edit := s.edit.ticked } : State).abort why := if_pos (by omega)

end

/-- A recorder frame at or past a point. -/
theorem SuiteFormat.reached_any (k : SuiteFormat) (f : Option Nat) (point : Nat) :
    (f.any fun x => k.reached x point) = true ↔ ∃ x, f = some x ∧ 0 ≤ k.d x point := by
  cases f with
  | none => simp
  | some x => simp [SuiteFormat.reached]

/-! ### CUEING -/

section
variable {s : State}

theorem State.recue_none {d : Deck} (none : s.edit.relocate[d.val] = false) : s.recue d = s :=
  if_neg (by simp [none])

theorem State.recues_none (none : ∀ d : Deck, s.edit.relocate[d.val] = false) (ds : List Deck) :
    ds.foldl State.recue s = s := by
  induction ds with
  | nil => rfl
  | cons d ds ih => rw [List.foldl_cons, State.recue_none (none d), ih]

/-- The judgement of decks in turn marks some of the decks whose LOCATE is acknowledged. -/
theorem State.judgedCued (s : State) (ds : List Deck) : ∃ x,
    ds.foldl State.judgeCued s = { s with edit := { s.edit with cued := x } } ∧
    ∀ d : Deck, s.edit.acked[d.val] = false → x[d.val] = s.edit.cued[d.val] := by
  induction ds generalizing s with
  | nil => exact ⟨_, rfl, fun _ _ => rfl⟩
  | cons d ds ih =>
    rw [List.foldl_cons]
    by_cases judged : s.edit.acked[d.val] = true ∧ (s.port d).parked = true
    · have first : s.judgeCued d = { s with edit := { s.edit with cued := s.edit.cued.set d.val true } } := if_pos judged
      obtain ⟨x, rest, kept⟩ := ih (s.judgeCued d)
      rw [first] at rest kept ⊢
      refine ⟨x, rest, fun e unacked => (kept e unacked).trans ?_⟩
      refine Vector.getElem_set_ne d.isLt e.isLt fun same => ?_
      obtain rfl := Fin.ext same
      exact Bool.false_ne_true (unacked.symm.trans judged.1)
    · have first : s.judgeCued d = s := if_neg judged
      rw [first]
      exact ih s

/-- A frame start at which a deck is not cued yet and nothing is posted again. -/
theorem State.cueingStep_waits (none : ∀ d : Deck, s.edit.relocate[d.val] = false)
    (waits : ∃ d ∈ s.edit.involved, s.edit.cued[d.val] = false ∧ s.edit.acked[d.val] = false) (n : Nat) (ev : EventFields)
    (m : EditMode) : ∃ x, s.cueingStep n ev m =
      ({ s with edit := { s.edit with cued := x } } : State).deadlineStep .cueTimeout := by
  obtain ⟨x, judged, kept⟩ := s.judgedCued s.edit.involved
  obtain ⟨d, mem, uncued, unacked⟩ := waits
  refine ⟨x, ?_⟩
  rw [State.cueingStep]
  dsimp only
  rw [State.recues_none none, judged, if_neg]
  intro all
  have cued := List.all_eq_true.mp all d mem
  exact Bool.false_ne_true ((((kept d unacked).trans uncued).symm).trans cued)

end

/-! ### ROLLING -/

section
variable {s : State} (ev : EventFields) (m : EditMode) (f : Option Nat)

theorem State.replayRecorder_none (none : s.edit.replay = false) : s.replayRecorder = s := by
  have same : ({ s with edit := { s.edit with replay := false } } : State) = s := by rw [← none]
  unfold State.replayRecorder
  simp only [none, Bool.false_and, Bool.false_eq_true, if_false]
  exact same

/-- Past the sync point no PLAY is posted again. -/
theorem State.replayRecorder_unposted (unposted : s.edit.syncPassed = true ∨ s.edit.replay = false) :
    s.replayRecorder = { s with edit := { s.edit with replay := false } } := by
  refine if_neg ?_
  rcases unposted with passed | none
  · simp [passed]
  · simp [none]

theorem State.rollSync_away (away : s.edit.syncPassed = true ∨
    ∀ x, f = some x → s.fmt.d x (s.fmt.addFrames ev.recIn (-(s.edit.margin : Int))) < 0) : s.rollSync ev m f = s := by
  refine if_neg fun ⟨unpassed, reached⟩ => ?_
  rcases away with passed | before
  · exact unpassed passed
  · obtain ⟨x, is, past⟩ := (SuiteFormat.reached_any _ _ _).mp reached
    exact absurd past (not_le.mpr (before x is))

theorem State.rollOn_still (still : f = none ∨ s.edit.syncPassed = false ∨ s.edit.abort.isSome = true) :
    s.rollOn ev m f = s := by
  unfold State.rollOn
  cases f with
  | none => rfl
  | some x =>
    refine if_neg fun ⟨passed, noAbort⟩ => ?_
    rcases still with none | unpassed | aborted
    · exact Option.some_ne_none x none
    · exact Bool.false_ne_true (unpassed.symm.trans passed)
    · rw [Option.isNone_iff_eq_none] at noAbort
      simp [noAbort] at aborted

end

/-- The last part of a frame start in ROLLING: the deadline, or the record-off test where EDITING is entered. -/
def State.rollEnds (s : State) (ev : EventFields) (m : EditMode) (f : Option Nat) : State :=
  if s.edit.abort.isSome then s
  else match s.edit.phase with
    | .rolling => s.deadlineStep .rollTimeout
    | .editing => s.offTest ev m f
    | _ => s

section
variable (s : State) (ev : EventFields) (m : EditMode) (f : Option Nat)

theorem State.rollingStep_eq :
    s.rollingStep ev m f = ((s.replayRecorder.rollSync ev m f).rollOn ev m f).rollEnds ev m f := rfl

variable {s}

theorem State.rollEnds_aborted {why : Reason} (aborted : s.edit.abort = some why) : s.rollEnds ev m f = s :=
  if_pos (by rw [aborted]; rfl)

theorem State.rollEnds_rolling (noAbort : s.edit.abort = none) (phase : s.edit.phase = .rolling) :
    s.rollEnds ev m f = s.deadlineStep .rollTimeout := by simp [State.rollEnds, noAbort, phase]

theorem State.rollEnds_editing (noAbort : s.edit.abort = none) (phase : s.edit.phase = .editing) :
    s.rollEnds ev m f = s.offTest ev m f := by simp [State.rollEnds, noAbort, phase]

end

/-! ### EDITING -/

section
variable {s : State} (ev : EventFields) (m : EditMode) (f : Option Nat)

/-- The record-off test does nothing before its point, and in PERFORM once RECORD_OFF is posted. -/
theorem State.offTest_still (still : ∀ x, f = some x →
    s.fmt.d x (s.fmt.addFrames ev.recOut (-(s.edit.offDelay : Int))) < 0 ∨ (m = .perform ∧ s.edit.offPosted = true)) :
    s.offTest ev m f = s := by
  unfold State.offTest
  split
  · next reached =>
    obtain ⟨x, is, past⟩ := (SuiteFormat.reached_any _ _ _).mp reached
    rcases still x is with before | ⟨rfl, posted⟩
    · exact absurd past (not_le.mpr before)
    · exact if_pos posted
  · rfl

theorem State.editingStep_still (editing : s.edit.phase = .editing) (noAbort : s.edit.abort = none)
    (still : ∀ x, f = some x → s.fmt.d x (s.fmt.addFrames ev.recOut (-(s.edit.offDelay : Int))) < 0 ∨
      (m = .perform ∧ s.edit.offPosted = true)) : s.editingStep ev m f = s.deadlineStep .outTimeout := by
  unfold State.editingStep
  dsimp only
  rw [State.offTest_still ev m f still, if_pos ⟨editing, by rw [noAbort]; rfl⟩]

end

end Sys2Proof.Machine

/-! ## An abort at a later state (R129) -/

namespace Sys2Proof.Machine

open Sys2Proof.Safety

/-- What an abort reads of t, but for the phase and its entry, is what it reads of s. -/
structure AbortBase (s t : State) : Prop where
  sources : t.edit.sources = s.edit.sources
  active : t.edit.active = s.edit.active
  mode : t.edit.mode = s.edit.mode
  chase : t.chase = s.chase
  engine : t.engine = s.engine
  set : t.set = s.set
  clock : t.clock = s.clock
  mask : t.link.mask = s.link.mask
  recNow : t.recNow = s.recNow
  entries : ∀ k n, k ≠ .editPhase → t.entry k n = s.entry k n

theorem AbortBase.trans {s t u : State} (h : AbortBase s t) (k : AbortBase t u) : AbortBase s u where
  sources := k.sources.trans h.sources
  active := k.active.trans h.active
  mode := k.mode.trans h.mode
  chase := k.chase.trans h.chase
  engine := k.engine.trans h.engine
  set := k.set.trans h.set
  clock := k.clock.trans h.clock
  mask := k.mask.trans h.mask
  recNow := k.recNow.trans h.recNow
  entries x n other := (k.entries x n other).trans (h.entries x n other)

section
variable {why : Reason} {s t u : State}

theorem AbortEntered.base (h : AbortEntered t u) (base : AbortBase s t)
    (phase : u.edit.phase = .release → t.edit.phase = s.edit.phase ∧ t.entry .editPhase 0 = s.entry .editPhase 0) :
    AbortEntered s u :=
  h.since base.sources base.chase base.engine base.set base.clock base.mask base.recNow base.entries phase

section
variable (h : Aborted why t u) (base : AbortBase s t)
  (phase : u.edit.phase = .release → t.edit.phase = s.edit.phase ∧ t.entry .editPhase 0 = s.entry .editPhase 0)
include h base phase

/-- What the abort of t tells, as told since s. -/
theorem Aborted.abortTold_since : AbortTold s u := by
  obtain ⟨_, _, _, edit⟩ := h.edit_cases
  exact (h.told.base base phase).told (by rw [edit]; exact base.active) (by rw [edit]; exact base.mode)

/-- A notice of another kind after the abort. -/
theorem Aborted.abortTold_enter {k : NoticeKind} (n : Nat) (c : List Val)
    (other : k ≠ .chaseState ∧ k ≠ .transitionState ∧ k ≠ .editPhase) : AbortTold s (u.enter k n c) := by
  obtain ⟨_, _, _, edit⟩ := h.edit_cases
  have told := h.told.base base phase
  refine AbortEntered.told (told.kept (fun d _ => by simp) (by simp) (fun d _ => ?_) ?_ fun released => ?_)
    (by rw [State.enter_edit, edit]; exact base.active) (by rw [State.enter_edit, edit]; exact base.mode)
  · exact State.entry_enter_ne _ _ fun both => other.1 both.1.symm
  · exact State.entry_enter_ne _ _ fun both => other.2.1 both.1.symm
  · rw [State.enter_edit] at released ⊢
    exact (told.phase released).kept (State.entry_enter_ne _ _ fun both => other.2.2 both.1.symm)

end

theorem recordStopped_enter (h : RecordStopped s u why) (k : NoticeKind) (n : Nat) (c : List Val) :
    RecordStopped s (u.enter k n c) why := by
  simpa only [RecordStopped, State.port_enter, State.enter_edit] using h

end

/-! ## The silence stop (R133, R180) -/

/-- The content of SILENCE_STOP. -/
def State.silenceContent (s : State) : List Val :=
  vCat [[.u 2 s.link.limit, .u 2 ((s.edit.active.map Prod.fst).getD 0)], vOptLab s.recNow]

/-- s with the silence stop of this expiry taken. -/
def State.stopTaking (s : State) : State := { s with link := { s.link with stopTaken := true } }

theorem State.abortBase_stopTaking (s : State) : AbortBase s s.stopTaking :=
  ⟨rfl, rfl, rfl, rfl, rfl, rfl, rfl, rfl, rfl, fun _ _ _ => rfl⟩

section
variable {s : State}

theorem State.silenceCheck_none (none : (s.port s.recorder).standing = false ∨ s.safeStop = true) : s.silenceCheck = s := by
  refine if_neg fun ⟨_, stands, _, free⟩ => ?_
  rcases none with clear | stops
  · exact Bool.false_ne_true (clear.symm.trans stands)
  · exact free stops

/-- A silence stop is due: the timer has expired with record standing, outside a safe stop. -/
structure State.Silent (s : State) : Prop where
  expired : s.link.expired = true
  standing : (s.port s.recorder).standing = true
  untaken : s.link.stopTaken = false
  free : s.safeStop = false

variable (silent : s.Silent)
include silent

theorem State.silenceCheck_stop : s.silenceCheck =
    (s.stopTaking.abort .silence).enter .silenceStop 0 s.silenceContent :=
  if_pos ⟨silent.expired, silent.standing, by simp [silent.untaken], by simp [silent.free]⟩

theorem State.silenceStopped : SilenceStopped s s.silenceCheck := by
  have quiet : Quiet [.editPhase, .chaseState, .transitionState] s.stopTaking (s.stopTaking.abort .silence) := by
    cases takes : s.stopTaking.takesAbort with
    | true => exact (State.abort_aborted takes .silence).quiet
    | false =>
      rw [State.abort_untaken takes]
      exact .refl _
  rw [State.silenceCheck_stop silent]
  refine ⟨?_, ?_, ?_⟩
  · rw [State.enter_link, quiet.link]
    exact silent.expired
  · rw [State.enter_link, quiet.link]
    rfl
  · exact Entered.told (Entered.first (quiet.entries _ _ (by decide)) quiet.mask quiet.clock)

/-- With no abort to take the stop is told, and that is all. -/
theorem State.silenceCheck_untaken (untaken : s.takesAbort = false) : s.silenceCheck =
    s.stopTaking.enter .silenceStop 0 s.silenceContent := by
  rw [State.silenceCheck_stop silent, State.abort_untaken (s := s.stopTaking) untaken]

/-- The abort of a silence stop. -/
theorem State.silenceCheck_aborted (takes : s.takesAbort = true) :
    ∃ a, Aborted .silence s.stopTaking a ∧ s.silenceCheck = a.enter .silenceStop 0 s.silenceContent :=
  ⟨_, State.abort_aborted (s := s.stopTaking) takes .silence, State.silenceCheck_stop silent⟩

end

/-- A silence stop at a later state of the same step. -/
theorem silenceStopped_since {ks : List NoticeKind} {s t u : State} (quiet : Quiet ks s t) (silent : .silenceStop ∉ ks)
    (active : t.edit.active = s.edit.active) (h : SilenceStopped t u) : SilenceStopped s u := by
  obtain ⟨expired, taken, told⟩ := h
  refine ⟨expired, taken, fun unmasked => ?_⟩
  have entry : toldBefore t .silenceStop 0 = toldBefore s .silenceStop 0 := by
    rw [toldBefore_eq, toldBefore_eq, quiet.entries _ _ silent]
  have told := told (by rwa [Link.masked, quiet.mask])
  rw [entry, quiet.clock, quiet.recNow, active, quiet.link] at told
  exact told

/-! ### The hand after the expiry -/

/-- s with the expiry of the silence timer as given. -/
def State.withExpired (s : State) (b : Bool) : State := { s with link := { s.link with expired := b } }

section
variable (s : State) (b : Bool)

theorem State.edit_withExpired : (s.withExpired b).edit = s.edit := rfl

theorem State.setPhase_withExpired (p : Phase) : (s.withExpired b).setPhase p = (s.setPhase p).withExpired b := by
  by_cases same : s.edit.phase = p
  · rw [State.setPhase_same same, State.setPhase_same (s := s.withExpired b) same]
  · rw [State.setPhase_new same, State.setPhase_new (s := s.withExpired b) same, State.enter_eq, State.enter_eq]
    rfl

theorem State.toldRecordOff_withExpired : (s.withExpired b).toldRecordOff = s.toldRecordOff.withExpired b :=
  State.setPhase_withExpired { s with edit := { s.edit with
    stage := .offHanded, offFrame := s.recNow, deadline := s.edit.postroll + 25
    warns := { s.edit.warns with lateOut := s.edit.warns.lateOut || s.lateOff s.recNow } } } b .postroll

theorem State.toldEmergencyOff_withExpired : (s.withExpired b).toldEmergencyOff = s.toldEmergencyOff.withExpired b := by
  by_cases heeds : s.edit.heedsOff
  · rw [State.toldEmergencyOff_heeded heeds, State.toldEmergencyOff_heeded (s := s.withExpired b) heeds]
    exact State.setPhase_withExpired { s with edit := { s.edit with stage := .offHanded, offFrame := s.recNow } } b .release
  · rw [State.toldEmergencyOff_deaf heeds, State.toldEmergencyOff_deaf (s := s.withExpired b) heeds]

theorem State.toldSequencer_withExpired (c : DeckCmd) :
    (s.withExpired b).toldSequencer c = (s.toldSequencer c).withExpired b := by
  cases c with
  | recordOn tracks kind =>
    rw [State.toldSequencer_on, State.toldSequencer_on, State.edit_withExpired]
    by_cases heeds : s.edit.phase = .rolling ∨ s.edit.phase = .editing
    · rw [if_pos heeds, if_pos heeds]
      rfl
    · rw [if_neg heeds, if_neg heeds]
  | recordOff =>
    rw [State.toldSequencer_off, State.toldSequencer_off, State.edit_withExpired]
    by_cases heeds : s.edit.phase = .editing
    · rw [if_pos heeds, if_pos heeds, State.toldRecordOff_withExpired]
    · rw [if_neg heeds, if_neg heeds]
  | _ => rfl

theorem State.toldChannel_withExpired (d : Deck) (gen : Nat) (c : DeckCmd) :
    (s.withExpired b).toldChannel d gen c = (s.toldChannel d gen c).withExpired b := by
  unfold State.toldChannel
  dsimp only
  by_cases acts : (s.chan d).gen = gen ∧ (s.chan d).active = true
  · rw [if_pos acts, if_pos (show ((s.withExpired b).chan d).gen = gen ∧ ((s.withExpired b).chan d).active = true from acts)]
    cases c <;> rfl
  · rw [if_neg acts,
      if_neg (show ¬(((s.withExpired b).chan d).gen = gen ∧ ((s.withExpired b).chan d).active = true) from acts)]

theorem State.told_withExpired (d : Deck) (x : Flight) : (s.withExpired b).told d x = (s.told d x).withExpired b := by
  cases safe : s.safeStop with
  | true => rw [State.told_safe s d safe, State.told_safe (s.withExpired b) d safe]
  | false =>
    rw [State.told_free _ d safe, State.told_free (s.withExpired b) d safe]
    cases x.origin with
    | sequencer => exact State.toldSequencer_withExpired s b _
    | servo gen loc => exact State.toldChannel_withExpired s b d gen _
    | emergencyOff => exact State.toldEmergencyOff_withExpired s b
    | _ => rfl

theorem State.handLine_withExpired (d : Deck) : (s.withExpired b).handLine d = (s.handLine d).withExpired b := by
  by_cases idle : (s.port d).line = .idle
  · cases picked : (s.port d).pick with
    | none => rw [State.handLine_none idle picked, State.handLine_none (s := s.withExpired b) idle picked]
    | some found =>
      obtain ⟨x, q⟩ := found
      rw [State.handLine_picked idle picked, State.handLine_picked (s := s.withExpired b) idle picked]
      exact State.told_withExpired (s.setPort d (q.sending s.fmt _)) b d _
  · rw [State.handLine_busy idle, State.handLine_busy (s := s.withExpired b) idle]

end

/-- The hand after the expiry: that of a running timer, and then the silence stop. -/
theorem State.hand_expired {s : State} (expired : s.link.expired = true) (d : Deck) :
    s.hand d = (((s.withExpired false).hand d).withExpired true).silenceCheck := by
  have same : (s.withExpired false).withExpired true = s := by
    rw [← expired]
    rfl
  rw [State.hand_running (s := s.withExpired false) rfl, ← State.handLine_withExpired, same]
  rfl

end Sys2Proof.Machine

/-! ## RECORD_ON and RECORD_OFF of the sequencer (R63, R120, R122) -/

namespace Sys2Proof.Machine

open Sys2Proof.Safety

/-- The edit once RECORD_ON is handed at a recorder frame. -/
def Edit.onSent (e : Edit) (f : Option Nat) : Edit := { e with stage := .onHanded, onFrame := f }

/-- The port once it has taken a RECORD_ON of the sequencer. -/
def Port.onSent (p : Port) (f : SuiteFormat) (tracks : BitVec 5) (kind : EditKind) (x : Option DeckCmd) : Port := { p with
  line := .sending, flight := some ⟨.recordOn tracks kind, .sequencer⟩, tx := (DeckCmd.recordOn tracks kind).frame f
  fresh := false, standing := true, seqSlot := { first := none, second := x } }

/-- The port once it has taken a RECORD_OFF of the sequencer. -/
def Port.offSent (p : Port) : Port := { p with
  line := .sending, flight := some ⟨.recordOff, .sequencer⟩, tx := [2, 0x31, 0x33], fresh := false, standing := false
  quiet := false, hold := p.quiet || p.hold, seqSlot := { first := none, second := none } }

section
variable {s : State} {d : Deck} (free : s.safeStop = false) (idle : (s.port d).line = .idle)
  (noItem : (s.port d).emerg = none) (enabled : (s.port d).presence ≠ .disabled)
include free idle noItem enabled

theorem State.handLine_recordOn {tracks : BitVec 5} {kind : EditKind} {x : Option DeckCmd}
    (slot : (s.port d).seqSlot = { first := some (.recordOn tracks kind), second := x })
    (heeds : s.edit.phase = .rolling ∨ s.edit.phase = .editing) : s.handLine d =
      ({ s with edit := s.edit.onSent s.recNow } : State).setPort d ((s.port d).onSent s.fmt tracks kind x) := by
  have port : ({ s.port d with seqSlot := { first := none, second := x } } : Port).sending s.fmt
      ⟨(s.port d).clampSpeed (.recordOn tracks kind), .sequencer⟩ = (s.port d).onSent s.fmt tracks kind x := by
    rw [show (s.port d).clampSpeed (.recordOn tracks kind) = .recordOn tracks kind from rfl, Port.sending_on, Port.sends,
      Port.onSent]
    simp only [DeckCmd.isSense, Bool.and_false]
  rw [State.handLine_sequencer idle noItem enabled (.inl ⟨congrArg SeqItem.first slot, congrArg SeqItem.second slot⟩), port]
  have told := ((s.setPort d ((s.port d).onSent s.fmt tracks kind x)).toldSequencer_on tracks kind).trans (if_pos heeds)
  refine (State.told_free (s.setPort d _) d free _).trans (told.trans ?_)
  have recNow : (s.setPort d ((s.port d).onSent s.fmt tracks kind x)).recNow = s.recNow :=
    (Quiet.setPort (ks := []) s d ((s.port d).onSent s.fmt tracks kind x) rfl).recNow
  rw [State.toldRecordOn, recNow]
  rfl

theorem State.handLine_recordOff (slot : (s.port d).seqSlot = { first := some .recordOff, second := none })
    (heeds : s.edit.phase = .editing) : s.handLine d = (s.setPort d (s.port d).offSent).toldRecordOff := by
  have port : ({ s.port d with seqSlot := { first := none, second := none } } : Port).sending s.fmt
      ⟨(s.port d).clampSpeed .recordOff, .sequencer⟩ = (s.port d).offSent := by
    rw [show (s.port d).clampSpeed .recordOff = .recordOff from rfl, Port.sending_off, Port.recordEnds, Port.sends,
      Port.offSent,
      DeckCmd.frame_recordOff]
    simp only [DeckCmd.isSense, Bool.and_false]
  rw [State.handLine_sequencer idle noItem enabled (.inl ⟨congrArg SeqItem.first slot, congrArg SeqItem.second slot⟩), port]
  have told := (s.setPort d (s.port d).offSent).toldSequencer_off.trans (if_pos heeds)
  exact (State.told_free (s.setPort d _) d free _).trans told

end

/-! ### Postings to the SEQUENCER slot (R63) -/

section
variable {s : State} {d : Deck}

/-- The port with a command more in its SEQUENCER slot. -/
def Port.seqPut (p : Port) (c : DeckCmd) : Port := { p with seqSlot := p.seqSlot.post c }

theorem State.putSeq_eq (s : State) (d : Deck) (c : DeckCmd) : s.putSeq d c = s.setPort d ((s.port d).seqPut c) := rfl

theorem Port.seqPut_empty {p : Port} (empty : p.seqSlot = { first := none, second := none }) (c : DeckCmd) :
    p.seqPut c = { p with seqSlot := { first := some c, second := none } } := by
  rw [Port.seqPut, empty]
  rfl

theorem Port.seqPut_behind {p : Port} {a : DeckCmd} (slot : p.seqSlot = { first := some a, second := none }) (c : DeckCmd) :
    p.seqPut c = { p with seqSlot := { first := some a, second := some c } } := by
  rw [Port.seqPut, slot]
  rfl

theorem Port.seqPut_full {p : Port} {a : Option DeckCmd} {b : DeckCmd} (slot : p.seqSlot = { first := a, second := some b })
    (c : DeckCmd) : p.seqPut c = { p with seqSlot := { first := a, second := some c } } := by
  rw [Port.seqPut, slot]
  cases a <;> rfl

/-- On a busy line the command waits. -/
theorem State.postSeq_busy (running : s.link.expired = false) (busy : (s.port d).line ≠ .idle) (c : DeckCmd) :
    s.postSeq d c = s.setPort d ((s.port d).seqPut c) := by
  rw [State.postSeq, State.hand_running (s := s.putSeq d c) running, State.handLine_busy]
  · rfl
  · rw [State.putSeq_eq, State.port_setPort]
    exact busy

section
variable (first : SeqFirst (s.port d)) {c : DeckCmd} (transport : c.isTransport = true) (fixed : ∀ v, c ≠ .varispeed v)
include first transport fixed

/-- A command other than a RECORD command, posted to an empty slot, comes first on its port. -/
theorem State.putSeq_first : (s.putSeq d c).handLine d = s.setPort d (seqPosted (s.port d) s.fmt c) := by
  obtain ⟨empty, above⟩ := first
  obtain ⟨noSense, plain⟩ := c.isTransport_iff.mp transport
  have same : (s.port d).clampSpeed c = c := (s.port d).clampSpeed_fixed fixed
  have here : (s.putSeq d c).port d = { s.port d with seqSlot := { first := some c, second := none } } := by
    rw [State.putSeq_eq, State.port_setPort, Port.seqPut_empty empty]
  by_cases idle : (s.port d).line = .idle
  · obtain ⟨noItem, enabled⟩ := above idle
    have back : ({ s.port d with seqSlot := { first := none, second := none } } : Port) = s.port d := by rw [← empty]
    have clamped : ({ s.port d with seqSlot := { first := some c, second := none } } : Port).clampSpeed c = c := same
    rw [State.handLine_plain (s := s.putSeq d c) (c := c) (x := none) (by rw [here]; exact idle) (by rw [here]; exact noItem)
        (by rw [here]; exact enabled) (by rw [here]; exact .inl ⟨rfl, rfl⟩) plain,
      here, clamped, State.putSeq_eq, State.setPort_setPort, seqPosted, if_pos idle]
    refine congrArg (s.setPort d) ?_
    rw [back, Port.sends, noSense, Bool.and_false]
    rfl
  · rw [State.handLine_busy (by rw [here]; exact idle), State.putSeq_eq, Port.seqPut_empty empty, seqPosted, if_neg idle]

theorem State.postSeq_first (running : s.link.expired = false) :
    s.postSeq d c = s.setPort d (seqPosted (s.port d) s.fmt c) := by
  rw [State.postSeq, State.hand_running (s := s.putSeq d c) running, State.putSeq_first first transport fixed]

end

end

/-! ### The record-on point (R120) -/

section
variable {s : State} (ev : EventFields)

/-- The edit once EDITING is entered, but for its phase. -/
def Edit.outDue (e : Edit) (n : Nat) : Edit := { e with deadline := n }

theorem State.enterEditing_eq (s : State) (ev : EventFields) :
    s.enterEditing ev = ({ s with edit := s.edit.outDue (s.fmt.span ev.recIn ev.recOut + 25) } : State).setPhase .editing := rfl

section
variable (empty : (s.port s.recorder).seqSlot = { first := none, second := none })
include empty

/-- RECORD_ON, posted to an empty slot of an IDLE line, is handed at once. -/
theorem State.postRecordOn_idle (free : s.safeStop = false) (idle : (s.port s.recorder).line = .idle)
    (noItem : (s.port s.recorder).emerg = none) (enabled : (s.port s.recorder).presence ≠ .disabled)
    (rolling : s.edit.phase = .rolling) : s.postRecordOn ev =
      ((({ s with edit := s.edit.onSent s.recNow } : State).setPort s.recorder
        ((s.port s.recorder).onSent s.fmt ev.tracks ev.kind none)).enterEditing ev).silenceCheck := by
  let t := s.putSeq s.recorder (.recordOn ev.tracks ev.kind)
  have here : t.port s.recorder =
      { s.port s.recorder with seqSlot := { first := some (.recordOn ev.tracks ev.kind), second := none } } := by
    rw [show t = _ from State.putSeq_eq s _ _, State.port_setPort, Port.seqPut_empty empty]
  have handed := State.handLine_recordOn (s := t) (d := s.recorder) (x := none) free (by rw [here]; exact idle)
    (by rw [here]; exact noItem) (by rw [here]; exact enabled) (congrArg Port.seqSlot here) (.inl rolling)
  have recNow : t.recNow = s.recNow := (Quiet.putSeq s _ _).recNow
  rw [here, recNow] at handed
  rw [State.postRecordOn]
  rw [handed]
  refine congrArg (fun u : State => (u.enterEditing ev).silenceCheck) ?_
  exact State.setPort_setPort { s with edit := s.edit.onSent s.recNow } s.recorder
    ((s.port s.recorder).seqPut (.recordOn ev.tracks ev.kind)) _

/-- On a busy line it waits. -/
theorem State.postRecordOn_busy (busy : (s.port s.recorder).line ≠ .idle) : s.postRecordOn ev =
    ((s.setPort s.recorder { s.port s.recorder with
      seqSlot := { first := some (.recordOn ev.tracks ev.kind), second := none } }).enterEditing ev).silenceCheck := by
  rw [State.postRecordOn]
  rw [State.handLine_busy (s := s.putSeq _ _) (by rw [State.putSeq_eq, State.port_setPort]; exact busy), State.putSeq_eq,
    Port.seqPut_empty empty]

end

variable {m : EditMode} {x : Nat}

theorem State.rollOn_passed (passed : s.edit.syncPassed = true) (noAbort : s.edit.abort = none) :
    s.rollOn ev m (some x) = match m with
      | .perform => s.recordOnTest ev x
      | .preview => s.previewOn ev x
      | .review => s.previewOn ev x := if_pos ⟨passed, by rw [noAbort]; rfl⟩

section
variable (early : s.fmt.d x (s.fmt.addFrames ev.recIn (-(s.edit.onDelay : Int))) < 0)
include early

theorem State.recordOnTest_early : s.recordOnTest ev x = s := if_pos early

theorem State.previewOn_early : s.previewOn ev x = s :=
  if_neg fun reached => absurd (of_decide_eq_true reached) (not_le.mpr early)

end

section
variable (reached : 0 ≤ s.fmt.d x (s.fmt.addFrames ev.recIn (-(s.edit.onDelay : Int))))
include reached

theorem State.recordOnTest_intime (intime : s.fmt.d x ev.recIn < 0 ∨ (s.edit.onDelay = 0 ∧ s.fmt.d x ev.recIn = 0)) :
    s.recordOnTest ev x = s.postRecordOn ev :=
  (if_neg (not_lt.mpr reached)).trans (if_pos intime)

theorem State.recordOnTest_missed (late : ¬(s.fmt.d x ev.recIn < 0 ∨ (s.edit.onDelay = 0 ∧ s.fmt.d x ev.recIn = 0))) :
    s.recordOnTest ev x = s.abort .missedPoint :=
  (if_neg (not_lt.mpr reached)).trans (if_neg late)

theorem State.previewOn_reached : s.previewOn ev x = s.enterEditing ev := if_pos (decide_eq_true reached)

end

end

/-! ### The frame start in ROLLING -/

/-- s with a frame start taken in ROLLING, and no PLAY to be posted again. -/
def State.rollTaken (s : State) : State := { s.seqTaken with edit := { s.edit with replay := false } }

/-- s with a RECORD_ON handed to the recorder, and EDITING entered. -/
def State.recordOnTaken (s : State) (ev : EventFields) : State :=
  (({ s with edit := s.edit.onSent s.recNow } : State).setPort s.recorder
    ((s.port s.recorder).onSent s.fmt ev.tracks ev.kind none)).enterEditing ev

section
variable (s : State) (ev : EventFields)

theorem State.edit_recordOnTaken : (s.recordOnTaken ev).edit =
    { (s.edit.onSent s.recNow).outDue (s.fmt.span ev.recIn ev.recOut + 25) with phase := .editing } :=
  State.setPhase_edit _ _

theorem Quiet.recordOnTaken : Quiet [.editPhase] s (s.recordOnTaken ev) :=
  (Quiet.setPhase _ _).after ((Quiet.edit _ _).after ((Quiet.setPort { s with edit := s.edit.onSent s.recNow }
    s.recorder ((s.port s.recorder).onSent s.fmt ev.tracks ev.kind none) rfl).after (Quiet.edit s (s.edit.onSent s.recNow))))

theorem State.recordOnTaken_rest : s.recordOnTaken ev =
    (s.setPort s.recorder ((s.port s.recorder).onSent s.fmt ev.tracks ev.kind none)).phased (s.recordOnTaken ev).edit
      (s.recordOnTaken ev).link.notices := State.setPhase_rest _ _

theorem State.gpi_recordOnTaken : (s.recordOnTaken ev).gpi = s.gpi := by
  rw [State.recordOnTaken_rest]
  rfl

theorem State.port_recordOnTaken : (s.recordOnTaken ev).port s.recorder =
    (s.port s.recorder).onSent s.fmt ev.tracks ev.kind none := by
  rw [State.recordOnTaken_rest]
  exact State.port_setPort s _ _

theorem State.port_recordOnTaken_ne {d : Deck} (other : d ≠ s.recorder) : (s.recordOnTaken ev).port d = s.port d := by
  rw [State.recordOnTaken_rest]
  exact State.port_setPort_ne s _ other

/-- What an abort reads once RECORD_ON is handed. -/
theorem State.abortBase_recordOnTaken : AbortBase s (s.recordOnTaken ev) where
  sources := by rw [State.edit_recordOnTaken]; rfl
  active := by rw [State.edit_recordOnTaken]; rfl
  mode := by rw [State.edit_recordOnTaken]; rfl
  chase := by rw [State.recordOnTaken_rest]; rfl
  engine := by rw [State.recordOnTaken_rest]; rfl
  set := (Quiet.recordOnTaken s ev).set
  clock := (Quiet.recordOnTaken s ev).clock
  mask := (Quiet.recordOnTaken s ev).mask
  recNow := (Quiet.recordOnTaken s ev).recNow
  entries k n other := (Quiet.recordOnTaken s ev).entries k n (by simpa using other)

/-- The edit records, once RECORD_ON is handed. -/
theorem State.recording_recordOnTaken (free : s.safeStop = false) (noAbort : s.edit.abort = none)
    (involved : s.recorder ∈ s.edit.involved)
    (clear : ∀ d, (s.port d).emerg = none ∧ (s.port d).standing = false) : Recording (s.recordOnTaken ev) := by
  have quiet := Quiet.recordOnTaken s ev
  rw [Recording, State.edit_recordOnTaken, quiet.recorder, quiet.safeStop]
  refine ⟨rfl, noAbort, free, involved, by rw [State.port_recordOnTaken]; rfl, fun d => ?_⟩
  by_cases same : d = s.recorder
  · rw [same, State.port_recordOnTaken]
    exact ⟨(clear _).1, fun other => absurd rfl other⟩
  · rw [State.port_recordOnTaken_ne s ev same]
    exact ⟨(clear d).1, fun _ => (clear d).2⟩

end

section
variable {s : State} {n : Nat} {ev : EventFields} {m : EditMode} (free : s.safeStop = false)
  (active : s.edit.active = some (n, ev)) (mode : s.edit.mode = some m) (noAbort : s.edit.abort = none)
include free active mode noAbort

/-- A frame start in ROLLING. -/
theorem State.seqStep_rolling (phase : s.edit.phase = .rolling) : s.seqStep =
    ((s.seqTaken.replayRecorder.rollSync ev m s.startFrameRec).rollOn ev m s.startFrameRec).rollEnds ev m s.startFrameRec := by
  rw [State.seqStep_eq, State.phaseTests_rolling (s := s.seqTaken) active mode noAbort free phase, State.rollingStep_eq]

theorem State.seqStep_unposted (phase : s.edit.phase = .rolling)
    (unposted : s.edit.syncPassed = true ∨ s.edit.replay = false) : s.seqStep =
    ((s.rollTaken.rollSync ev m s.startFrameRec).rollOn ev m s.startFrameRec).rollEnds ev m s.startFrameRec := by
  rw [State.seqStep_rolling free active mode noAbort phase, State.replayRecorder_unposted (s := s.seqTaken) unposted]
  rfl

end

end Sys2Proof.Machine

/-! ## O36: deadlines and the silence timer -/

namespace Sys2Proof.Machine

open Sys2Proof.Safety

section
variable {s : State} {n : Nat} {ev : EventFields} {m : EditMode} (free : s.safeStop = false)
  (active : s.edit.active = some (n, ev)) (mode : s.edit.mode = some m) (noAbort : s.edit.abort = none)
include free active mode noAbort

/-- The frame start at which the deadline of CUEING runs out. -/
theorem State.seqStep_cueTimeout (phase : s.edit.phase = .cueing) (last : s.edit.deadline = 1)
    (none : ∀ d : Deck, s.edit.relocate[d.val] = false)
    (waits : ∃ d ∈ s.edit.involved, s.edit.cued[d.val] = false ∧ s.edit.acked[d.val] = false) :
    ∃ x, s.seqStep = ({ s.seqTaken with edit := { s.edit with cued := x }.ticked } : State).abort .cueTimeout := by
  obtain ⟨x, step⟩ := State.cueingStep_waits (s := s.seqTaken) none waits n ev m
  refine ⟨x, ?_⟩
  rw [State.seqStep_eq, State.phaseTests_cueing (s := s.seqTaken) active mode noAbort free phase, step,
    State.deadlineStep_out (by exact last)]
  rfl

/-- The frame start at which the deadline of EDITING runs out. -/
theorem State.seqStep_outTimeout (phase : s.edit.phase = .editing) (last : s.edit.deadline = 1)
    (still : ∀ x, s.startFrameRec = some x → s.fmt.d x (s.fmt.addFrames ev.recOut (-(s.edit.offDelay : Int))) < 0 ∨
      (m = .perform ∧ s.edit.offPosted = true)) :
    s.seqStep = ({ s.seqTaken with edit := s.edit.ticked } : State).abort .outTimeout := by
  rw [State.seqStep_eq, State.phaseTests_editing (s := s.seqTaken) active mode noAbort free phase,
    State.editingStep_still (s := s.seqTaken) ev m _ phase noAbort still, State.deadlineStep_out (by exact last)]
  rfl

/-- The frame start at which the deadline of ROLLING runs out without a recorder position. -/
theorem State.seqStep_rollTimeout (phase : s.edit.phase = .rolling) (noReplay : s.edit.replay = false)
    (last : s.edit.deadline = 1) (lost : s.startFrameRec = none) :
    s.seqStep = ({ s.seqTaken with edit := s.edit.ticked } : State).abort .rollTimeout := by
  rw [State.seqStep_rolling free active mode noAbort phase, State.replayRecorder_none (s := s.seqTaken) noReplay, lost,
    State.rollSync_away ev m none (.inr (by simp)), State.rollOn_still ev m none (.inl rfl),
    State.rollEnds_rolling (s := s.seqTaken) _ _ _ noAbort phase, State.deadlineStep_out (by exact last)]
  rfl

end

/-- s at the frame start at which a deadline runs out, some decks judged cued. -/
def State.lapsed (s : State) (x : Vector Bool 6) : State := { s.seqTaken with edit := { s.edit with cued := x }.ticked }

theorem State.abortBase_lapsed (s : State) (x : Vector Bool 6) : AbortBase s (s.lapsed x) :=
  ⟨rfl, rfl, rfl, rfl, rfl, rfl, rfl, rfl, rfl, fun _ _ _ => rfl⟩

theorem State.abortTold_lapsed {s u : State} {x : Vector Bool 6} {why : Reason} (h : Aborted why (s.lapsed x) u) :
    AbortTold s u := h.abortTold_since (s.abortBase_lapsed x) fun _ => ⟨rfl, rfl⟩

/-- SILENCE_TIMEOUT when the limit has passed. -/
theorem exec_silenceTimeout {s : State} {t : Time} (up : s.asserted = false) (running : s.link.expired = false)
    (due : s.link.restartAt + ms s.link.limit ≤ t) :
    exec (.silenceTimeout t) s = .next ((s.tick t).withExpired true).silenceCheck := by
  have both : ¬(s.tick t).link.expired = true ∧ (s.tick t).link.restartAt + ms (s.tick t).link.limit ≤ t :=
    ⟨by rw [show (s.tick t).link.expired = s.link.expired from rfl, running]; exact Bool.false_ne_true, due⟩
  rw [show exec (.silenceTimeout t) s = execSilenceTimeout t s from rfl, execSilenceTimeout, Laws.timed_next s t _ up,
    if_pos both]
  rfl

section
variable {v : State}

theorem State.abortBase_expired (v : State) : AbortBase v (v.withExpired true).stopTaking :=
  ⟨rfl, rfl, rfl, rfl, rfl, rfl, rfl, rfl, rfl, fun _ _ _ => rfl⟩

section
variable (stands : (v.port v.recorder).standing = true) (untaken : v.link.stopTaken = false) (free : v.safeStop = false)
include stands untaken free

theorem State.silent_expired : (v.withExpired true).Silent := ⟨rfl, stands, untaken, free⟩

/-- The expiry with no abort to take is told, and that is all. -/
theorem State.expiry_untaken (noAbort : ¬(v.edit.phase.abortable = true ∧ v.edit.abort = none)) :
    SilenceStopped v (v.withExpired true).silenceCheck ∧ (v.withExpired true).silenceCheck.edit = v.edit ∧
      (v.withExpired true).silenceCheck.ports = v.ports := by
  have silent := State.silent_expired stands untaken free
  have refuses : (v.withExpired true).takesAbort = false := Bool.eq_false_iff.mpr fun takes =>
    let ⟨abortable, clear, _⟩ := (State.takesAbort_iff _).mp takes
    noAbort ⟨abortable, clear⟩
  refine ⟨State.silenceStopped silent, ?_, ?_⟩
  · rw [State.silenceCheck_untaken silent refuses, State.enter_edit]
    rfl
  · rw [State.silenceCheck_untaken silent refuses, State.enter_ports]
    rfl

/-- The expiry aborts the edit. -/
theorem State.expiry_aborts (abortable : v.edit.phase.abortable = true) (noAbort : v.edit.abort = none) :
    SilenceStopped v (v.withExpired true).silenceCheck ∧ AbortTold v (v.withExpired true).silenceCheck ∧
      (v.withExpired true).silenceCheck.list = v.list ∧
      ∃ a c, Aborted .silence (v.withExpired true).stopTaking a ∧
        (v.withExpired true).silenceCheck = a.enter .silenceStop 0 c := by
  have silent := State.silent_expired stands untaken free
  have stopped := State.silenceStopped silent
  obtain ⟨a, h, check⟩ := State.silenceCheck_aborted silent ((State.takesAbort_iff _).mpr ⟨abortable, noAbort, free⟩)
  rw [check] at stopped ⊢
  refine ⟨stopped, h.abortTold_enter (State.abortBase_expired v) (fun _ => ⟨rfl, rfl⟩) _ _ (by decide), ?_, a, _, h, rfl⟩
  rw [State.enter_list, h.quiet.list]
  rfl

end

/-- The expiry while the edit records. -/
theorem State.expiry_recording (recording : Recording v) (untaken : v.link.stopTaken = false) :
    SilenceStopped v (v.withExpired true).silenceCheck ∧ RecordStopped v (v.withExpired true).silenceCheck .silence ∧
      AbortTold v (v.withExpired true).silenceCheck ∧ (v.withExpired true).silenceCheck.list = v.list := by
  obtain ⟨editing, noAbort, free, _, stands, _⟩ := id recording
  obtain ⟨stopped, told, list, a, c, h, check⟩ := State.expiry_aborts stands untaken free (by rw [editing]; rfl) noAbort
  refine ⟨stopped, ?_, told, list⟩
  have taken : Recording (v.withExpired true).stopTaking := recording
  rw [check]
  exact recordStopped_enter (h.recordStopped taken) _ _ _

end

/-- The silence stop at the hand of RECORD_ON, after the expiry. -/
theorem State.recordOn_silenced {t : State} (ev : EventFields) (expired : t.link.expired = true)
    (untaken : t.link.stopTaken = false) (free : t.safeStop = false) (noAbort : t.edit.abort = none)
    (involved : t.recorder ∈ t.edit.involved) (clear : ∀ d, (t.port d).emerg = none ∧ (t.port d).standing = false) :
    let u := (t.recordOnTaken ev).silenceCheck
    SilenceStopped t u ∧
      u.port t.recorder = itemWaits ((t.port t.recorder).onSent t.fmt ev.tracks ev.kind none) true false ∧
      u.edit = { t.edit with
        phase := .editing, stage := .onHanded, onFrame := t.recNow, abort := some .silence, abortStage := .onHanded
        stops := t.edit.involved, deadline := t.fmt.span ev.recIn ev.recOut + 25 } ∧
      AbortTold t u ∧ u.gpi = { t.gpi with sched := [] } ∧ u.list = t.list := by
  let w := t.recordOnTaken ev
  have quiet : Quiet [.editPhase] t w := Quiet.recordOnTaken t ev
  have port : w.port w.recorder = (t.port t.recorder).onSent t.fmt ev.tracks ev.kind none := by
    rw [quiet.recorder, State.port_recordOnTaken]
  have busy : (w.port w.recorder).line ≠ .idle := by rw [port]; exact LineState.noConfusion
  have recording : Recording w := State.recording_recordOnTaken t ev free noAbort involved clear
  obtain ⟨editing, none, freeW, _, stands, _⟩ := id recording
  have silent : w.Silent := ⟨by rw [quiet.link]; exact expired, stands, by rw [quiet.link]; exact untaken, freeW⟩
  have stopped := State.silenceStopped silent
  obtain ⟨a, h, check⟩ := State.silenceCheck_aborted silent (Recording.takesAbort recording)
  have taken : Recording w.stopTaking := recording
  have portA : a.port w.recorder = itemPosted (w.port w.recorder) true false := (h.recordStopped taken).1
  rw [Laws.itemPosted_busy _ _ _ busy, port] at portA
  have edit := h.unheard fun off => busy ((Recording.handsOff_iff taken).mp off.2)
  have still : (a.port w.stopTaking.recorder).standing = true := by
    rw [show a.port w.stopTaking.recorder = _ from portA]
    rfl
  rw [still, if_pos rfl, show w.stopTaking.edit = w.edit from rfl, State.edit_recordOnTaken] at edit
  dsimp only
  rw [check] at stopped ⊢
  refine ⟨silenceStopped_since quiet (by decide) (by rw [State.edit_recordOnTaken]; rfl) stopped, ?_, ?_,
    h.abortTold_enter ((t.abortBase_recordOnTaken ev).trans w.abortBase_stopTaking) (fun released => ?_) _ _ (by decide), ?_,
    ?_⟩
  · rw [State.port_enter, ← portA, quiet.recorder]
  · rw [State.enter_edit, edit]
    rfl
  · rw [edit] at released
    exact Phase.noConfusion released
  · rw [State.enter_gpi, h.gpi, show w.stopTaking.gpi = t.gpi from t.gpi_recordOnTaken ev]
  · rw [State.enter_list, h.quiet.list]
    exact quiet.list

end Sys2Proof.Machine

namespace Sys2Proof.Proofs

open Sys2Proof.Machine Sys2Proof.Safety

/-- Settles O36: each deadline and each silence stop is an abort of the edit at one state, and what an abort does is known. -/
theorem deadlinesAndSilenceAbortTheEdit : Obligations.DeadlinesAndSilenceAbortTheEdit := by
  refine ⟨?deadlines, ?standing, ?silence, ?hand, ?recordOn⟩
  case deadlines =>
    intro s n ev m c why up owed free active mode noAbort last noReplay clear off row
    obtain ⟨x, step, abortable, instr⟩ : ∃ x, s.seqStep = (s.lapsed x).abort why ∧ s.edit.phase.abortable = true ∧
        (c = .cueTimeout ∧ why = .cueTimeout ∨ c = .rollTimeout ∧ why = .rollTimeout ∨
          c = .outTimeout ∧ why = .outTimeout) := by
      rcases row with ⟨rfl, rfl, cueing, none, waits⟩ | ⟨rfl, rfl, rolling, lost⟩ | ⟨rfl, rfl, editing, still⟩
      · obtain ⟨x, step⟩ := State.seqStep_cueTimeout free active mode noAbort cueing last none waits
        exact ⟨x, step, by rw [cueing]; rfl, .inl ⟨rfl, rfl⟩⟩
      · exact ⟨s.edit.cued, State.seqStep_rollTimeout free active mode noAbort rolling noReplay last lost,
          by rw [rolling]; rfl, .inr (.inl ⟨rfl, rfl⟩)⟩
      · exact ⟨s.edit.cued, State.seqStep_outTimeout free active mode noAbort editing last still,
          by rw [editing]; rfl, .inr (.inr ⟨rfl, rfl⟩)⟩
    have h := State.abort_aborted (s := s.lapsed x) ((s.lapsed x).takesAbort_iff.mpr ⟨abortable, noAbort, free⟩) why
    have done := exec_timeout up owed noAbort (by omega) instr (step ▸ h.abort)
    rw [step] at done
    exact ⟨_, done, h.abort, h.release clear, h.stops, h.abortStage, h.gpi, State.abortTold_lapsed h, h.quiet.list,
      h.quiet.readers, h.quiet.set⟩
  case standing =>
    intro s n ev m up owed recording active mode last still
    obtain ⟨editing, noAbort, free, _⟩ := id recording
    have step : s.seqStep = (s.lapsed s.edit.cued).abort .outTimeout :=
      State.seqStep_outTimeout free active mode noAbort editing last still
    have lapsed : Recording (s.lapsed s.edit.cued) := recording
    have h := State.abort_aborted (Recording.takesAbort lapsed) .outTimeout
    have done := exec_timeout up owed noAbort (by omega) (.inr (.inr ⟨rfl, rfl⟩)) (step ▸ h.abort)
    rw [step] at done
    exact ⟨_, done, h.recordStopped lapsed, h.gpi, State.abortTold_lapsed h, h.quiet.list, h.quiet.readers, h.quiet.set⟩
  case silence =>
    intro s t up running due
    have done := exec_silenceTimeout up running due
    refine ⟨fun none => ?_,
      fun stands untaken free noAbort => ⟨_, done, State.expiry_untaken (v := s.tick t) stands untaken free noAbort⟩,
      fun stands untaken free abortable noAbort => ?_, fun recording untaken => ?_⟩
    · rw [done, State.silenceCheck_none (s := (s.tick t).withExpired true) none]
      rfl
    · obtain ⟨stopped, told, list, a, c, h, check⟩ := State.expiry_aborts (v := s.tick t) stands untaken free abortable noAbort
      refine ⟨_, done, ?_, ?_, stopped, list, told⟩
      · rw [check, State.enter_edit, h.abort]
      · rw [check, State.enter_edit, h.stops]
        rfl
    · have still : Recording (s.tick t) := recording
      obtain ⟨stopped, record, told, list⟩ := State.expiry_recording still untaken
      exact ⟨_, done, record, stopped, list, told⟩
  case hand =>
    intro s d expired untaken free v
    have quiet : Quiet [.editPhase] (s.withExpired false) v := by
      rw [show v = (s.withExpired false).handLine d from State.hand_running (s := s.withExpired false) rfl d]
      exact Quiet.handLine _ d
    have hand : s.hand d = (v.withExpired true).silenceCheck := State.hand_expired expired d
    clear_value v
    have recorder : v.recorder = s.recorder := quiet.recorder
    have freeV : v.safeStop = false := quiet.safeStop.trans free
    have untakenV : v.link.stopTaken = false := by
      rw [quiet.link]
      exact untaken
    rw [hand, ← recorder]
    refine ⟨fun clear => State.silenceCheck_none (s := v.withExpired true) (.inl clear),
      fun stands noAbort => State.expiry_untaken stands untakenV freeV noAbort, fun recording => ?_⟩
    obtain ⟨stopped, record, told, list⟩ := State.expiry_recording recording untakenV
    exact ⟨stopped, record, told, list.trans quiet.list⟩
  case recordOn =>
    intro s n x ev up owed expired untaken free e p active mode noAbort rolling passed involved at' reached intime clear enabled
      empty on idle
    let t := s.rollTaken
    have rolled : (t.rollSync ev .perform (some x)).rollOn ev .perform (some x) = (t.recordOnTaken ev).silenceCheck := by
      rw [State.rollSync_away (s := t) ev _ _ (.inl passed), State.rollOn_passed (s := t) ev passed noAbort]
      refine (State.recordOnTest_intime (s := t) ev reached intime).trans ?_
      exact State.postRecordOn_idle (s := t) ev empty free idle (clear _).1 enabled rolling
    obtain ⟨stopped, port, edit, told, gpi, list⟩ :=
      State.recordOn_silenced (t := t) ev expired untaken free noAbort involved clear
    have step : s.seqStep = (t.recordOnTaken ev).silenceCheck := by
      rw [State.seqStep_unposted free active mode noAbort rolling (.inl passed), show s.startFrameRec = some x from at', rolled,
        State.rollEnds_aborted _ _ _ (congrArg Edit.abort edit)]
    have done := exec_sequencerFrameStart up owed
    rw [step] at done
    refine ⟨_, done, stopped, port.trans (congrArg (itemWaits · true false) ?_), edit, told, gpi, list⟩
    rw [Port.onSent, ← empty]
    rfl

end Sys2Proof.Proofs

/-! ## ALL_STOP: what follows the abort (R132, R146, R147) -/

namespace Sys2Proof.Machine

open Sys2Proof.Safety

/-! ### The channels of the link (R92) -/

/-- A channel of the link that is cleared, where it is not IDLE. -/
def Channel.linkCleared (c : Channel) (lead : Nat) : Channel := if c.st = .idle then c else c.cleared lead

/-- Its slave's port: free, and without a waiting command of the channel. -/
def Port.linkFreed (p : Port) (c : Channel) : Port := { (if c.st = .idle then p else p.dropServo) with claim := .free }

/-- Its CHASE_STATE entry. -/
def Channel.linkNotice (c : Channel) (lead : Nat) (why : ChaseCause) : Option (List Val) :=
  if c.st = .idle then none else some ((c.cleared lead).noticeContent c.st why)

section
variable {s : State} {d : Deck}

theorem State.clearLink_touch (link : (s.chan d).owner = some .link) (why : ChaseCause) : s.clearLink d why =
    s.touch d ((s.port d).linkFreed (s.chan d)) ((s.chan d).linkCleared s.set.lead) ((s.chan d).linkNotice s.set.lead why) := by
  unfold Channel.linkCleared Port.linkFreed Channel.linkNotice
  by_cases idle : (s.chan d).st = .idle
  · simp only [if_pos idle, State.clearLink, if_pos link, State.clearChan_idle idle]
    exact (State.setChan_chan (s.setPort d { s.port d with claim := .free }) d).symm
  · simp only [if_neg idle]
    exact State.clearLink_active link idle why

theorem State.clearLink_other (other : (s.chan d).owner ≠ some .link) (why : ChaseCause) : s.clearLink d why = s :=
  if_neg other

/-- A channel that is cleared already stays. -/
theorem State.clearLink_again {p : Port} {c : Channel} (lead : Nat) (port : s.port d = p.linkFreed c)
    (chan : s.chan d = c.linkCleared lead) (why : ChaseCause) : s.clearLink d why = s := by
  by_cases link : (s.chan d).owner = some .link
  · have idle : (s.chan d).st = .idle := by
      rw [chan, Channel.linkCleared]
      split
      · next idle => exact idle
      · rfl
    have free : ({ s.port d with claim := .free } : Port) = s.port d := by rw [port]; rfl
    rw [State.clearLink, if_pos link, State.clearChan_idle idle, State.setClaim, free, State.setPort_port]
  · exact State.clearLink_other link why

/-- The channels of the link are cleared deck by deck. -/
theorem State.clearLinks_touched (s : State) (why : ChaseCause) : Touched (fun d => (s.port d).linkFreed (s.chan d))
    (fun d => (s.chan d).linkCleared s.set.lead) (fun d => (s.chan d).linkNotice s.set.lead why)
    (fun d => (s.chan d).owner = some .link) s (decks.foldl (fun s d => s.clearLink d why) s) := by
  refine (Touched.foldl (hit := fun d => (s.chan d).owner = some .link) (move := fun s d => s.clearLink d why) ?_ ?_
    (.refl s fun _ => id) decks).congr fun d => ?_
  · intro t on d reached _ new link
    have port := reached.portKept d new
    have chan := reached.chanKept d new
    have set : t.set = s.set := by rw [reached.rest]; rfl
    rw [State.clearLink_touch (by rw [chan]; exact link), port, chan, set]
  · intro t on d reached _ none
    by_cases touched : on d
    · exact State.clearLink_again s.set.lead (reached.port d touched) (reached.chan d touched) why
    · exact State.clearLink_other (by rw [reached.chanKept d touched]; exact none.resolve_left touched) why
  · simp [mem_decks]

/-- What of a port the clearing changes. -/
theorem Port.linkFreed_eq (p : Port) (c : Channel) : ∃ x, p.linkFreed c = { p with servo := x, claim := .free } ∧
    (p.servo = none → x = none) := by
  unfold Port.linkFreed
  split
  · exact ⟨p.servo, rfl, id⟩
  · exact ⟨p.dropServo.servo, rfl, fun none => by rw [Port.dropServo, none]; rfl⟩

end

/-! ### The postings (R62, R132) -/

/-- The decks on which ALL_STOP posts: those PRESENT whose item the abort has not posted. -/
def State.stopDecks (s : State) (joined : List Deck) : List Deck :=
  decks.filter fun d => (s.port d).presence == .present && !joined.contains d

theorem State.mem_stopDecks {s : State} {joined : List Deck} {d : Deck} :
    d ∈ s.stopDecks joined ↔ (s.port d).presence = .present ∧ d ∉ joined := by
  simp [State.stopDecks, mem_decks]

theorem State.nodup_stopDecks (s : State) (joined : List Deck) : (s.stopDecks joined).Nodup :=
  List.Nodup.filter _ (by decide)

theorem State.stopAll_eq (s : State) (joined : List Deck) : s.stopAll joined =
    (s.stopDecks joined).foldl (fun s d => s.postEmergency d false false) s := by
  have turn (ds : List Deck) (t : State) (same : ∀ d, (t.port d).presence = (s.port d).presence) :
      ds.foldl (fun s d => if (s.port d).presence = .present ∧ d ∉ joined then s.postEmergency d false false else s) t =
        (ds.filter fun d => (s.port d).presence == .present && !joined.contains d).foldl
          (fun s d => s.postEmergency d false false) t := by
    induction ds generalizing t with
    | nil => rfl
    | cons d ds ih =>
      rw [List.foldl_cons, same d]
      by_cases posts : (s.port d).presence = .present ∧ d ∉ joined
      · rw [if_pos posts, List.filter_cons_of_pos (by simpa using posts), List.foldl_cons]
        exact ih _ fun e => ((Quiet.postEmergency t d false false).presence e).trans (same e)
      · rw [if_neg posts, List.filter_cons_of_neg (by simpa using posts)]
        exact ih t same
  exact turn decks s fun _ => rfl

/-! ### The run (R146, R147) -/

section
variable {s : State} (why : RunReason)

theorem State.endRun_inactive (inactive : s.run.active = false) : s.endRun why = s := if_neg (by simp [inactive])

theorem State.endRun_active (active : s.run.active = true) : s.endRun why =
    ({ s with run := { s.run with st := .ended, hold := none } } : State).enter .runState 0
      (({ s.run with st := .ended, hold := none } : Run).noticeContent s.run.st why) := if_pos active

theorem State.endRun_rest (s : State) (why : RunReason) : s.endRun why =
    { s with run := (s.endRun why).run, link := { s.link with notices := (s.endRun why).link.notices } } := by
  cases active : s.run.active with
  | false =>
    rw [State.endRun_inactive why active]
  | true =>
    rw [State.endRun_active why active, State.enter_run, State.enter_link, State.enter_eq]
    rfl

theorem State.entry_endRun {k : NoticeKind} (other : k ≠ .runState) (n : Nat) : (s.endRun why).entry k n = s.entry k n := by
  cases active : s.run.active with
  | false => rw [State.endRun_inactive why active]
  | true =>
    rw [State.endRun_active why active]
    exact State.entry_enter_ne _ _ fun both => other both.1

end

/-! ### All of it -/

/-- What ALL_STOP does after the abort, on the decks whose items the abort has not posted. -/
def State.allStopped (s : State) (joined : List Deck) : State :=
  ((decks.foldl (fun s d => s.clearLink d .cleared) s).stopAll joined).endRun .allStop

/-- ALL_STOP leads on from s to u. -/
structure AllStopped (joined : List Deck) (s u : State) : Prop where
  edit : u.edit = (s.heard (s.stopDecks joined)).edit
  once : ∀ r : State, PhaseOnce r s → s.recNow = r.recNow → s.link.mask = r.link.mask → s.clock = r.clock → PhaseOnce r u
  engine : u.engine = s.engine
  gpi : u.gpi = s.gpi
  list : u.list = s.list
  readers : u.readers = s.readers
  replies : u.link.replies = s.link.replies ++ Safety.passAborted s (s.stopDecks joined)
  chan : ∀ d, (s.chan d).owner = some .link → (s.chan d).st ≠ .idle → u.chan d = (s.chan d).cleared s.set.lead ∧
    Entered s u .chaseState (Deck.num d) (((s.chan d).cleared s.set.lead).noticeContent (s.chan d).st .cleared) 1
  chanIdle : ∀ d, (s.chan d).st = .idle → u.chan d = s.chan d
  claim : ∀ d, (s.chan d).owner = some .link → (u.port d).claim = .free
  port : ∀ d, d ∉ s.stopDecks joined → (s.chan d).owner ≠ some .link → u.port d = s.port d
  portLink : ∀ d, d ∉ s.stopDecks joined → ∃ x y, u.port d = { s.port d with servo := x, claim := y } ∧
    ((s.port d).servo = none → x = none)
  slots : ∀ d ∈ s.stopDecks joined,
    (u.port d).seqSlot = { first := none, second := none } ∧ (u.port d).servo = none ∧ (u.port d).pass = none
  item : ∀ d ∈ s.stopDecks joined, (s.port d).line ≠ .idle → (u.port d).emerg.isSome = true
  exact : ∀ d ∈ s.stopDecks joined, ¬s.edit.heedsOff ∨ (∀ e ∈ s.stopDecks joined, ¬(s.port e).handsOff) →
    u.port d = { (s.port d).stopPosted s.fmt s.edit false false with
      claim := if (s.chan d).owner = some .link then .free else (s.port d).claim }
  run : s.run.active = true → u.run = { s.run with st := .ended, hold := none } ∧
    Entered s u .runState 0 (u.run.noticeContent s.run.st .allStop) 1
  runInactive : s.run.active = false → u.run = s.run
  chaseKept : ∀ d, (s.chan d).owner ≠ some .link → u.entry .chaseState (Deck.num d) = s.entry .chaseState (Deck.num d)
  planKept : ∀ n, u.entry .transitionState n = s.entry .transitionState n

/-- The recorder's position now, from what it reads. -/
theorem State.recNow_congr {s t : State} (fmt : t.fmt = s.fmt) (ref : t.ref = s.ref) (readers : t.readers = s.readers)
    (recorder : t.recorder = s.recorder) (flags : ∀ d, (t.port d).flags = (s.port d).flags) : t.recNow = s.recNow := by
  have moving (d : Deck) : (t.port d).moving = (s.port d).moving := by simp only [Port.moving, Port.flag, flags]
  have reader (d : Deck) : t.reader d = s.reader d := by rw [State.reader, readers, State.reader]
  have extrap (d : Deck) (i : Nat) : t.extrap d i = s.extrap d i := by simp only [State.extrap, reader, fmt, moving]
  have house : t.house = s.house := by rw [State.house, fmt, ref, State.house]
  simp only [State.recNow, State.recFrame, State.extrapFrame, extrap, recorder, house, fmt]

/-- The claim of a port, and a command of its channel, change nothing of a posting but the claim. -/
theorem Port.stopPosted_claim (p : Port) (x : Option ServoCmd) (y : Claim) (f : SuiteFormat) (e : Edit) (a b : Bool) :
    ({ p with servo := x, claim := y } : Port).stopPosted f e a b = { p.stopPosted f e a b with claim := y } := by
  let w := p.withEmergency e a b
  have item : ({ p with servo := x, claim := y } : Port).withEmergency e a b = { w with claim := y } := rfl
  obtain ⟨⟨off, o, t⟩, emerg⟩ : ∃ i, w.emerg = some i := ⟨_, rfl⟩
  rw [Port.stopPosted, Port.stopPosted, item]
  by_cases idle : w.line = .idle
  · cases off with
    | true => rw [Port.handed_off (p := w) idle emerg, Port.handed_off (p := { w with claim := y }) idle emerg]
    | false => rw [Port.handed_stop (p := w) idle emerg, Port.handed_stop (p := { w with claim := y }) idle emerg]
  · rw [Port.handed_busy (p := w) idle, Port.handed_busy (p := { w with claim := y }) idle]

section
variable {s c p : State} (cleared : Touched (fun d => (s.port d).linkFreed (s.chan d))
  (fun d => (s.chan d).linkCleared s.set.lead) (fun d => (s.chan d).linkNotice s.set.lead .cleared)
  (fun d => (s.chan d).owner = some .link) s c)
include cleared

theorem Touched.linkPort (d : Deck) : ∃ x y, c.port d = { s.port d with servo := x, claim := y } ∧
    ((s.port d).servo = none → x = none) ∧ y = if (s.chan d).owner = some .link then .free else (s.port d).claim := by
  by_cases link : (s.chan d).owner = some .link
  · obtain ⟨x, freed, servo⟩ := (s.port d).linkFreed_eq (s.chan d)
    exact ⟨x, .free, (cleared.port d link).trans freed, servo, (if_pos link).symm⟩
  · exact ⟨_, _, cleared.portKept d link, id, (if_neg link).symm⟩

theorem AllStopped.of_stages {joined : List Deck} (posted : StopsPosted false false c p (s.stopDecks joined)) :
    AllStopped joined s (p.endRun .allStop) := by
  let ds := s.stopDecks joined
  have rest := cleared.rest
  have fmt : c.fmt = s.fmt := (congrArg State.fmt rest :)
  have edit : c.edit = s.edit := (congrArg State.edit rest :)
  have link : c.link = { s.link with notices := c.link.notices } := (congrArg State.link rest :)
  have safe : c.safeStop = s.safeStop := by rw [State.safeStop, link, State.safeStop]
  have clock : c.clock = s.clock := (congrArg State.clock rest :)
  have readers : c.readers = s.readers := (congrArg State.readers rest :)
  have run : c.run = s.run := (congrArg State.run rest :)
  have hands (d : Deck) : (c.port d).handsOff ↔ (s.port d).handsOff := by
    obtain ⟨x, y, port, _⟩ := cleared.linkPort d
    rw [port]
    exact Iff.rfl
  have recNow : c.recNow = s.recNow := by
    refine State.recNow_congr fmt (congrArg State.ref rest :) readers ?_ fun d => ?_
    · rw [State.recorder, link, State.recorder]
    · obtain ⟨x, y, port, _⟩ := cleared.linkPort d
      rw [port]
  have heard : (c.heard ds).edit = (s.heard ds).edit := by
    have same : (c.safeStop = false ∧ ∃ d ∈ ds, (c.port d).handsOff) ↔
        (s.safeStop = false ∧ ∃ d ∈ ds, (s.port d).handsOff) := by
      simp only [hands, safe]
    by_cases off : s.safeStop = false ∧ ∃ d ∈ ds, (s.port d).handsOff
    · obtain ⟨free, hands⟩ := same.mpr off
      rw [State.heard_off free hands, State.heard_off off.1 off.2]
      by_cases heeds : s.edit.heedsOff
      · rw [State.toldEmergencyOff_edit (by rwa [edit]), State.toldEmergencyOff_edit heeds, edit, recNow]
      · rw [State.toldEmergencyOff_deaf (by rwa [edit]), State.toldEmergencyOff_deaf heeds, edit]
    · rw [State.heard, if_neg (mt same.mp off), State.heard, if_neg off, edit]
  have ended := State.endRun_rest p .allStop
  have ports (d : Deck) : (p.endRun .allStop).port d = p.port d := (congrArg (State.port · d) ended :)
  have chans (d : Deck) : (p.endRun .allStop).chan d = p.chan d := (congrArg (State.chan · d) ended :)
  have still {d : Deck} (inactive : (c.chan d).active = false) : p.chan d = c.chan d := (posted.kin d).2.2.2.2 inactive
  have line (d : Deck) : (c.port d).line = (s.port d).line := by
    obtain ⟨x, y, port, _⟩ := cleared.linkPort d
    rw [port]
  obtain ⟨more, replies, answered⟩ := posted.replies
  exact {
    edit := by rw [show (p.endRun .allStop).edit = p.edit from (congrArg State.edit ended :), posted.edit, heard]
    once := fun r before rec mask clock' => by
      have maskC : c.link.mask = s.link.mask := by rw [link]
      have onC : PhaseOnce r c := before.kept edit (cleared.kept _ _ fun d _ both => NoticeKind.noConfusion both.1)
      refine (onC.posted (recNow.trans rec) (maskC.trans mask) (clock.trans clock') posted).kept
        (congrArg State.edit ended :) (State.entry_endRun _ (by decide) _)
    engine := by
      rw [show (p.endRun .allStop).engine = p.engine from (congrArg State.engine ended :), posted.engine]
      exact (congrArg State.engine rest :)
    gpi := by
      rw [show (p.endRun .allStop).gpi = p.gpi from (congrArg State.gpi ended :), posted.gpi]
      exact (congrArg State.gpi rest :)
    list := by
      rw [show (p.endRun .allStop).list = p.list from (congrArg State.list ended :), posted.quiet.list]
      exact (congrArg State.list rest :)
    readers := by
      rw [show (p.endRun .allStop).readers = p.readers from (congrArg State.readers ended :), posted.quiet.readers]
      exact readers
    replies := by
      have waiting : Safety.passAborted c ds = Safety.passAborted s ds := List.flatMap_congr fun d _ => by
        obtain ⟨x, y, port, _⟩ := cleared.linkPort d
        rw [port]
      rw [show (p.endRun .allStop).link.replies = p.link.replies from (congrArg (fun u : State => u.link.replies) ended :),
        replies, answered (s.nodup_stopDecks joined), waiting, link]
    chan := fun d linked moves => by
      have chan : c.chan d = (s.chan d).cleared s.set.lead := (cleared.chan d linked).trans (if_neg moves)
      refine ⟨by rw [chans, still (by rw [chan]; rfl), chan], ?_⟩
      refine ((cleared.told d _ linked (if_neg moves)).kept (posted.quiet.entries _ _ (by decide))).kept ?_
      exact State.entry_endRun _ (by decide) _
    chanIdle := fun d idle => by
      have chan : c.chan d = s.chan d := by
        by_cases linked : (s.chan d).owner = some .link
        · exact (cleared.chan d linked).trans (if_pos idle)
        · exact cleared.chanKept d linked
      rw [chans, still (by rw [chan]; simp [Channel.active, idle]), chan]
    claim := fun d linked => by
      rw [ports, posted.quiet.claim, cleared.port d linked]
      rfl
    port := fun d away other => by rw [ports, (posted.kept d away).1, cleared.portKept d other]
    portLink := fun d away => by
      obtain ⟨x, y, port, servo, _⟩ := cleared.linkPort d
      exact ⟨x, y, by rw [ports, (posted.kept d away).1, port], servo⟩
    slots := fun d mem => by
      rw [ports]
      exact posted.slots d mem
    item := fun d mem busy => by
      rw [ports]
      exact posted.item d mem (by rwa [line])
    exact := fun d mem silent => by
      have how : ¬c.edit.heedsOff ∨ ∀ e ∈ ds, ¬(c.port e).handsOff := by
        rw [edit]
        exact silent.imp_right fun none e mem => mt (hands e).mp (none e mem)
      obtain ⟨x, y, port, _, owner⟩ := cleared.linkPort d
      rw [ports, posted.exact d mem (.inr how) (.inl (s.nodup_stopDecks joined)), fmt, edit, port, Port.stopPosted_claim, owner]
    run := fun active => by
      have active' : p.run.active = true := by rw [posted.quiet.run, run, active]
      rw [State.endRun_active _ active', State.enter_run, posted.quiet.run, run]
      refine ⟨rfl, Entered.first ?_ ?_ ?_⟩
      · exact (State.entry_congr rfl _ _).trans ((posted.quiet.entries _ _ (by decide)).trans
          (cleared.kept _ _ fun d _ both => NoticeKind.noConfusion both.1))
      · exact posted.quiet.mask.trans (by rw [link])
      · exact posted.quiet.clock.trans clock
    runInactive := fun inactive => by
      rw [State.endRun_inactive _ (by rw [posted.quiet.run, run, inactive]), posted.quiet.run, run]
    chaseKept := fun d other => by
      rw [State.entry_endRun _ (by decide), posted.quiet.entries _ _ (by decide)]
      exact cleared.kept _ _ fun e linked both => other (Deck.num_injective both.2 ▸ linked)
    planKept := fun n => by
      rw [State.entry_endRun _ (by decide), posted.quiet.entries _ _ (by decide)]
      exact cleared.kept _ _ fun e linked both => NoticeKind.noConfusion both.1 }

end

theorem State.allStopped_all (s : State) (joined : List Deck) : AllStopped joined s (s.allStopped joined) := by
  let c := decks.foldl (fun s d => s.clearLink d .cleared) s
  have cleared := s.clearLinks_touched .cleared
  have same : c.stopDecks joined = s.stopDecks joined := by
    refine List.filter_congr fun d _ => ?_
    obtain ⟨x, y, port, _⟩ := cleared.linkPort d
    rw [port]
  rw [State.allStopped, State.stopAll_eq, same]
  exact AllStopped.of_stages cleared (StopsPosted.foldl c _)

end Sys2Proof.Machine

/-! ## O37: ABORT and ALL_STOP -/

namespace Sys2Proof.Machine

open Sys2Proof.Safety

theorem State.abortBase_answered (s : State) (r : Request) (x : Result) (v : List Val) : AbortBase s (answered s r x v) :=
  ⟨rfl, rfl, rfl, rfl, rfl, rfl, rfl, rfl, rfl, fun _ _ _ => rfl⟩

section
variable {s : State} {r : Request}

theorem exec_abortEdit (taken : Takes s 0x2A r) : exec .abortEdit s = .next (
    if s.edit.phase = .idle then answered s r .wrongState [] else (answered s r .ok []).abort .aborted) := by
  rw [← Laws.refuse_dropHead, ← show s.dropHead.ok r [] = answered s r .ok [] from Laws.ok_dropHead s r [],
    show exec .abortEdit s = execAbortEdit s from rfl, execAbortEdit]
  exact takeRequest_done taken rfl

theorem exec_allStop (taken : Takes s 0x2B r) : exec .allStop s = .next
    (((answered s r .ok []).abort .allStop).allStopped (if s.takesAbort = true then s.edit.involved else [])) := by
  rw [← show s.dropHead.ok r [] = answered s r .ok [] from Laws.ok_dropHead s r [],
    show exec .allStop s = execAllStop s from rfl, execAllStop]
  exact takeRequest_done taken rfl

end

/-- Postings change phase, stage and hand frame of the edit at most. -/
theorem State.heard_edit_cases (s : State) (ds : List Deck) :
    ∃ p x f, (s.heard ds).edit = { s.edit with phase := p, stage := x, offFrame := f } := by
  unfold State.heard
  split
  · by_cases heeds : s.edit.heedsOff
    · exact ⟨_, _, _, State.toldEmergencyOff_edit heeds⟩
    · rw [State.toldEmergencyOff_deaf heeds]
      exact ⟨_, _, _, rfl⟩
  · exact ⟨_, _, _, rfl⟩

section
variable {why : Reason} {s a u : State} {joined : List Deck} (h : Aborted why s a) (k : AllStopped joined a u)
  (open' : s.edit.phase ≠ .release)
include h k open'

/-- What the abort of ALL_STOP tells stands at its end. -/
theorem AllStopped.abortEntered : AbortEntered s u := by
  refine h.told.kept (fun d is => ?_) k.engine (fun d is => ?_) (k.planKept 0) ?_
  · exact k.chanIdle d (by rw [(h.told.sources d is).1]; rfl)
  · refine k.chaseKept d ?_
    rw [(h.told.sources d is).1]
    exact fun link => Option.some_ne_none _ link.symm
  · exact (k.once s h.once h.quiet.recNow h.quiet.mask h.quiet.clock).entered open'

theorem AllStopped.abortTold {r : State} (base : AbortBase r s) (phase : s.edit.phase = r.edit.phase)
    (entry : s.entry .editPhase 0 = r.entry .editPhase 0) : AbortTold r u := by
  obtain ⟨_, _, _, edit⟩ := h.edit_cases
  obtain ⟨_, _, _, heard⟩ := a.heard_edit_cases (a.stopDecks joined)
  refine ((k.abortEntered h open').base base fun _ => ⟨phase, entry⟩).told ?_ ?_
  · rw [k.edit, heard, edit]
    exact base.active
  · rw [k.edit, heard, edit]
    exact base.mode

end

/-- In IDLE and RELEASE, and with an abort taken, no abort is taken. -/
theorem State.takesAbort_none {s : State}
    (untaken : s.edit.phase = .idle ∨ s.edit.phase = .release ∨ s.edit.abort.isSome = true) :
    s.takesAbort = false := Bool.eq_false_iff.mpr fun takes => by
  obtain ⟨abortable, noAbort, _⟩ := (State.takesAbort_iff _).mp takes
  rcases untaken with idle | release | aborted
  · rw [idle] at abortable
    exact Bool.false_ne_true abortable
  · exact Phase.abortable_ne_release abortable release
  · rw [noAbort] at aborted
    exact Bool.false_ne_true aborted

theorem Port.releaseStop_none {p : Port} {e : Edit}
    (none : e.phase = .release → p.seqSlot.first ≠ some .stop ∧ p.seqSlot.second ≠ some .stop) : p.releaseStop e = false := by
  by_cases release : e.phase = .release
  · obtain ⟨first, second⟩ := none release
    simp [Port.releaseStop, first, second]
  · simp [Port.releaseStop, release]

/-- An item that nobody awaits joins the one that waits. -/
theorem Port.withEmergency_joined {p : Port} {e : Edit} {i : EmergItem} (item : p.emerg = some i)
    (plain : p.releaseStop e = false) : p.withEmergency e false false =
      { p with seqSlot := { first := none, second := none }, servo := none, pass := none } := by
  simp only [Port.withEmergency, item, plain, Bool.or_false]

theorem Quiet.stopDecks {ks : List NoticeKind} {s t : State} (quiet : Quiet ks s t) (joined : List Deck) :
    t.stopDecks joined = s.stopDecks joined := List.filter_congr fun d _ => by rw [quiet.presence]

section
variable {why : Reason} {s a u : State} (h : Aborted why s a) (recorder : s.recorder ∈ s.edit.involved)
include h recorder

/-- On a deck that is not involved an abort withdraws a command of a channel at most. -/
theorem Aborted.port_apart {d : Deck} (apart : d ∉ s.edit.involved) : ∃ x, a.port d = { s.port d with servo := x } := by
  have other : d ≠ s.recorder := fun same => apart (same ▸ recorder)
  by_cases is : s.releases d
  · exact ⟨_, h.portReleased d apart other is⟩
  · exact ⟨_, h.portKept d apart other is⟩

omit recorder in
/-- On an IDLE line where no record stands the STOP goes out at once. -/
theorem Aborted.stopSent {d : Deck} (involved : d ∈ s.edit.involved) (distinct : s.edit.involved.Nodup)
    (idle : (s.port d).line = .idle) (noItem : (s.port d).emerg = none) (clear : (s.port d).standing = false) :
    (a.port d).flight = some ⟨.stop, .emergencyStop true false⟩ ∧ (a.port d).emerg = none := by
  rw [h.port d involved (.inl distinct), Port.stopPosted_item noItem, Laws.itemPosted_free _ _ _ idle clear]
  split
  · unfold Port.windowShut
    split <;> exact ⟨rfl, rfl⟩
  · exact ⟨rfl, rfl⟩

theorem Aborted.passAborted_stopDecks :
    Safety.passAborted a (s.stopDecks s.edit.involved) = Safety.passAborted s (s.stopDecks s.edit.involved) :=
  List.flatMap_congr fun d mem => by
    obtain ⟨x, port⟩ := h.port_apart recorder (State.mem_stopDecks.mp mem).2
    rw [port]

variable (k : AllStopped s.edit.involved a u)
include k

theorem AllStopped.replies_aborted (distinct : s.edit.involved.Nodup) : u.link.replies = s.link.replies ++
    Safety.passAborted s (s.edit.involved ++ s.stopDecks s.edit.involved) := by
  obtain ⟨more, replies, answered⟩ := h.replies
  rw [k.replies, replies, answered distinct, h.quiet.stopDecks, h.passAborted_stopDecks recorder, List.append_assoc]
  simp only [Safety.passAborted, List.flatMap_append]

/-- The slots of every deck that ALL_STOP reaches. -/
theorem AllStopped.slots_aborted {d : Deck} (reached : d ∈ s.edit.involved ∨ (s.port d).presence = .present) :
    (u.port d).seqSlot = { first := none, second := none } ∧ (u.port d).servo = none ∧ (u.port d).pass = none ∧
      ((s.port d).line ≠ .idle → (u.port d).emerg.isSome = true) := by
  by_cases involved : d ∈ s.edit.involved
  · obtain ⟨x, y, port, servo⟩ := k.portLink d fun mem => (State.mem_stopDecks.mp mem).2 involved
    obtain ⟨slot, noServo, pass⟩ := h.slots d involved
    rw [port]
    exact ⟨slot, servo noServo, pass, h.item d involved⟩
  · have mem : d ∈ a.stopDecks s.edit.involved := by
      rw [h.quiet.stopDecks]
      exact State.mem_stopDecks.mpr ⟨reached.resolve_left involved, involved⟩
    obtain ⟨x, port⟩ := h.port_apart recorder involved
    obtain ⟨slot, servo, pass⟩ := k.slots d mem
    refine ⟨slot, servo, pass, fun busy => k.item d mem ?_⟩
    rwa [port]

end

/-- A chase of the link is not one that the edit's end clears. -/
theorem State.not_releases_link {s : State} {d : Deck} (link : (s.chan d).owner = some .link) : ¬s.releases d := by
  rintro ⟨_, owned, _⟩
  rw [link] at owned
  exact Owner.noConfusion (Option.some.inj owned)

section
variable {why : Reason} {s a u : State} {joined : List Deck} (k : AllStopped joined a u) {d : Deck}
  (link : (s.chan d).owner = some .link) (moves : (s.chan d).st ≠ .idle)
include k link moves

/-- A chase of the link ends, after an abort too. -/
theorem AllStopped.link_aborted (h : Aborted why s a) : (u.port d).claim = .free ∧
    u.chan d = Channel.idle s.set.lead ((s.chan d).gen + 1) (s.chan d).loc ∧
      ChaseTold s u d (s.chan d).st .cleared 1 := by
  have apart := State.not_releases_link link
  obtain ⟨st, owner, gen, loc, _⟩ := h.kin d apart
  have linked : (a.chan d).owner = some .link := owner.trans link
  obtain ⟨chan, entered⟩ := k.chan d linked (by rwa [st])
  rw [Channel.cleared, gen, loc, h.quiet.set] at chan entered
  refine ⟨k.claim d linked, chan, ?_⟩
  rw [st] at entered
  rw [ChaseTold, chan]
  exact (entered.since (h.chaseKept d apart) h.quiet.mask h.quiet.clock).told

end

end Sys2Proof.Machine

namespace Sys2Proof.Proofs

open Sys2Proof.Machine Sys2Proof.Safety

/-- Settles O37: ABORT is the abort of the edit; ALL_STOP is that abort, the chases of the link and the items of the other
decks. -/
theorem abortAndAllStop : Obligations.AbortAndAllStop := by
  refine ⟨fun s r taken => ?abort, fun s r taken abortable noAbort free recorder distinct => ?edit,
    fun s r taken recording other => ?record, fun s r taken untaken clear => ?none⟩
  case abort =>
    have done := exec_abortEdit taken
    have moving (abortable : s.edit.phase.abortable = true) : s.edit.phase ≠ .idle := by
      rintro idle
      rw [idle] at abortable
      exact Bool.false_ne_true abortable
    refine ⟨fun idle => by rw [done, if_pos idle], fun abortable noAbort free recorder => ?_, fun recording => ?_,
      fun untaken => ?_⟩
    · have h := State.abort_aborted (s := answered s r .ok [])
        ((State.takesAbort_iff _).mpr ⟨abortable, noAbort, free⟩) .aborted
      rw [if_neg (moving abortable)] at done
      obtain ⟨more, replies, answers⟩ := h.replies
      exact ⟨_, done, h.abort, h.stops, h.abortStage, h.gpi, h.slots, ⟨more, replies.symm⟩,
        fun distinct => by rw [replies, answers distinct]; rfl, h.quiet.list,
        h.abortTold_since (s.abortBase_answered r _ _) (fun _ => ⟨rfl, rfl⟩),
        fun d apart noSource => h.chanKept d apart fun is => noSource is.1⟩
    · have still : Recording (answered s r .ok []) := recording
      obtain ⟨editing, _, _, recorder, _, others⟩ := id recording
      have h := State.abort_aborted (Recording.takesAbort still) .aborted
      rw [if_neg (by rw [editing]; exact Phase.noConfusion)] at done
      refine ⟨_, done, h.recordStopped still, h.gpi, h.abortTold_since (s.abortBase_answered r _ _) (fun _ => ⟨rfl, rfl⟩),
        fun distinct d involved other => ?_, fun d apart noSource => ?_⟩
      · refine (h.port d involved (.inl distinct)).trans ((if_neg other).trans ?_)
        exact Port.stopPosted_item (others d).1 _ _ _
      · exact h.portKept d apart (fun same => apart (same ▸ recorder)) fun is => noSource is.1
    · have moves : s.edit.phase ≠ .idle := by
        rcases untaken with release | ⟨moves, _⟩
        · rw [release]
          exact Phase.noConfusion
        · exact moves
      have refuses : (answered s r .ok []).takesAbort = false := State.takesAbort_none (.inr (untaken.imp_right And.right))
      rw [done, if_neg moves, State.abort_untaken refuses]
  case edit =>
    have h := State.abort_aborted (s := answered s r .ok []) ((State.takesAbort_iff _).mpr ⟨abortable, noAbort, free⟩) .allStop
    have done := exec_allStop taken
    rw [if_pos ((State.takesAbort_iff _).mpr ⟨abortable, noAbort, free⟩)] at done
    have k := State.allStopped_all ((answered s r .ok []).abort .allStop) s.edit.involved
    generalize (answered s r .ok []).abort .allStop = a at *
    obtain ⟨_, _, _, heard⟩ := a.heard_edit_cases (a.stopDecks s.edit.involved)
    have edit := k.edit.trans heard
    have run : a.run = s.run := h.quiet.run
    refine ⟨_, done, k.replies_aborted h recorder distinct, ?_, ?_, ?_, k.gpi.trans h.gpi,
      fun d link moves => k.link_aborted (s := answered s r .ok []) link moves h,
      fun d reached => k.slots_aborted h recorder reached, fun d involved idle noItem clear => ?_, fun active => ?_,
      fun inactive => (k.runInactive (run ▸ inactive)).trans run, k.list.trans h.quiet.list, k.readers.trans h.quiet.readers,
      k.abortTold h (Phase.abortable_ne_release abortable) (s.abortBase_answered r _ _) rfl rfl⟩
    · rw [edit]
      exact h.abort
    · rw [edit]
      exact h.stops
    · rw [edit]
      exact h.abortStage
    · obtain ⟨x, y, port, _⟩ := k.portLink d fun mem => (State.mem_stopDecks.mp mem).2 involved
      rw [port]
      exact h.stopSent involved distinct idle noItem clear
    · obtain ⟨ended, entered⟩ := k.run (run ▸ active)
      rw [run] at ended entered
      exact ⟨ended, (entered.since (s := s) (h.quiet.entries _ _ (by decide)) h.quiet.mask h.quiet.clock).told⟩
  case record =>
    have still : Recording (answered s r .ok []) := recording
    obtain ⟨editing, noAbort, free, recorder, _, others⟩ := id recording
    have h := State.abort_aborted (Recording.takesAbort still) .allStop
    have done := exec_allStop taken
    rw [if_pos (Recording.takesAbort recording)] at done
    have k := State.allStopped_all ((answered s r .ok []).abort .allStop) s.edit.involved
    generalize (answered s r .ok []).abort .allStop = a at *
    have silent : a.heard (a.stopDecks s.edit.involved) = a := State.heard_none fun d mem ⟨_, off⟩ => by
      have apart := (State.mem_stopDecks.mp mem).2
      obtain ⟨x, port⟩ := h.port_apart recorder apart
      rw [port] at off
      have clear : (s.port d).standing = false := (others d).2 fun same => apart (same ▸ recorder)
      simp only [show ((answered s r .ok []).port d) = s.port d from rfl, (others d).1, clear] at off
      exact Bool.false_ne_true off
    have edit : _ = a.edit := k.edit.trans (congrArg State.edit silent)
    have unlinked : (a.chan s.recorder).owner ≠ some .link := by
      by_cases is : (answered s r .ok []).releases s.recorder
      · rw [(h.told.sources _ is).1]
        exact fun link => Option.some_ne_none _ link.symm
      · rw [(h.kin _ is).2.1]
        exact other
    have port := k.port s.recorder (fun mem => (State.mem_stopDecks.mp mem).2 recorder) unlinked
    have open' : (answered s r .ok []).edit.phase ≠ .release := by
      rw [show (answered s r .ok []).edit = s.edit from rfl, editing]
      exact Phase.noConfusion
    refine ⟨_, done, ?_, k.abortTold h open' (s.abortBase_answered r _ _) rfl rfl⟩
    rw [RecordStopped, port, edit]
    exact h.recordStopped still
  case none =>
    intro present claim
    have done := exec_allStop taken
    have refuses : s.takesAbort = false := State.takesAbort_none untaken
    rw [State.abort_untaken (s := answered s r .ok []) refuses, if_neg (by simp [refuses])] at done
    have k := State.allStopped_all (answered s r .ok []) []
    generalize (answered s r .ok []).allStopped [] = u at *
    have reached (d : Deck) : d ∈ (answered s r .ok []).stopDecks [] ↔ present d := by
      rw [State.mem_stopDecks]
      exact and_iff_left List.not_mem_nil
    have decksS : (answered s r .ok []).stopDecks [] = decks.filter fun d => present d :=
      List.filter_congr fun d _ => by
        rw [show (answered s r .ok []).port d = s.port d from rfl]
        simp only [List.contains_nil, Bool.not_false, Bool.and_true]
        rfl
    have silent : ¬s.edit.heedsOff ∨ ∀ e ∈ (answered s r .ok []).stopDecks [], ¬((answered s r .ok []).port e).handsOff := by
      by_cases heeds : s.edit.heedsOff
      · refine .inr fun e _ ⟨idle, off⟩ => ?_
        obtain ⟨standing, noItem⟩ := clear heeds.1 e idle
        simp only [show (answered s r .ok []).port e = s.port e from rfl, noItem, standing] at off
        exact Bool.false_ne_true off
      · exact .inl heeds
    have unheard : (answered s r .ok []).heard ((answered s r .ok []).stopDecks []) = answered s r .ok [] := by
      rcases silent with deaf | none
      · exact State.heard_deaf (s := answered s r .ok []) deaf _
      · exact State.heard_none none
    refine ⟨u, done, ?_, fun d is noStop => ?_, fun d isNot other => k.port d (mt (reached d).mp isNot) other,
      fun d link moves => ?_, fun d is => ?_, fun active => ?_, k.runInactive, k.list,
      k.edit.trans (congrArg State.edit unheard :), k.engine, k.gpi, k.readers⟩
    · rw [k.replies, decksS]
      rfl
    · have plain : (s.port d).releaseStop s.edit = false := Port.releaseStop_none noStop
      have port := k.exact d ((reached d).mpr is) silent
      refine ⟨fun noItem => port.trans ?_, fun i item busy => port.trans ?_⟩
      · have posted := Port.stopPosted_eq_itemPosted noItem s.fmt s.edit false false
        rw [plain] at posted
        exact congrArg (fun p : Port => { p with claim := claim d }) posted
      · have posted := Port.stopPosted_waits (s.port d) s.fmt s.edit false false busy
        rw [Port.withEmergency_joined item plain] at posted
        exact congrArg (fun p : Port => { p with claim := claim d }) posted
    · obtain ⟨chan, entered⟩ := k.chan d link moves
      refine ⟨k.claim d link, chan, ?_⟩
      rw [ChaseTold, chan]
      exact entered.told
    · obtain ⟨slot, servo, pass⟩ := k.slots d ((reached d).mpr is)
      exact ⟨slot, servo, pass, k.item d ((reached d).mpr is)⟩
    · obtain ⟨ended, entered⟩ := k.run active
      exact ⟨ended, entered.told⟩

end Sys2Proof.Proofs

/-! ## O33: the sync point, the record-on and the record-off point -/

namespace Sys2Proof.Machine

open Sys2Proof.Safety

/-! ### The record-off test (R122) -/

section
variable {s : State} (ev : EventFields) {x : Nat}
  (reached : 0 ≤ s.fmt.d x (s.fmt.addFrames ev.recOut (-(s.edit.offDelay : Int))))
include reached

theorem State.offTest_posts (unposted : s.edit.offPosted = false) : s.offTest ev .perform (some x) =
    ({ s with edit := { s.edit with offPosted := true } } : State).postSeq s.recorder .recordOff := by
  have past : ((some x).any fun n => s.fmt.reached n (s.edit.offPoint s.fmt ev)) = true := decide_eq_true reached
  exact (if_pos past).trans (if_neg (by simp [unposted]))

theorem State.offTest_preview {m : EditMode} (other : m ≠ .perform) : s.offTest ev m (some x) = s.previewOff := by
  have past : ((some x).any fun n => s.fmt.reached n (s.edit.offPoint s.fmt ev)) = true := decide_eq_true reached
  refine (if_pos past).trans ?_
  cases m with
  | perform => exact absurd rfl other
  | preview => rfl
  | review => rfl

end

theorem State.offTest_early {s : State} (ev : EventFields) {x : Nat} (m : EditMode)
    (early : s.fmt.d x (s.fmt.addFrames ev.recOut (-(s.edit.offDelay : Int))) < 0) : s.offTest ev m (some x) = s :=
  State.offTest_still ev m _ fun _ is => .inl (Option.some.inj is ▸ early)

/-- s with RECORD_OFF posted. -/
def State.offMarked (s : State) : State := { s with edit := { s.edit with offPosted := true } }

section
variable {s : State} (ev : EventFields) {x : Nat}

/-- The frame start in EDITING at which RECORD_OFF is posted. -/
theorem State.editingStep_posts (reached : 0 ≤ s.fmt.d x (s.fmt.addFrames ev.recOut (-(s.edit.offDelay : Int))))
    (unposted : s.edit.offPosted = false) : s.editingStep ev .perform (some x) =
      let u := s.offMarked.postSeq s.recorder .recordOff
      if u.edit.phase = .editing ∧ u.edit.abort.isNone then u.deadlineStep .outTimeout else u := by
  rw [State.editingStep, State.offTest_posts ev reached unposted]
  rfl

/-- The hand that a posting of RECORD_OFF brings on an IDLE line. -/
theorem State.postSeq_hands {d : Deck} (running : s.link.expired = false) (c : DeckCmd) :
    s.postSeq d c = (s.setPort d ((s.port d).seqPut c)).handLine d := State.hand_running (s := s.putSeq d c) running d

section
variable {d : Deck} (running : s.link.expired = false) (free : s.safeStop = false) (idle : (s.port d).line = .idle)
  (noItem : (s.port d).emerg = none) (enabled : (s.port d).presence ≠ .disabled) (editing : s.edit.phase = .editing)
include running free idle noItem enabled editing

/-- A RECORD_ON that waits is handed, and RECORD_OFF waits behind it. -/
theorem State.postSeq_recordOn {tracks : BitVec 5} {kind : EditKind}
    (slot : (s.port d).seqSlot = { first := some (.recordOn tracks kind), second := none }) : s.postSeq d .recordOff =
      ({ s with edit := s.edit.onSent s.recNow } : State).setPort d
        ((s.port d).onSent s.fmt tracks kind (some .recordOff)) := by
  let t := s.setPort d ((s.port d).seqPut .recordOff)
  have here : t.port d = { s.port d with seqSlot := { first := some (.recordOn tracks kind), second := some .recordOff } } :=
    (State.port_setPort _ _ _).trans (Port.seqPut_behind slot _)
  have recNow : t.recNow = s.recNow := (Quiet.setPort (ks := []) s d ((s.port d).seqPut .recordOff) rfl).recNow
  have handed := State.handLine_recordOn (s := t) (d := d) free (by rw [here]; exact idle) (by rw [here]; exact noItem)
    (by rw [here]; exact enabled) (by rw [here]) (.inr editing)
  rw [here, recNow] at handed
  rw [State.postSeq_hands running, handed]
  exact State.setPort_setPort { s with edit := s.edit.onSent s.recNow } d ((s.port d).seqPut .recordOff) _

/-- RECORD_OFF is handed at once. -/
theorem State.postSeq_recordOff (empty : (s.port d).seqSlot = { first := none, second := none }) :
    s.postSeq d .recordOff = (s.setPort d (s.port d).offSent).toldRecordOff := by
  let t := s.setPort d ((s.port d).seqPut .recordOff)
  have here : t.port d = { s.port d with seqSlot := { first := some .recordOff, second := none } } :=
    (State.port_setPort _ _ _).trans (Port.seqPut_empty empty _)
  have handed := State.handLine_recordOff (s := t) (d := d) free (by rw [here]; exact idle) (by rw [here]; exact noItem)
    (by rw [here]; exact enabled) (by rw [here]) editing
  rw [here] at handed
  rw [State.postSeq_hands running, handed]
  exact congrArg State.toldRecordOff (State.setPort_setPort s d ((s.port d).seqPut .recordOff) _)

end

end

/-- A RECORD_OFF posted on a busy line waits, after a change of phase as before it. -/
theorem State.setPhase_offPosted (s : State) (p : Phase) (d : Deck) (q : Port) (b : Bool)
    (record : q.record = (s.port d).record) :
    ({ s.setPhase p with edit := { (s.setPhase p).edit with offPosted := b } } : State).setPort d q =
      (({ s with edit := { s.edit with offPosted := b } } : State).setPort d q).setPhase p := by
  let v := ({ s with edit := { s.edit with offPosted := b } } : State).setPort d q
  have recNow : v.recNow = s.recNow :=
    (Quiet.after (ks := [])
      (Quiet.setPort { s with edit := { s.edit with offPosted := b } } d q record) (Quiet.edit s _)).recNow
  by_cases same : s.edit.phase = p
  · rw [State.setPhase_same same, State.setPhase_same (s := v) same]
  · rw [State.setPhase_new same, State.setPhase_new (s := v) same, recNow, State.enter_eq, State.enter_eq]
    rfl

/-! ### The sync point (R119) -/

section
variable {s : State} (m : EditMode)

/-- Every source's channel is LOCKED. -/
def State.sourcesLocked (s : State) : Prop := ∀ d, s.edit.srcA = some d ∨ s.edit.srcB = some d → (s.chan d).st = .locked

theorem Edit.mem_sources {e : Edit} {d : Deck} : d ∈ e.sources ↔ e.srcA = some d ∨ e.srcB = some d := by
  simp [Edit.sources]

theorem State.sources_any : (s.edit.sources.any fun d => (s.chan d).st != .locked) = true ↔ ¬s.sourcesLocked := by
  rw [List.any_eq_true]
  constructor
  · rintro ⟨d, mem, other⟩ locked
    exact absurd (locked d (Edit.mem_sources.mp mem)) (bne_iff_ne.mp other)
  · intro unlocked
    obtain ⟨d, both⟩ := not_forall.mp unlocked
    obtain ⟨mem, other⟩ := Classical.not_imp.mp both
    exact ⟨d, Edit.mem_sources.mpr mem, bne_iff_ne.mpr other⟩

theorem State.syncPoint_noLock (perform : m ≠ .review) (unlocked : ¬s.sourcesLocked) : s.syncPoint m = s.abort .noLock :=
  if_pos ⟨perform, State.sources_any.mpr unlocked⟩

section
variable (locked : m = .review ∨ s.sourcesLocked)
include locked

theorem State.syncPoint_locked : ¬(m ≠ .review ∧ (s.edit.sources.any fun d => (s.chan d).st != .locked) = true) := by
  rintro ⟨other, unlocked⟩
  exact State.sources_any.mp unlocked (locked.resolve_left other)

theorem State.syncPoint_noTimecode (unheard : ¬((s.reader s.recorder).src = .ltc ∨ (s.reader s.recorder).src = .flywheel)) :
    s.syncPoint m = s.abort .noTimecode :=
  (if_neg (State.syncPoint_locked m locked)).trans (if_pos (by rwa [Source.isLtc_iff]))

theorem State.syncPoint_passed (heard : (s.reader s.recorder).src = .ltc ∨ (s.reader s.recorder).src = .flywheel) :
    s.syncPoint m =
      let t : State := { s with edit := { s.edit with syncPassed := true } }
      if m = .perform then t.openWindow else t :=
  (if_neg (State.syncPoint_locked m locked)).trans (if_neg (by rw [Source.isLtc_iff]; exact not_not.mpr heard))

end

end

/-- s with the sync point passed. -/
def State.syncMarked (s : State) : State := { s with edit := { s.edit with syncPassed := true } }

theorem State.syncMarked_again {s : State} (passed : s.edit.syncPassed = true) : s.syncMarked = s := by
  rw [State.syncMarked, ← passed]

section
variable {s : State} {ev : EventFields} {m : EditMode} {x : Nat}

theorem State.rollSync_reached (unpassed : s.edit.syncPassed = false)
    (reached : 0 ≤ s.fmt.d x (s.fmt.addFrames ev.recIn (-(s.edit.margin : Int)))) :
    s.rollSync ev m (some x) = s.syncPoint m := if_pos ⟨by simp [unpassed], decide_eq_true reached⟩

/-- The sync point is passed, at this frame start or before. -/
theorem State.rollSync_passes (passes : s.edit.syncPassed = true ∨
    (0 ≤ s.fmt.d x (s.fmt.addFrames ev.recIn (-(s.edit.margin : Int))) ∧ (m = .review ∨ s.sourcesLocked) ∧
      ((s.reader s.recorder).src = .ltc ∨ (s.reader s.recorder).src = .flywheel))) : s.rollSync ev m (some x) =
    if m = .perform ∧ s.edit.syncPassed = false then s.syncMarked.openWindow else s.syncMarked := by
  cases before : s.edit.syncPassed with
  | true => rw [State.rollSync_away ev m _ (.inl before), if_neg (by simp), State.syncMarked_again before]
  | false =>
    obtain ⟨reached, locked, heard⟩ := passes.resolve_left (by simp [before])
    rw [State.rollSync_reached before reached, State.syncPoint_passed m locked heard]
    exact if_congr (and_iff_left rfl).symm rfl rfl

section
variable (passed : s.edit.syncPassed = true) (noAbort : s.edit.abort = none)
include passed noAbort

theorem State.rollOn_early (early : s.fmt.d x (s.fmt.addFrames ev.recIn (-(s.edit.onDelay : Int))) < 0) :
    s.rollOn ev m (some x) = s := by
  rw [State.rollOn_passed ev passed noAbort]
  cases m with
  | perform => exact State.recordOnTest_early ev early
  | preview => exact State.previewOn_early ev early
  | review => exact State.previewOn_early ev early

theorem State.rollOn_preview (other : m ≠ .perform)
    (reached : 0 ≤ s.fmt.d x (s.fmt.addFrames ev.recIn (-(s.edit.onDelay : Int)))) :
    s.rollOn ev m (some x) = s.enterEditing ev := by
  rw [State.rollOn_passed ev passed noAbort]
  cases m with
  | perform => exact absurd rfl other
  | preview => exact State.previewOn_reached ev reached
  | review => exact State.previewOn_reached ev reached

end

end

/-! ### The points at one frame start (R118) -/

/-- The recorder's port past the sync point of PERFORM: the window open, unless the point was passed before (R66, R119). -/
def Port.synced (p : Port) (passed : Bool) : Port := if passed then p else { p with quiet := true, hold := false, poll := none }

section
variable (p : Port) (b : Bool)

@[simp] theorem Port.line_synced : (p.synced b).line = p.line := by cases b <;> rfl
@[simp] theorem Port.emerg_synced : (p.synced b).emerg = p.emerg := by cases b <;> rfl
@[simp] theorem Port.presence_synced : (p.synced b).presence = p.presence := by cases b <;> rfl
@[simp] theorem Port.seqSlot_synced : (p.synced b).seqSlot = p.seqSlot := by cases b <;> rfl
@[simp] theorem Port.record_synced : (p.synced b).record = p.record := by cases b <;> rfl

end

/-- s with a frame start taken in ROLLING of PERFORM, past the sync point. -/
def State.synced (s : State) : State :=
  ({ s.seqTaken with edit := { s.edit with replay := false, syncPassed := true } } : State).setPort s.recorder
    ((s.port s.recorder).synced s.edit.syncPassed)

theorem Edit.syncPassed_again {e : Edit} (passed : e.syncPassed = true) :
    ({ e with replay := false, syncPassed := true } : Edit) = { e with replay := false } := by rw [← passed]

theorem Edit.offPosted_again {e : Edit} {b : Bool} (posted : e.offPosted = b) : ({ e with offPosted := b } : Edit) = e := by
  rw [← posted]

section
variable {s : State}

theorem State.silenceCheck_running (running : s.link.expired = false) : s.silenceCheck = s :=
  if_neg fun all => Bool.false_ne_true (running.symm.trans all.1)

theorem State.abortBase_synced (s : State) : AbortBase s s.synced where
  sources := rfl
  active := rfl
  mode := rfl
  chase := rfl
  engine := rfl
  set := rfl
  clock := rfl
  mask := rfl
  recNow := (Quiet.setPort (ks := []) { s.seqTaken with edit := { s.edit with replay := false, syncPassed := true } }
    s.recorder _ (Port.record_synced _ _)).recNow
  entries _ _ _ := rfl

theorem State.port_synced (s : State) : s.synced.port s.recorder = (s.port s.recorder).synced s.edit.syncPassed :=
  State.port_setPort _ _ _

/-- The sync point of PERFORM is passed, at this frame start or before. -/
theorem State.rollSync_synced (ev : EventFields) {x : Nat} (passed : s.edit.syncPassed = true ∨
    (0 ≤ s.fmt.d x (s.fmt.addFrames ev.recIn (-(s.edit.margin : Int))) ∧
      ((s.reader s.recorder).src = .ltc ∨ (s.reader s.recorder).src = .flywheel) ∧ s.sourcesLocked)) :
    s.rollTaken.rollSync ev .perform (some x) = s.synced := by
  cases before : s.edit.syncPassed with
  | true =>
    have edit := Edit.syncPassed_again before
    rw [State.rollSync_away (s := s.rollTaken) ev _ _ (.inl before), State.synced, before, edit]
    exact (State.setPort_port s.rollTaken s.recorder).symm
  | false =>
    obtain ⟨past, heard, locked⟩ := passed.resolve_left (by simp [before])
    have sync : s.rollTaken.rollSync ev .perform (some x) = s.rollTaken.syncPoint .perform :=
      if_pos ⟨by simp [State.rollTaken, before], decide_eq_true past⟩
    rw [sync, State.syncPoint_passed (s := s.rollTaken) .perform (.inr locked) heard, State.synced, before]
    rfl

/-- The record-off test after the move to EDITING: RECORD_OFF waits behind the command on its way. -/
theorem State.rollEnds_entered (ev : EventFields) {x : Nat} {b : Bool}
    (ends : b = decide (0 ≤ s.fmt.d x (s.fmt.addFrames ev.recOut (-(s.edit.offDelay : Int)))))
    (noAbort : s.edit.abort = none) (running : s.link.expired = false) (unposted : s.edit.offPosted = false)
    (busy : (s.port s.recorder).line ≠ .idle) : (s.setPhase .editing).rollEnds ev .perform (some x) =
      (({ s with edit := { s.edit with offPosted := b } } : State).setPort s.recorder
        (if b then (s.port s.recorder).seqPut .recordOff else s.port s.recorder)).setPhase .editing := by
  let w := s.setPhase .editing
  have quiet : Quiet [.editPhase] s w := Quiet.setPhase s .editing
  have edit : w.edit = { s.edit with phase := .editing } := State.setPhase_edit s .editing
  have port (d : Deck) : w.port d = s.port d := (congrArg (State.port · d) (State.setPhase_rest s .editing) :)
  have off : w.edit.offDelay = s.edit.offDelay := (congrArg Edit.offDelay edit :)
  have test : w.rollEnds ev .perform (some x) = w.offTest ev .perform (some x) :=
    State.rollEnds_editing _ _ _ (by rw [edit]; exact noAbort) (by rw [edit])
  refine test.trans ?_
  cases past : b with
  | false =>
    have early := not_le.mp (of_decide_eq_false (ends.symm.trans past))
    rw [State.offTest_early (s := w) ev _ (by rwa [quiet.fmt, off]), Edit.offPosted_again unposted]
    exact congrArg (State.setPhase · .editing) (State.setPort_port s s.recorder).symm
  | true =>
    have late := of_decide_eq_true (ends.symm.trans past)
    rw [State.offTest_posts (s := w) ev (by rwa [quiet.fmt, off]) (by rw [edit]; exact unposted),
      State.postSeq_busy (s := { w with edit := { w.edit with offPosted := true } }) ?_ ?_ .recordOff]
    · have posted := State.setPhase_offPosted s .editing s.recorder ((s.port s.recorder).seqPut .recordOff) true rfl
      rw [quiet.recorder]
      exact (congrArg (fun p => State.setPort _ s.recorder (Port.seqPut p .recordOff)) (port s.recorder)).trans posted
    · exact quiet.expired.trans running
    · rw [quiet.recorder]
      exact (congrArg Port.line (port s.recorder)).trans_ne busy

end

/-! ### Rows of PERFORM -/

section
variable {s : State} {n x : Nat} {ev : EventFields} (free : s.safeStop = false) (active : s.edit.active = some (n, ev))
  (mode : s.edit.mode = some .perform) (noAbort : s.edit.abort = none) (rolling : s.edit.phase = .rolling)
  (passed : s.edit.syncPassed = true ∨ (s.edit.replay = false ∧
    0 ≤ s.fmt.d x (s.fmt.addFrames ev.recIn (-(s.edit.margin : Int))) ∧
      ((s.reader s.recorder).src = .ltc ∨ (s.reader s.recorder).src = .flywheel) ∧ s.sourcesLocked))
  (position : s.startFrameRec = some x)
include free active mode noAbort rolling passed position

theorem State.seqStep_synced : s.seqStep = (s.synced.recordOnTest ev x).rollEnds ev .perform (some x) := by
  rw [State.seqStep_unposted free active mode noAbort rolling (passed.imp_right And.left), position,
    State.rollSync_synced ev (passed.imp_right And.right), State.rollOn_passed (s := s.synced) ev rfl noAbort]

variable (reached : 0 ≤ s.fmt.d x (s.fmt.addFrames ev.recIn (-(s.edit.onDelay : Int))))
include reached

/-- The record-on point found past the in point. -/
theorem State.seqStep_missed (late : ¬(s.fmt.d x ev.recIn < 0 ∨ (s.edit.onDelay = 0 ∧ s.fmt.d x ev.recIn = 0))) :
    s.seqStep = s.synced.abort .missedPoint := by
  have h := State.abort_aborted (s := s.synced) ((State.takesAbort_iff _).mpr
    ⟨by rw [show s.synced.edit.phase = .rolling from rolling]; rfl, noAbort, free⟩) .missedPoint
  rw [State.seqStep_synced free active mode noAbort rolling passed position,
    State.recordOnTest_missed (s := s.synced) ev reached late, State.rollEnds_aborted _ _ _ h.abort]

variable (intime : s.fmt.d x ev.recIn < 0 ∨ (s.edit.onDelay = 0 ∧ s.fmt.d x ev.recIn = 0))
  (running : s.link.expired = false) (unposted : s.edit.offPosted = false)
  (empty : (s.port s.recorder).seqSlot = { first := none, second := none }) {b : Bool}
  (ends : b = decide (0 ≤ s.fmt.d x (s.fmt.addFrames ev.recOut (-(s.edit.offDelay : Int)))))
include intime running unposted empty ends

/-- The edit in EDITING, but for its phase and the hand of RECORD_ON. -/
def Edit.entering (e : Edit) (b : Bool) (n : Nat) : Edit :=
  { e with syncPassed := true, offPosted := b, replay := false, deadline := n }

/-- RECORD_ON is handed at once on an IDLE line. -/
theorem State.seqStep_recordOn (idle : (s.port s.recorder).line = .idle) (noItem : (s.port s.recorder).emerg = none)
    (enabled : (s.port s.recorder).presence ≠ .disabled) : s.seqStep =
      (({ s.seqTaken with edit := (s.edit.entering b (s.fmt.span ev.recIn ev.recOut + 25)).onSent s.recNow } : State).setPort
        s.recorder { ((s.port s.recorder).synced s.edit.syncPassed).onSent s.fmt ev.tracks ev.kind none with
          seqSlot := { first := if b then some .recordOff else none, second := none } }).setPhase .editing := by
  let q := (s.port s.recorder).synced s.edit.syncPassed
  let base : State := { s.seqTaken with edit :=
    (s.edit.entering s.edit.offPosted (s.fmt.span ev.recIn ev.recOut + 25)).onSent s.recNow }
  let sent := base.setPort s.recorder (q.onSent s.fmt ev.tracks ev.kind none)
  have here : sent.port s.recorder = q.onSent s.fmt ev.tracks ev.kind none := State.port_setPort _ _ _
  have handed : s.synced.recordOnTest ev x = sent.setPhase .editing := by
    have port := s.port_synced
    have posted := State.postRecordOn_idle (s := s.synced) ev
      (by rw [show s.synced.recorder = s.recorder from rfl, port]; simpa)
      free (by rw [show s.synced.recorder = s.recorder from rfl, port]; simpa)
      (by rw [show s.synced.recorder = s.recorder from rfl, port]; simpa)
      (by rw [show s.synced.recorder = s.recorder from rfl, port]; simpa) rolling
    rw [State.recordOnTest_intime (s := s.synced) ev reached intime, posted, s.abortBase_synced.recNow,
      show s.synced.port s.synced.recorder = q from port, State.enterEditing_eq]
    refine (congrArg (fun u : State => (u.setPhase .editing).silenceCheck) (State.setPort_setPort base s.recorder q _)).trans ?_
    exact State.silenceCheck_running ((Quiet.setPhase sent .editing).expired.trans running)
  rw [State.seqStep_synced free active mode noAbort rolling passed position, handed,
    State.rollEnds_entered (s := sent) ev ends noAbort running unposted ?busy]
  case busy =>
    rw [show sent.recorder = s.recorder from rfl, here]
    exact LineState.noConfusion
  have port : (if b then (sent.port s.recorder).seqPut .recordOff else sent.port s.recorder) =
      { q.onSent s.fmt ev.tracks ev.kind none with
        seqSlot := { first := if b then some .recordOff else none, second := none } } := by
    rw [here]
    cases b <;> rfl
  refine congrArg (State.setPhase · .editing) ?_
  exact (congrArg (State.setPort _ s.recorder) port).trans
    (State.setPort_setPort { base with edit := { base.edit with offPosted := b } } s.recorder _ _)

/-- On a busy line RECORD_ON waits, and RECORD_OFF behind it. -/
theorem State.seqStep_recordOn_waits (busy : (s.port s.recorder).line ≠ .idle) : s.seqStep =
    (({ s.seqTaken with edit := s.edit.entering b (s.fmt.span ev.recIn ev.recOut + 25) } : State).setPort s.recorder
      { (s.port s.recorder).synced s.edit.syncPassed with seqSlot := {
        first := some (.recordOn ev.tracks ev.kind), second := if b then some .recordOff else none } }).setPhase .editing := by
  let q := (s.port s.recorder).synced s.edit.syncPassed
  let base : State := { s.seqTaken with edit := s.edit.entering s.edit.offPosted (s.fmt.span ev.recIn ev.recOut + 25) }
  let waits : Port := { q with seqSlot := { first := some (.recordOn ev.tracks ev.kind), second := none } }
  let posted := base.setPort s.recorder waits
  have here : posted.port s.recorder = waits := State.port_setPort _ _ _
  have line : q.line = (s.port s.recorder).line := Port.line_synced _ _
  have handed : s.synced.recordOnTest ev x = posted.setPhase .editing := by
    have port : s.synced.port s.synced.recorder = q := s.port_synced
    rw [State.recordOnTest_intime (s := s.synced) ev reached intime,
      State.postRecordOn_busy (s := s.synced) ev (by rw [port]; simpa [q]) (by rw [port, line]; exact busy), port,
      State.enterEditing_eq]
    refine (congrArg (fun u : State => (u.setPhase .editing).silenceCheck) (State.setPort_setPort base s.recorder q _)).trans ?_
    exact State.silenceCheck_running ((Quiet.setPhase posted .editing).expired.trans running)
  rw [State.seqStep_synced free active mode noAbort rolling passed position, handed,
    State.rollEnds_entered (s := posted) ev ends noAbort running unposted ?busy]
  case busy =>
    rw [show posted.recorder = s.recorder from rfl, here]
    exact line.trans_ne busy
  have port : (if b then (posted.port s.recorder).seqPut .recordOff else posted.port s.recorder) =
      { q with seqSlot := {
        first := some (.recordOn ev.tracks ev.kind), second := if b then some .recordOff else none } } := by
    rw [here]
    cases b <;> rfl
  refine congrArg (State.setPhase · .editing) ?_
  exact (congrArg (State.setPort _ s.recorder) port).trans
    (State.setPort_setPort { base with edit := { base.edit with offPosted := b } } s.recorder _ _)

end

/-! ### Rows of EDITING (R122) -/

/-- The recorder is two frames or more past the record-off point of an event. -/
def State.pastOut (s : State) (ev : EventFields) : Bool :=
  s.recNow.any fun y => 2 ≤ s.fmt.d y (s.fmt.addFrames ev.recOut (-(s.edit.offDelay : Int)))

/-- What the sequencer makes of the hand of its RECORD_OFF, with its active event (R122). -/
theorem State.toldRecordOff_sent {s : State} {n : Nat} {ev : EventFields} (active : s.edit.active = some (n, ev)) :
    (s.setPort s.recorder (s.port s.recorder).offSent).toldRecordOff =
      (({ s with edit := { s.edit with
        stage := .offHanded, offFrame := s.recNow, deadline := s.edit.postroll + 25
        warns := { s.edit.warns with lateOut := s.edit.warns.lateOut || s.pastOut ev } } } : State).setPort
            s.recorder (s.port s.recorder).offSent).setPhase .postroll := by
  let t := s.setPort s.recorder (s.port s.recorder).offSent
  have recNow : t.recNow = s.recNow := (Quiet.setPort (ks := []) s s.recorder (s.port s.recorder).offSent rfl).recNow
  have late : t.lateOff s.recNow = s.pastOut ev := by
    rw [State.lateOff_eq, show t.edit = s.edit from rfl, active, State.pastOut]
    simp only [Option.any_some]
    rfl
  rw [State.toldRecordOff, recNow, late]
  rfl

section
variable {s : State} {n x : Nat} {ev : EventFields} (free : s.safeStop = false) (active : s.edit.active = some (n, ev))
  (mode : s.edit.mode = some .perform) (noAbort : s.edit.abort = none) (editing : s.edit.phase = .editing)
  (position : s.startFrameRec = some x)
  (reached : 0 ≤ s.fmt.d x (s.fmt.addFrames ev.recOut (-(s.edit.offDelay : Int))))
  (running : s.link.expired = false) (unposted : s.edit.offPosted = false)
include free active mode noAbort editing position reached unposted

theorem State.seqStep_off : s.seqStep =
    let u := s.seqTaken.offMarked.postSeq s.recorder .recordOff
    if u.edit.phase = .editing ∧ u.edit.abort.isNone then u.deadlineStep .outTimeout else u := by
  rw [State.seqStep_eq, State.phaseTests_editing (s := s.seqTaken) active mode noAbort free editing, position]
  exact State.editingStep_posts (s := s.seqTaken) ev reached unposted

/-- Where the phase stays EDITING, the deadline falls. -/
theorem State.seqStep_off_within {u : State} (posted : s.seqTaken.offMarked.postSeq s.recorder .recordOff = u)
    (phase : u.edit.phase = .editing) (none : u.edit.abort = none) (within : 2 ≤ u.edit.deadline) :
    s.seqStep = { u with edit := u.edit.ticked } := by
  rw [State.seqStep_off free active mode noAbort editing position reached unposted, posted]
  exact (if_pos ⟨phase, by rw [none]; rfl⟩).trans (State.deadlineStep_within within _)

include running

/-- RECORD_OFF waits on a busy line. -/
theorem State.seqStep_off_waits (within : 2 ≤ s.edit.deadline) (busy : (s.port s.recorder).line ≠ .idle) : s.seqStep =
    ({ s.seqTaken with edit := { s.edit with offPosted := true }.ticked } : State).setPort s.recorder
      ((s.port s.recorder).seqPut .recordOff) :=
  State.seqStep_off_within (u := s.seqTaken.offMarked.setPort s.recorder ((s.port s.recorder).seqPut .recordOff)) free active
    mode noAbort editing position reached unposted
    (State.postSeq_busy (s := s.seqTaken.offMarked) running busy _) editing noAbort within

section
variable (idle : (s.port s.recorder).line = .idle) (noItem : (s.port s.recorder).emerg = none)
  (enabled : (s.port s.recorder).presence ≠ .disabled)
include idle noItem enabled

/-- A RECORD_ON that still waits is handed first. -/
theorem State.seqStep_off_behind (within : 2 ≤ s.edit.deadline) {tracks : BitVec 5} {kind : EditKind}
    (slot : (s.port s.recorder).seqSlot = { first := some (.recordOn tracks kind), second := none }) : s.seqStep =
      ({ s.seqTaken with edit := ({ s.edit with offPosted := true }.onSent s.recNow).ticked } : State).setPort s.recorder
        ((s.port s.recorder).onSent s.fmt tracks kind (some .recordOff)) :=
  State.seqStep_off_within
    (u := ({ s.seqTaken.offMarked with edit := s.seqTaken.offMarked.edit.onSent s.recNow } : State).setPort s.recorder
      ((s.port s.recorder).onSent s.fmt tracks kind (some .recordOff)))
    free active mode noAbort editing position reached unposted
    (State.postSeq_recordOn (s := s.seqTaken.offMarked) running free idle noItem enabled editing slot) editing noAbort within

/-- RECORD_OFF is handed at once, and the phase is POSTROLL. -/
theorem State.seqStep_off_handed (empty : (s.port s.recorder).seqSlot = { first := none, second := none }) : s.seqStep =
    (s.seqTaken.offMarked.setPort s.recorder (s.port s.recorder).offSent).toldRecordOff := by
  have posted := State.postSeq_recordOff (s := s.seqTaken.offMarked) running free idle noItem enabled editing empty
  have phase : (s.seqTaken.offMarked.setPort s.recorder (s.port s.recorder).offSent).toldRecordOff.edit.phase = .postroll := by
    rw [State.toldRecordOff, State.setPhase_edit]
  rw [State.seqStep_off free active mode noAbort editing position reached unposted]
  refine Eq.trans (if_neg fun both => ?_) posted
  have still := both.1
  rw [posted] at still
  exact Phase.noConfusion (phase.symm.trans still)

end

end

end Sys2Proof.Machine

namespace Sys2Proof.Proofs

open Sys2Proof.Machine Sys2Proof.Safety

/-- Settles O33, point by point in the order in which a frame start tests them. -/
theorem syncAndRecordPoints : Obligations.SyncAndRecordPoints := by
  refine ⟨?perform, ?rolling, ?editing⟩
  case perform =>
    intro s n x ev up owed free e f p due on heard passes active mode noAbort rolling passed position running unposted empty
      q ends intime editing last
    have done := exec_sequencerFrameStart up owed
    have passed : s.edit.syncPassed = true ∨ (s.edit.replay = false ∧
        0 ≤ s.fmt.d x (s.fmt.addFrames ev.recIn (-(s.edit.margin : Int))) ∧
          ((s.reader s.recorder).src = .ltc ∨ (s.reader s.recorder).src = .flywheel) ∧ s.sourcesLocked) := passed
    refine ⟨fun before early within => ?_, fun reached inTime idle noItem enabled => ?_, fun reached inTime busy => ?_,
      fun reached late involved => ?_⟩
    · rw [done, State.seqStep_unposted free active mode noAbort rolling (.inl before),
        show s.startFrameRec = some x from position,
        State.rollSync_away (s := s.rollTaken) ev _ _ (.inl before), State.rollOn_passed (s := s.rollTaken) ev before noAbort,
        State.recordOnTest_early (s := s.rollTaken) ev early, State.rollEnds_rolling (s := s.rollTaken) _ _ _ noAbort rolling,
        State.deadlineStep_within (s := s.rollTaken) within]
      rfl
    · rw [done, State.seqStep_recordOn free active mode noAbort rolling passed position reached inTime running unposted empty
        (b := ends) rfl idle noItem enabled]
      rfl
    · rw [done, State.seqStep_recordOn_waits free active mode noAbort rolling passed position reached inTime running unposted
        empty (b := ends) rfl busy]
      rfl
    · have step := State.seqStep_missed free active mode noAbort rolling passed position reached late
      rw [step] at done
      have h := State.abort_aborted (s := s.synced) ((State.takesAbort_iff _).mpr
        ⟨by rw [show s.synced.edit.phase = .rolling from rolling]; rfl, noAbort, free⟩) .missedPoint
      exact ⟨_, done, h.abort, h.stops, h.abortStage, h.abortTold_since s.abortBase_synced (fun _ => ⟨rfl, rfl⟩), h.quiet.list⟩
  case rolling =>
    intro s n ev m up owed free e f due on off sync locked heard passed r active mode noAbort rolling noReplay
    have done := exec_sequencerFrameStart up owed
    have base : AbortBase s s.seqTaken := ⟨rfl, rfl, rfl, rfl, rfl, rfl, rfl, rfl, rfl, fun _ _ _ => rfl⟩
    have takes : s.seqTaken.takesAbort = true :=
      (State.takesAbort_iff _).mpr ⟨by rw [show s.seqTaken.edit.phase = .rolling from rolling]; rfl, noAbort, free⟩
    have step := State.seqStep_rolling free active mode noAbort rolling
    rw [State.replayRecorder_none (s := s.seqTaken) noReplay] at step
    have still {x : Option Nat} (position : s.startFrameRec = x) (away : s.seqTaken.rollSync ev m x = s.seqTaken)
        (none : s.seqTaken.rollOn ev m x = s.seqTaken) (within : 2 ≤ s.edit.deadline) :
        exec .sequencerFrameStart s = .next { s with due := due, edit := { e with deadline := e.deadline - 1 } } := by
      rw [done, step, position, away, none, State.rollEnds_rolling (s := s.seqTaken) _ _ _ noAbort rolling,
        State.deadlineStep_within (s := s.seqTaken) within]
      rfl
    have aborts {x : Nat} {why : Reason} (position : s.startFrameRec = some x)
        (point : s.seqTaken.rollSync ev m (some x) = s.seqTaken.abort why) : ∃ u, exec .sequencerFrameStart s = .next u ∧
          u.edit.abort = some why ∧ u.edit.stops = e.involved ∧ u.edit.abortStage = e.stage ∧ AbortTold s u ∧
            u.list = s.list := by
      have h := State.abort_aborted takes why
      rw [position, point, State.rollOn_still _ _ _ (.inr (.inr (by rw [h.abort]; rfl))),
        State.rollEnds_aborted _ _ _ h.abort] at step
      rw [step] at done
      exact ⟨_, done, h.abort, h.stops, h.abortStage, h.abortTold_since base (fun _ => ⟨rfl, rfl⟩), h.quiet.list⟩
    refine ⟨fun lost within =>
        still lost (State.rollSync_away _ _ _ (.inr (by simp))) (State.rollOn_still _ _ _ (.inl rfl)) within,
      fun x position => ⟨fun unpassed early within => ?_, fun unpassed reached unlocked involved => ?_,
        fun unpassed reached isLocked unheard involved => ?_, fun passes early within => ?_, fun passes other reached => ?_⟩⟩
    · exact still position (State.rollSync_away (s := s.seqTaken) _ _ _ (.inr fun y is => Option.some.inj is ▸ early))
        (State.rollOn_still _ _ _ (.inr (.inl unpassed))) within
    · have review : m ≠ .review := fun is => unlocked (.inl is)
      exact aborts position ((State.rollSync_reached (s := s.seqTaken) unpassed reached).trans
        (State.syncPoint_noLock (s := s.seqTaken) m review fun all => unlocked (.inr all)))
    · exact aborts position ((State.rollSync_reached (s := s.seqTaken) unpassed reached).trans
        (State.syncPoint_noTimecode (s := s.seqTaken) m isLocked unheard))
    · have known : s.startFrameRec = some x := position
      have sync := State.rollSync_passes (s := s.seqTaken) (ev := ev) passes
      refine ⟨fun stays => ?_, fun perform unpassed => ?_⟩
      · have marked : ¬(m = .perform ∧ s.seqTaken.edit.syncPassed = false) := fun ⟨is, unpassed⟩ =>
          stays.elim (· is) fun before => Bool.false_ne_true (unpassed.symm.trans before)
        rw [if_neg marked] at sync
        rw [done, step, known, sync, State.rollOn_early (s := s.seqTaken.syncMarked) rfl noAbort early,
          State.rollEnds_rolling (s := s.seqTaken.syncMarked) _ _ _ noAbort rolling,
          State.deadlineStep_within (s := s.seqTaken.syncMarked) within]
        rfl
      · rw [if_pos ⟨perform, unpassed⟩] at sync
        rw [done, step, known, sync, State.rollOn_early (s := s.seqTaken.syncMarked.openWindow) rfl noAbort early,
          State.rollEnds_rolling (s := s.seqTaken.syncMarked.openWindow) _ _ _ noAbort rolling,
          State.deadlineStep_within (s := s.seqTaken.syncMarked.openWindow) within]
        rfl
    · have known : s.startFrameRec = some x := position
      have sync := State.rollSync_passes (s := s.seqTaken) (ev := ev) passes
      rw [if_neg fun both => other both.1] at sync
      let w := s.seqTaken.syncMarked.enterEditing ev
      have edit : w.edit = { s.seqTaken.syncMarked.edit.outDue (f.span ev.recIn ev.recOut + 25) with phase := .editing } :=
        State.setPhase_edit _ _
      have fmt : w.fmt = f := (Quiet.setPhase _ _).fmt
      have delay : w.edit.offDelay = e.offDelay := (congrArg Edit.offDelay edit :)
      have postroll : w.edit.postroll = e.postroll := (congrArg Edit.postroll edit :)
      rw [known, sync, State.rollOn_preview (s := s.seqTaken.syncMarked) rfl noAbort other reached,
        State.rollEnds_editing (s := w) _ _ _ (by rw [edit]; exact noAbort) (by rw [edit])] at step
      intro v
      refine ⟨fun before => ?_, fun past => ?_⟩
      · rw [done, step, State.offTest_early (s := w) ev m (by rwa [fmt, delay])]
        rfl
      · rw [done, step, State.offTest_preview (s := w) ev (by rwa [fmt, delay]) other, State.previewOff, postroll]
        rfl
  case editing =>
    intro s n x ev up owed free running e f p due off active mode noAbort editing within position reached
    have done := exec_sequencerFrameStart up owed
    have step : s.seqStep = s.seqTaken.editingStep ev .perform (some x) := by
      rw [State.seqStep_eq, State.phaseTests_editing (s := s.seqTaken) active mode noAbort free editing,
        show s.startFrameRec = some x from position]
    refine ⟨fun posted => ?_, fun slot unposted busy slots => ?_, fun tracks kind unposted idle noItem enabled slot => ?_,
      fun unposted idle empty noItem enabled => ?_⟩
    · rw [done, step, State.editingStep_still (s := s.seqTaken) ev .perform _ editing noAbort fun _ _ => .inr ⟨rfl, posted⟩,
        State.deadlineStep_within (s := s.seqTaken) within]
      rfl
    · have put : p.seqPut .recordOff = { p with seqSlot := slot } := by
        rcases slots with ⟨empty, rfl⟩ | ⟨c, first, rfl⟩ | ⟨c, b, full, rfl⟩
        · exact Port.seqPut_empty empty _
        · exact Port.seqPut_behind first _
        · exact Port.seqPut_full full _
      rw [done, State.seqStep_off_waits free active mode noAbort editing position reached running unposted within busy, put]
      rfl
    · rw [done, State.seqStep_off_behind free active mode noAbort editing position reached running unposted idle noItem enabled
        within slot]
      rfl
    · rw [done, State.seqStep_off_handed free active mode noAbort editing position reached running unposted idle noItem enabled
        empty]
      have port : p.offSent = { p with
          line := .sending, flight := some ⟨.recordOff, .sequencer⟩, tx := [2, 0x31, 0x33], fresh := false, standing := false
          quiet := false, hold := p.quiet || p.hold } := by
        rw [Port.offSent, ← empty]
      have told := State.toldRecordOff_sent (s := s.seqTaken.offMarked) active
      rw [show s.seqTaken.offMarked.port s.seqTaken.offMarked.recorder = p from rfl, port] at told
      rw [port]
      exact congrArg Host.Outcome.next told

end Sys2Proof.Proofs

/-! ## O32: POSTROLL and RELEASE -/

namespace Sys2Proof.Machine

open Sys2Proof.Safety

/-! ### The engine at RELEASE (R154) -/

/-- The engine at RELEASE: a plan still ARMED is withdrawn. -/
def Engine.released (e : Engine) : Engine :=
  if e.st = .armed then { e with st := .idle, preview := false } else { e with preview := false }

section
variable (s : State)

theorem State.engineWithdraw_entered (armed : s.engine.st = .armed) : Entered s s.engineWithdraw .transitionState 0
    (s.engine.released.noticeContent .armed .withdrawn) 1 := by
  have moved : s.engineWithdraw = s.engineMove s.engine.released .withdrawn := by
    rw [Engine.released, if_pos armed]
    exact if_pos armed
  rw [moved, ← armed]
  exact State.engineMove_entered s _ _

theorem State.engineWithdraw_rest : s.engineWithdraw = { s with
    engine := s.engine.released, link := { s.link with notices := s.engineWithdraw.link.notices } } := by
  by_cases armed : s.engine.st = .armed
  · have moved : s.engineWithdraw = s.engineMove s.engine.released .withdrawn := by
      rw [Engine.released, if_pos armed]
      exact if_pos armed
    rw [moved]
    exact State.engineMove_rest _ _ _
  · have same : s.engineWithdraw = { s with engine := s.engine.released } := by
      rw [Engine.released, if_neg armed]
      exact if_neg armed
    rw [same]

end

/-! ### Postings in RELEASE -/

section
variable {s : State} (released : s.edit.phase = .release)
include released

/-- In RELEASE nobody but a channel heeds a hand. -/
theorem State.told_release (d : Deck) {x : Flight} (other : ∀ gen loc, x.origin ≠ .servo gen loc) : s.told d x = s := by
  obtain ⟨c, o⟩ := x
  cases safe : s.safeStop with
  | true => exact s.told_safe d safe _
  | false =>
    refine (s.told_free d safe _).trans ?_
    cases o with
    | servo gen loc => exact absurd rfl (other gen loc)
    | emergencyOff => exact State.toldEmergencyOff_deaf fun heeds => Phase.noConfusion (released.symm.trans heeds.1)
    | sequencer =>
      cases c with
      | recordOn tracks kind => exact (s.toldSequencer_on tracks kind).trans (if_neg (by simp [released]))
      | recordOff => exact s.toldSequencer_off.trans (if_neg (by simp [released]))
      | _ => rfl
    | _ => rfl

/-- No abort is taken, whatever is due. -/
theorem State.silenceCheck_release : s.silenceCheck = s ∨
    s.silenceCheck = s.stopTaking.enter .silenceStop 0 s.silenceContent := by
  by_cases silent : s.Silent
  · refine .inr (State.silenceCheck_untaken silent ?_)
    rw [State.takesAbort, released]
    rfl
  · refine .inl (if_neg fun ⟨expired, standing, untaken, free⟩ => silent ?_)
    exact ⟨expired, standing, by simpa using untaken, by simpa using free⟩

end

/-- With a command of the sequencer waiting no channel's command is picked. -/
theorem Port.pick_above {p q : Port} {x : Flight} (waits : p.seqSlot.first.isSome = true ∨ p.seqSlot.second.isSome = true)
    (picked : p.pick = some (x, q)) (gen loc : Nat) : x.origin ≠ .servo gen loc := by
  intro own
  unfold Port.pick Port.pickLower at picked
  cases item : p.emerg with
  | some i =>
    rw [item] at picked
    cases off : i.recordOff <;> simp [off] at picked <;> simp [← picked.1] at own
  | none =>
    simp only [item] at picked
    by_cases disabled : p.presence = .disabled
    · rw [if_pos disabled] at picked
      exact absurd picked (by simp)
    rw [if_neg disabled] at picked
    cases first : p.seqSlot.first with
    | some c =>
      simp only [first, Option.some.injEq, Prod.mk.injEq] at picked
      simp [← picked.1] at own
    | none =>
      cases second : p.seqSlot.second with
      | some c =>
        simp only [first, second, Option.some.injEq, Prod.mk.injEq] at picked
        simp [← picked.1] at own
      | none => simp [first, second] at waits

theorem SeqItem.post_waits (q : SeqItem) (c : DeckCmd) :
    (q.post c).first.isSome = true ∨ (q.post c).second.isSome = true := by
  unfold SeqItem.post
  split <;> simp

/-- A posting in RELEASE changes its port, and that is all but for a silence stop. -/
theorem State.putSeq_release {s : State} (released : s.edit.phase = .release) (d : Deck) (c : DeckCmd) :
    ∃ q, (s.putSeq d c).handLine d = s.setPort d q := by
  let t := s.putSeq d c
  have here : t.port d = (s.port d).seqPut c := by rw [show t = _ from State.putSeq_eq s d c, State.port_setPort]
  have touched (q : Port) : t.setPort d q = s.setPort d q := State.setPort_setPort s d ((s.port d).seqPut c) q
  by_cases idle : (t.port d).line = .idle
  · cases picked : (t.port d).pick with
    | none => exact ⟨_, State.handLine_none idle picked⟩
    | some found =>
      obtain ⟨x, q⟩ := found
      have other := Port.pick_above (by rw [here]; exact SeqItem.post_waits _ _) picked
      refine ⟨q.sending s.fmt ⟨q.clampSpeed x.cmd, x.origin⟩, (State.handLine_picked idle picked).trans ?_⟩
      let taken := q.sending s.fmt ⟨q.clampSpeed x.cmd, x.origin⟩
      exact (State.told_release (s := t.setPort d taken) (x := ⟨q.clampSpeed x.cmd, x.origin⟩) released d other).trans
        (touched taken)
  · exact ⟨_, State.handLine_busy idle⟩

/-- The postings of STOP on the decks ds in turn, in RELEASE, lead from s to u. -/
structure StopsSent (s u : State) (ds : List Deck) : Prop where
  fmt : u.fmt = s.fmt
  edit : u.edit = s.edit
  chase : u.chase = s.chase
  engine : u.engine = s.engine
  gpi : u.gpi = s.gpi
  list : u.list = s.list
  entries : ∀ k n, k ≠ .silenceStop → u.entry k n = s.entry k n
  kept : ∀ d, d ∉ ds → u.port d = s.port d
  first : ds.Nodup → ∀ d ∈ ds, SeqFirst (s.port d) → u.port d = seqPosted (s.port d) s.fmt .stop

namespace StopsSent

variable {s t u : State} {ds : List Deck}

theorem nil (s : State) : StopsSent s s [] :=
  ⟨rfl, rfl, rfl, rfl, rfl, rfl, fun _ _ _ => rfl, fun _ _ => rfl, fun _ _ mem => absurd mem List.not_mem_nil⟩

theorem single (released : s.edit.phase = .release) (d : Deck) : StopsSent s (s.postSeq d .stop) [d] := by
  obtain ⟨q, handed⟩ := State.putSeq_release released d .stop
  have exact (first : SeqFirst (s.port d)) : q = seqPosted (s.port d) s.fmt .stop := by
    have same := handed.symm.trans (State.putSeq_first first (c := .stop) rfl fun _ => DeckCmd.noConfusion)
    simpa only [State.port_setPort] using congrArg (State.port · d) same
  have posted : s.postSeq d .stop = (s.setPort d q).silenceCheck := congrArg State.silenceCheck handed
  have base : StopsSent s (s.setPort d q) [d] := by
    refine ⟨rfl, rfl, rfl, rfl, rfl, rfl, fun _ _ _ => rfl, fun e other => ?_, fun _ e mem first => ?_⟩
    · exact State.port_setPort_ne s q (by simpa using other)
    · obtain rfl := List.mem_singleton.mp mem
      rw [State.port_setPort, exact first]
  rw [posted]
  rcases State.silenceCheck_release (s := s.setPort d q) released with same | stop
  · rw [same]
    exact base
  · rw [stop]
    have port (e : Deck) : ((s.setPort d q).stopTaking.enter .silenceStop 0 (s.setPort d q).silenceContent).port e =
        (s.setPort d q).port e := State.port_enter _ _ _ _ _
    refine ⟨?_, ?_, ?_, ?_, ?_, ?_, fun k n other => ?_, fun e other => (port e).trans (base.kept e other),
      fun once e mem first => (port e).trans (base.first once e mem first)⟩
    · rw [State.enter_fmt]; rfl
    · rw [State.enter_edit]; rfl
    · rw [State.enter_chase]; rfl
    · rw [State.enter_engine]; rfl
    · rw [State.enter_gpi]; rfl
    · rw [State.enter_list]; rfl
    · exact State.entry_enter_ne _ _ fun both => other both.1

theorem cons {d : Deck} (h : StopsSent s t [d]) (k : StopsSent t u ds) : StopsSent s u (d :: ds) where
  fmt := k.fmt.trans h.fmt
  edit := k.edit.trans h.edit
  chase := k.chase.trans h.chase
  engine := k.engine.trans h.engine
  gpi := k.gpi.trans h.gpi
  list := k.list.trans h.list
  entries x n other := (k.entries x n other).trans (h.entries x n other)
  kept e other := by
    rw [List.mem_cons, not_or] at other
    exact (k.kept e other.2).trans (h.kept e (by simpa using other.1))
  first once e mem first := by
    obtain ⟨new, once⟩ := List.nodup_cons.mp once
    rcases List.mem_cons.mp mem with rfl | mem
    · exact (k.kept e new).trans (h.first (List.nodup_singleton e) e (List.mem_singleton_self e) first)
    · have same : t.port e = s.port e := h.kept e fun is => new (List.mem_singleton.mp is ▸ mem)
      have posted := k.first once e mem (by rwa [same])
      rwa [same, h.fmt] at posted

theorem foldl (released : s.edit.phase = .release) (ds : List Deck) :
    StopsSent s (ds.foldl (fun s d => s.postSeq d .stop) s) ds := by
  induction ds generalizing s with
  | nil => exact nil s
  | cons d ds ih =>
    have one := single released d
    exact one.cons (ih (by rw [one.edit]; exact released))

end StopsSent

/-! ### RELEASE is entered (R123) -/

/-- The edit that awaits every involved deck's STOP. -/
def Edit.awaiting (e : Edit) : Edit := { e with stops := e.involved }

/-- What the entry of RELEASE from s to u does. -/
structure ReleaseTaken (s u : State) : Prop where
  edit : u.edit = { s.edit.awaiting with phase := .release }
  gpi : u.gpi = { s.gpi with sched := [] }
  list : u.list = s.list
  sources : ∀ d, s.releases d → u.chan d = (s.chan d).cleared s.set.lead ∧ Entered s u .chaseState (Deck.num d)
    (((s.chan d).cleared s.set.lead).noticeContent (s.chan d).st .released) 1
  chanKept : ∀ d, ¬s.releases d → u.chan d = s.chan d
  engine : u.engine = s.engine.released
  plan : s.engine.st = .armed → Entered s u .transitionState 0 (s.engine.released.noticeContent .armed .withdrawn) 1
  phase : Entered s u .editPhase 0 (u.edit.phaseContent s.edit.phase s.recNow) 1
  port : s.edit.involved.Nodup → ∀ d ∈ s.edit.involved, SeqFirst (s.port d) →
    (s.releases d → u.port d = seqPosted (s.port d).dropServo s.fmt .stop) ∧
      (¬s.releases d → u.port d = seqPosted (s.port d) s.fmt .stop)

/-- s in RELEASE, before channels, schedule and engine are told. -/
def State.releasePhase (s : State) : State := ({ s with edit := s.edit.awaiting } : State).setPhase .release

theorem State.releasePhase_edit (s : State) : s.releasePhase.edit = { s.edit.awaiting with phase := .release } :=
  State.setPhase_edit _ _

theorem State.releasePhase_rest (s : State) :
    s.releasePhase = s.phased s.releasePhase.edit s.releasePhase.link.notices :=
  State.setPhase_rest { s with edit := s.edit.awaiting } .release

theorem State.releasePhase_quiet (s : State) : Quiet [.editPhase] s s.releasePhase :=
  (Quiet.setPhase _ _).after (Quiet.edit s s.edit.awaiting)

theorem State.releasePhase_releases (s : State) (d : Deck) : s.releasePhase.releases d ↔ s.releases d := by
  rw [State.releasePhase_rest, State.releasePhase_edit]
  exact Iff.rfl

theorem State.releasePhase_chan (s : State) (d : Deck) : s.releasePhase.chan d = s.chan d := by
  rw [State.releasePhase_rest]
  rfl

theorem State.releasePhase_port (s : State) (d : Deck) : s.releasePhase.port d = s.port d := by
  rw [State.releasePhase_rest]
  rfl

/-- The channels of the sources at the entry of RELEASE. -/
theorem State.releasePhase_touched (s : State) : Touched (fun d => (s.port d).dropServo)
    (fun d => (s.chan d).cleared s.set.lead)
    (fun d => some (((s.chan d).cleared s.set.lead).noticeContent (s.chan d).st .released)) s.releases
    s.releasePhase s.releasePhase.clearEditChans := by
  have touched := (State.clearEditChans_touched s.releasePhase).congr fun d => (s.releasePhase_releases d).symm
  simpa only [State.releasePhase_chan, State.releasePhase_port, (State.releasePhase_quiet s).set] using touched

/-- s in RELEASE, with channels, schedule and engine told. -/
def State.releasing (s : State) : State := s.releasePhase.clearEditChans.gpiDisarm.engineWithdraw

theorem State.releasing_rest (s : State) : s.releasing = { s with
    edit := { s.edit.awaiting with phase := .release }, gpi := { s.gpi with sched := [] }, engine := s.engine.released
    ports := s.releasePhase.clearEditChans.ports, chase := s.releasePhase.clearEditChans.chase
    link := { s.link with notices := s.releasing.link.notices } } := by
  have told : s.releasePhase.clearEditChans = s.releasePhase.moved _ _ _ := (State.releasePhase_touched s).rest
  have rest := State.engineWithdraw_rest s.releasePhase.clearEditChans.gpiDisarm
  refine rest.trans ?_
  have engine : s.releasePhase.clearEditChans.gpiDisarm.engine = s.engine := by
    refine (congrArg State.engine told :).trans ?_
    rw [State.releasePhase_rest]
    rfl
  rw [engine]
  have base : s.releasePhase.clearEditChans = { s with
      edit := { s.edit.awaiting with phase := .release }
      ports := s.releasePhase.clearEditChans.ports, chase := s.releasePhase.clearEditChans.chase
      link := { s.link with notices := s.releasePhase.clearEditChans.link.notices } } := by
    refine told.trans ?_
    rw [State.releasePhase_edit s |>.symm]
    exact congrArg (State.moved · _ _ _) (State.releasePhase_rest s)
  exact congrArg (fun t : State => { t.gpiDisarm with
    engine := s.engine.released, link := { t.link with notices := s.releasing.link.notices } }) base

section
variable (s : State)

theorem State.releasing_entry {k : NoticeKind} (other : k ≠ .transitionState) (n : Nat) :
    s.releasing.entry k n = s.releasePhase.clearEditChans.entry k n :=
  (Quiet.engineWithdraw _).entries k n (by simpa using other)

theorem State.releasing_chan (d : Deck) : s.releasing.chan d = s.releasePhase.clearEditChans.chan d := by
  rw [State.releasing_rest]
  rfl

theorem State.releasing_port (d : Deck) : s.releasing.port d = s.releasePhase.clearEditChans.port d := by
  rw [State.releasing_rest]
  rfl

theorem State.enterRelease_eq :
    s.enterRelease = s.edit.involved.foldl (fun s d => s.postSeq d .stop) s.releasing := by
  have edit : s.releasing.edit.involved = s.edit.involved := by
    rw [State.releasing_rest]
    rfl
  rw [← edit]
  rfl

/-- RELEASE is entered from another phase. -/
theorem State.enterRelease_taken (open' : s.edit.phase ≠ .release) : ReleaseTaken s s.enterRelease := by
  have quiet := s.releasePhase_quiet
  have touched := s.releasePhase_touched
  have rest := s.releasing_rest
  have edit : s.releasing.edit = { s.edit.awaiting with phase := .release } := (congrArg State.edit rest :)
  have fmt : s.releasing.fmt = s.fmt := (congrArg State.fmt rest :)
  have sent := StopsSent.foldl (s := s.releasing) (by rw [edit]) s.edit.involved
  rw [State.enterRelease_eq]
  generalize s.edit.involved.foldl (fun s d => s.postSeq d .stop) s.releasing = u at sent
  have chan (d : Deck) : u.chan d = s.releasing.chan d := by rw [State.chan, sent.chase, State.chan]
  refine ⟨sent.edit.trans edit, sent.gpi.trans (congrArg State.gpi rest :), sent.list.trans (congrArg State.list rest :),
    fun d is => ⟨?_, ?_⟩, fun d isNot => ?_, sent.engine.trans (congrArg State.engine rest :), fun armed => ?_, ?_,
    fun once d mem first => ⟨fun is => ?_, fun isNot => ?_⟩⟩
  · rw [chan, State.releasing_chan, touched.chan d is]
  · refine Entered.since (t := s.releasePhase) ?_ (quiet.entries _ _ (by decide)) quiet.mask quiet.clock
    refine (touched.told d _ is rfl).kept ?_
    rw [sent.entries _ _ (by decide), State.releasing_entry s (by decide)]
  · rw [chan, State.releasing_chan, touched.chanKept d isNot, State.releasePhase_chan]
  · have engine : s.releasePhase.clearEditChans.gpiDisarm.engine = s.engine := by
      refine (congrArg State.engine touched.rest :).trans ?_
      rw [State.releasePhase_rest]
      rfl
    have told := State.engineWithdraw_entered s.releasePhase.clearEditChans.gpiDisarm (by rw [engine]; exact armed)
    rw [engine] at told
    refine Entered.kept (t := s.releasing) (Entered.since told ?_ ?_ ?_) (sent.entries _ _ (by decide))
    · refine (touched.kept _ _ fun d _ both => NoticeKind.noConfusion both.1).trans (quiet.entries _ _ (by decide))
    · exact touched.mask.trans quiet.mask
    · exact touched.clock.trans quiet.clock
  · have entered := State.setPhase_entered (s := s) (t := { s with edit := s.edit.awaiting }) (p := .release)
      (Quiet.edit (ks := []) s _).recNow rfl rfl rfl open'
    rw [sent.edit, edit, ← State.releasePhase_edit]
    refine entered.kept ?_
    rw [sent.entries _ _ (by decide), State.releasing_entry s (by decide)]
    exact touched.kept _ _ fun d _ both => NoticeKind.noConfusion both.1
  · have port : s.releasing.port d = (s.port d).dropServo := by rw [State.releasing_port, touched.port d is]
    rw [sent.first once d mem (by rw [port]; exact first), port, fmt]
  · have port : s.releasing.port d = s.port d := by
      rw [State.releasing_port, touched.portKept d isNot, State.releasePhase_port]
    rw [sent.first once d mem (by rw [port]; exact first), port, fmt]

end

/-! ### The frame starts in EDITING without record and in POSTROLL -/

section
variable {s : State} {n : Nat} {ev : EventFields} {m : EditMode} (free : s.safeStop = false)
  (active : s.edit.active = some (n, ev)) (mode : s.edit.mode = some m) (noAbort : s.edit.abort = none)
include free active mode noAbort

/-- Without record the record-off point makes the phase POSTROLL. -/
theorem State.seqStep_previewOff (phase : s.edit.phase = .editing) {x : Nat} (reads : s.startFrameRec = some x)
    (reached : 0 ≤ s.fmt.d x (s.fmt.addFrames ev.recOut (-(s.edit.offDelay : Int)))) (other : m ≠ .perform) :
    s.seqStep = ({ s.seqTaken with edit := s.edit.outDue (s.edit.postroll + 25) } : State).setPhase .postroll := by
  rw [State.seqStep_eq, State.phaseTests_editing (s := s.seqTaken) active mode noAbort free phase, State.editingStep, reads]
  dsimp only
  rw [State.offTest_preview (s := s.seqTaken) ev reached other]
  have moved : s.seqTaken.previewOff =
    ({ s.seqTaken with edit := s.edit.outDue (s.edit.postroll + 25) } : State).setPhase .postroll := rfl
  rw [moved, State.setPhase_edit]
  exact if_neg fun both => Phase.noConfusion both.1

/-- Before the record-off point of EDITING the deadline falls. -/
theorem State.seqStep_editingWaits (phase : s.edit.phase = .editing)
    (early : ∀ x, s.startFrameRec = some x → s.fmt.d x (s.fmt.addFrames ev.recOut (-(s.edit.offDelay : Int))) < 0)
    (within : 2 ≤ s.edit.deadline) : s.seqStep = { s.seqTaken with edit := s.edit.ticked } := by
  rw [State.seqStep_eq, State.phaseTests_editing (s := s.seqTaken) active mode noAbort free phase,
    State.editingStep_still (s := s.seqTaken) ev m _ phase noAbort fun x reads => .inl (early x reads),
    State.deadlineStep_within (s := s.seqTaken) within]
  rfl

section
variable (phase : s.edit.phase = .postroll)
include phase

theorem State.seqStep_postrollWaits
    (early : ∀ x, s.startFrameRec = some x → s.fmt.d x (s.fmt.addFrames ev.recOut s.edit.postroll) < 0)
    (within : 2 ≤ s.edit.deadline) : s.seqStep = { s.seqTaken with edit := s.edit.ticked } := by
  rw [State.seqStep_eq, State.phaseTests_postroll (s := s.seqTaken) active mode noAbort free phase]
  refine if_neg ?_
  rintro (last | reached)
  · have last : s.edit.deadline - 1 = 0 := last
    omega
  · obtain ⟨x, reads, past⟩ := (SuiteFormat.reached_any _ _ _).mp reached
    exact absurd past (not_le.mpr (early x reads))

theorem State.seqStep_releases
    (ends : s.edit.deadline = 1 ∨
      ∃ x, s.startFrameRec = some x ∧ 0 ≤ s.fmt.d x (s.fmt.addFrames ev.recOut s.edit.postroll)) :
    s.seqStep = ({ s.seqTaken with edit := s.edit.ticked } : State).enterRelease := by
  rw [State.seqStep_eq, State.phaseTests_postroll (s := s.seqTaken) active mode noAbort free phase]
  refine if_pos ?_
  rcases ends with last | reached
  · refine .inl ?_
    show s.edit.deadline - 1 = 0
    omega
  · exact .inr ((SuiteFormat.reached_any _ _ _).mpr reached)

end

end

/-- The deck sees the entry of RELEASE at a frame start as one since before it. -/
theorem ReleaseTaken.since_tick {s u : State} (h : ReleaseTaken { s.seqTaken with edit := s.edit.ticked } u) :
    SourcesReleased s u ∧ (∀ d, d ∉ s.edit.sources ∨ (s.chan d).owner ≠ some .sequencer → u.chan d = s.chan d) := by
  refine ⟨fun d source owned moves => ?_, fun d away => h.chanKept d fun is => ?_⟩
  · obtain ⟨chan, entered⟩ := h.sources d ⟨source, owned, moves⟩
    refine ⟨chan, ?_⟩
    rw [ChaseTold, chan]
    exact entered.told
  · exact away.elim (absurd is.1) (absurd is.2.1)

end Sys2Proof.Machine

namespace Sys2Proof.Proofs

open Sys2Proof.Machine Sys2Proof.Safety

/-- Settles O32: each frame start is one test of its phase, and RELEASE tells channels, schedule and engine before the decks. -/
theorem editEndsInPostrollAndRelease : Obligations.EditEndsInPostrollAndRelease := by
  unfold Obligations.EditEndsInPostrollAndRelease
  refine ⟨fun s p => ⟨State.setPhase_same, fun n ev m new active mode => ?_⟩, fun s up owed still => ?_,
    fun s n ev m up owed free => ?_, fun s n ev m c up owed free active mode noAbort phase row => ?_⟩
  · rw [State.setPhase_new new, Edit.phaseContent_active (e := { s.edit with phase := p }) active mode]
    rfl
  · rw [exec_sequencerFrameStart up owed, State.seqStep_eq, State.phaseTests_still (s := s.seqTaken) still]
    rfl
  · intro e due off r waits active mode noAbort
    refine ⟨fun x phase reads reached other => ?_, fun phase early within => ?_, fun phase early within => ?_⟩
    · rw [exec_sequencerFrameStart up owed,
        State.seqStep_previewOff free active mode noAbort phase reads reached other]
      rfl
    · show exec _ s = _
      rw [exec_sequencerFrameStart up owed, State.seqStep_editingWaits free active mode noAbort phase early within]
      rfl
    · show exec _ s = _
      rw [exec_sequencerFrameStart up owed, State.seqStep_postrollWaits free active mode noAbort phase early within]
      rfl
  · have step : exec c s = .next s.seqStep := by
      rcases row with ⟨rfl, last⟩ | ⟨rfl, _⟩
      · exact exec_postrollTimeout up owed phase (by omega)
      · exact exec_sequencerFrameStart up owed
    have taken := State.enterRelease_taken { s.seqTaken with edit := s.edit.ticked } (by
      rw [show ({ s.seqTaken with edit := s.edit.ticked } : State).edit.phase = .postroll from phase]
      exact Phase.noConfusion)
    rw [step, State.seqStep_releases free active mode noAbort phase (row.imp And.right And.right)]
    generalize ({ s.seqTaken with edit := s.edit.ticked } : State).enterRelease = u at taken
    have edit := taken.edit
    obtain ⟨sources, chans⟩ := taken.since_tick
    refine ⟨u, rfl, by rw [edit], by rw [edit]; exact noAbort, by rw [edit]; rfl, taken.gpi, taken.list, sources, chans,
      fun armed => ⟨?_, ?_⟩, ?_, fun unarmed => ?_, fun once d mem first => ?_⟩
    · rw [taken.engine]
      exact if_pos armed
    · rw [taken.engine]
      exact (taken.plan armed).told
    · have entered := taken.phase
      rw [Edit.phaseContent_active (n := n) (ev := ev) (m := m) (by rw [edit]; exact active) (by rw [edit]; exact mode),
        show u.edit.phase = .release by rw [edit],
        show ({ s.seqTaken with edit := s.edit.ticked } : State).edit.phase = .postroll from phase] at entered
      exact entered.told
    · rw [taken.engine]
      exact if_neg unarmed
    · obtain ⟨there, away⟩ := taken.port once d mem first
      by_cases is : s.releases d
      · exact (there is).trans (congrArg (fun x => seqPosted { s.port d with servo := x } s.fmt .stop) (if_pos is).symm)
      · exact (away is).trans (congrArg (fun x => seqPosted { s.port d with servo := x } s.fmt .stop) (if_neg is).symm)

end Sys2Proof.Proofs

/-! ## A sample of a chase channel, deck by deck (R74 to R89) -/

namespace Sys2Proof.Machine

open Sys2Proof.Safety

theorem State.setChan_setChan (s : State) (d : Deck) (c c' : Channel) : (s.setChan d c).setChan d c' = s.setChan d c' := by
  simp [State.setChan]

/-- s with deck d's port and channel as given. -/
def State.placed (s : State) (d : Deck) (p : Port) (c : Channel) : State := (s.setPort d p).setChan d c

section
variable (s : State) (d : Deck) (p : Port) (c : Channel)

@[simp] theorem State.placed_port : (s.placed d p c).port d = p := State.port_setPort s d p
@[simp] theorem State.placed_chan : (s.placed d p c).chan d = c := State.chan_setChan (s.setPort d p) d c
@[simp] theorem State.placed_fmt : (s.placed d p c).fmt = s.fmt := rfl
@[simp] theorem State.placed_set : (s.placed d p c).set = s.set := rfl
@[simp] theorem State.placed_reader (e : Deck) : (s.placed d p c).reader e = s.reader e := rfl
@[simp] theorem State.placed_link : (s.placed d p c).link = s.link := rfl
@[simp] theorem State.placed_edit : (s.placed d p c).edit = s.edit := rfl
@[simp] theorem State.placed_safeStop : (s.placed d p c).safeStop = s.safeStop := rfl

theorem State.placed_port_ne {e : Deck} (other : e ≠ d) : (s.placed d p c).port e = s.port e :=
  State.port_setPort_ne s p other

theorem State.placed_chan_ne {e : Deck} (other : e ≠ d) : (s.placed d p c).chan e = s.chan e :=
  State.chan_setChan_ne (s.setPort d p) c other

@[simp] theorem State.placed_setChan (c' : Channel) : (s.placed d p c).setChan d c' = s.placed d p c' :=
  State.setChan_setChan (s.setPort d p) d c c'

@[simp] theorem State.placed_setPort (p' : Port) : (s.placed d p c).setPort d p' = s.placed d p' c :=
  congrArg (State.setChan · d c) (State.setPort_setPort s d p p')

/-- A channel that changes on a port that does not. -/
theorem State.setChan_placed : s.setChan d c = s.placed d (s.port d) c := by rw [State.placed, State.setPort_port]

end

/-! ### The notices of a move (R89, R126) -/

/-- s with a move of deck d's channel entered, and heard of by the edit where it leaves LOCKED. -/
def State.chaseNoted (s : State) (d : Deck) (old new : Channel) (why : ChaseCause) : State :=
  (s.enter .chaseState (Deck.num d) (new.noticeContent old.st why)).leftLocked old new

theorem State.leftLocked_rest (s : State) (old new : Channel) :
    s.leftLocked old new = { s with edit := (s.leftLocked old new).edit } := by
  unfold State.leftLocked State.warn
  split
  · split <;> rfl
  · rfl

theorem State.leftLocked_placed (s : State) (d : Deck) (p : Port) (c old new : Channel) :
    (s.placed d p c).leftLocked old new = (s.leftLocked old new).placed d p c := by
  unfold State.leftLocked State.warn
  rw [State.placed_edit]
  by_cases hears : old.st = .locked ∧ new.st ≠ .locked ∧ old.owner = some .sequencer ∧ s.edit.syncGuarded = true
  · rw [if_pos hears, if_pos hears, State.placed_safeStop]
    by_cases runs : s.edit.running = true ∧ ¬s.safeStop = true
    · rw [if_pos runs, if_pos runs]
      rfl
    · rw [if_neg runs, if_neg runs]
  · rw [if_neg hears, if_neg hears]

theorem State.placed_enter (s : State) (d : Deck) (p : Port) (c : Channel) (k : NoticeKind) (n : Nat) (v : List Val) :
    (s.placed d p c).enter k n v = (s.enter k n v).placed d p c := by
  rw [State.placed, State.placed, State.setPort_enter, State.setChan_enter]

section
variable (s : State) (d : Deck) (p : Port) (c c' : Channel) (why : ChaseCause)

/-- A change of the channel's state by its own rules. -/
theorem State.placed_chanMove : (s.placed d p c).chanMove d c' why = (s.chaseNoted d c c' why).placed d p c' := by
  rw [State.chanMove, State.placed_chan, State.placed_setChan, State.placed_enter, State.leftLocked_placed]
  rfl

/-- The notice of a channel that has left the state of c. -/
theorem State.placed_chanNote : (s.placed d p c').chanNote d c why = (s.chaseNoted d c c' why).placed d p c' := by
  rw [State.chanNote, State.placed_chan, State.placed_enter, State.leftLocked_placed]
  rfl

theorem State.chaseNoted_rest (old new : Channel) : s.chaseNoted d old new why =
    s.phased (s.chaseNoted d old new why).edit (s.chaseNoted d old new why).link.notices := by
  let l := s.noted .chaseState (Deck.num d) (new.noticeContent old.st why) s.link.notices
  have moved : s.chaseNoted d old new why = s.phased (s.chaseNoted d old new why).edit l :=
    (State.leftLocked_rest _ _ _).trans (congrArg (fun u : State =>
      ({ u with edit := (s.chaseNoted d old new why).edit } : State)) (State.enter_eq s _ _ _))
  have notices : (s.chaseNoted d old new why).link.notices = l := (congrArg (fun u : State => u.link.notices) moved :)
  rw [notices]
  exact moved

end

/-- The edit hears of a channel of its own that leaves LOCKED past the sync point. -/
theorem State.chaseNoted_edit (s : State) (d : Deck) (old new : Channel) (why : ChaseCause) (free : s.safeStop = false) :
    (s.chaseNoted d old new why).edit =
      if old.st = .locked ∧ new.st ≠ .locked ∧ old.owner = some .sequencer ∧ s.edit.syncGuarded = true then
        { s.edit with warns := { s.edit.warns with sync := true } } else s.edit := by
  have safe : (s.enter .chaseState (Deck.num d) (new.noticeContent old.st why)).safeStop = false := by
    rw [State.safeStop, State.enter_link]
    exact free
  rw [State.chaseNoted, State.leftLocked, State.enter_edit]
  by_cases hears : old.st = .locked ∧ new.st ≠ .locked ∧ old.owner = some .sequencer ∧ s.edit.syncGuarded = true
  · have runs : s.edit.running = true := by
      have guarded := hears.2.2.2
      simp only [Edit.syncGuarded, Bool.and_eq_true, Bool.or_eq_true, beq_iff_eq] at guarded
      rcases guarded.2 with phase | phase <;> simp [Edit.running, phase]
    rw [if_pos hears, if_pos hears, State.warn, State.enter_edit, if_pos ⟨runs, by simp [safe]⟩]
  · rw [if_neg hears, if_neg hears, State.enter_edit]

/-- From s to B deck d's channel has entered moves, the latest as given; with none nothing is told. -/
structure Moves (s B : State) (d : Deck) (times : Nat) (content : List Val) : Prop where
  rest : B = s.phased B.edit B.link.notices
  none : times = 0 → B.link = s.link
  told : 0 < times → Entered s B .chaseState (Deck.num d) content times

namespace Moves

variable {s B : State} {d : Deck} {times : Nat} {content : List Val}

theorem refl (s : State) (d : Deck) (v : List Val) : Moves s s d 0 v :=
  ⟨rfl, fun _ => rfl, fun none => absurd none (lt_irrefl 0)⟩

section
variable (h : Moves s B d times content)
include h

theorem fmt : B.fmt = s.fmt := by rw [h.rest]; rfl
theorem set : B.set = s.set := by rw [h.rest]; rfl
theorem clock : B.clock = s.clock := by rw [h.rest]; rfl
theorem mask : B.link.mask = s.link.mask := by rw [h.rest]; rfl
theorem expired : B.link.expired = s.link.expired := by rw [h.rest]; rfl
theorem safeStop : B.safeStop = s.safeStop := by rw [h.rest]; rfl
theorem reader (e : Deck) : B.reader e = s.reader e := by rw [h.rest]; rfl
theorem port (e : Deck) : B.port e = s.port e := by rw [h.rest]; rfl
theorem chan (e : Deck) : B.chan e = s.chan e := by rw [h.rest]; rfl

/-- One move more. -/
theorem noted (old new : Channel) (why : ChaseCause) :
    Moves s (B.chaseNoted d old new why) d (times + 1) (new.noticeContent old.st why) where
  rest := by
    have once := B.chaseNoted_rest d why old new
    generalize B.chaseNoted d old new why = u at once
    rw [once, h.rest]
    rfl
  none more := absurd more (Nat.succ_ne_zero _)
  told _ := by
    refine Entered.kept (t := B.enter .chaseState (Deck.num d) (new.noticeContent old.st why)) ?_ ?_
    · rcases Nat.eq_zero_or_pos times with rfl | some
      · exact Entered.first (State.entry_congr (congrArg Link.notices (h.none rfl)) _ _) h.mask h.clock
      · exact (h.told some).again h.mask h.clock
    · refine State.entry_congr ?_ _ _
      exact (congrArg (fun u : State => u.link.notices) (State.leftLocked_rest _ old new) :)

end

end Moves

/-! ### Postings of the channel (R61, R64, R81, R83) -/

/-- The command as an IDLE line takes it, at a speed of the deck's range, or as it waits. -/
def Port.servoCmd (p : Port) (k : DeckCmd) : DeckCmd := if p.line = .idle then p.clampSpeed k else k

/-- The channel once the command is posted: of one that is handed it hears the speed. -/
def Channel.servoTold (c : Channel) (p : Port) (k : DeckCmd) : Channel :=
  if p.line = .idle then c.speedTold (p.clampSpeed k) else c

section
variable {s : State} {d : Deck} {p : Port} {c : Channel} (running : s.link.expired = false) (free : s.safeStop = false)
  (first : ServoFirst p)
include running free first

theorem State.placed_postServo {k : DeckCmd} (transport : k.isTransport = true) (acts : c.active = true) :
    (s.placed d p c).postServo d k =
      s.placed d (servoPosted p s.fmt (p.servoCmd k) c.gen c.loc) (c.servoTold p k) := by
  have posted := State.postServo_acting (s := s.placed d p c) (d := d) running (by rw [State.placed_port]; exact first)
    transport free (by rw [State.placed_chan]; exact acts)
  rw [State.placed_port, State.placed_chan, State.placed_fmt] at posted
  rw [posted, Port.servoCmd, Channel.servoTold]
  by_cases idle : p.line = .idle
  · simp only [if_pos idle, State.placed_setPort, State.placed_setChan]
  · simp only [if_neg idle, State.placed_setPort]

/-- A channel of the link enters FAULT. -/
theorem State.placed_fault (enabled : p.presence ≠ .disabled) (acts : c.active = true)
    (other : c.owner ≠ some .sequencer) (r : ChaseFault) :
    (s.placed d p c).chaseFault d r =
      (s.chaseNoted d c (c.faulted r) .fault).placed d (servoPosted p s.fmt .stop c.gen c.loc) (c.faulted r) := by
  have fault := State.chaseFault_link (s := s.placed d p c) (d := d) free running
    (by rw [State.placed_port]; exact fun idle => ⟨(first idle).1, (first idle).2.1⟩) (by rw [State.placed_chan]; exact acts) r
    (by rw [State.placed_chan]; exact other)
  rw [State.channelFaults, State.placed_port, State.placed_chan, State.placed_fmt] at fault
  have stopped : p.chaseStopped s.fmt c = servoPosted p s.fmt .stop c.gen c.loc := if_neg enabled
  have silent : s.chaseNoted d c (c.faulted r) .fault =
      s.enter .chaseState (Deck.num d) ((c.faulted r).noticeContent c.st .fault) := if_neg fun all => other all.2.2.1
  rw [fault, State.touch, State.placed_setPort, State.placed_setChan, State.placed_enter, stopped, silent]

end

end Sys2Proof.Machine

/-! ## The rules of a sample (R74, R77 to R88) -/

namespace Sys2Proof.Machine

open Sys2Proof.Safety

theorem Port.servoCmd_fixed (p : Port) {k : DeckCmd} (fixed : ∀ v, k ≠ .varispeed v) : p.servoCmd k = k := by
  rw [Port.servoCmd, p.clampSpeed_fixed fixed, ite_self]

theorem Channel.servoTold_locate (c : Channel) (p : Port) (n : Nat) : c.servoTold p (.locate n) = c := ite_self c

/-- A channel whose command is re-posted, or whose re-posting is past. -/
def Channel.reposted (c : Channel) : Channel := { c with relocate := false, replay := false }

/-- A channel that has taken a sample in. -/
def Channel.seen (c : Channel) (x : Sample) : Channel := { c with cond := some x.cond, err := x.err.orElse fun _ => c.err }

/-- A channel whose LOCATE is complete. -/
def Channel.parks (c : Channel) : Channel := { c with st := .parked, relocate := false }

theorem Channel.mustFollow_iff (c : Channel) (x : Sample) :
    c.mustFollow x = true ↔ c.owner = some .link ∧ x.cond = .stopped := by simp [Channel.mustFollow]

section
variable {s : State} {d : Deck} {p : Port} {c : Channel} {x : Sample}

/-! ### The re-posting that closes a sample (R87) -/

theorem State.placed_repost (noLocate : c.st = .seek → c.relocate = false) (noPlay : c.st = .rolling → c.replay = false) :
    (s.placed d p c).repost d = s.placed d p c.reposted := by
  unfold State.repost
  simp only [State.placed_chan, State.placed_setChan]
  split
  · next seek again _ => exact absurd (noLocate seek) (by simp [again])
  · next rolls again => exact absurd (noPlay rolls) (by simp [again])
  · rfl

section
variable (running : s.link.expired = false) (free : s.safeStop = false) (first : ServoFirst p)
include running free first

theorem State.placed_repost_locate (seek : c.st = .seek) (again : c.relocate = true) {g : Nat} (goal : c.target = some g) :
    (s.placed d p c).repost d = s.placed d (servoPosted p s.fmt (.locate g) c.gen c.loc) c.reposted := by
  have posted := State.placed_postServo (d := d) (c := c.reposted) running free first (k := .locate g) rfl (by
    rw [Channel.active_iff]
    simp [Channel.reposted, seek])
  rw [Channel.servoTold_locate, Port.servoCmd_fixed p (by simp)] at posted
  unfold State.repost
  simp only [State.placed_chan, State.placed_setChan, seek, again, goal]
  have same : c.reposted = { c with st := .seek, target := some g, relocate := false, replay := false } := by
    rw [← seek, ← goal]
    rfl
  exact (congrArg (fun c : Channel => (s.placed d p c).postServo d (.locate g)) same.symm).trans posted

theorem State.placed_repost_play (rolls : c.st = .rolling) (again : c.replay = true) : (s.placed d p c).repost d =
    s.placed d (servoPosted p s.fmt .play c.gen c.loc)
      { c.reposted with speed := if p.line = .idle then some 1000 else c.speed } := by
  have posted := State.placed_postServo (d := d) (c := c.reposted) running free first (k := .play) rfl (by
    rw [Channel.active_iff]
    simp [Channel.reposted, rolls])
  rw [Port.servoCmd_fixed p (by simp)] at posted
  have told : c.reposted.servoTold p .play = { c.reposted with speed := if p.line = .idle then some 1000 else c.speed } := by
    rw [Channel.servoTold]
    by_cases idle : p.line = .idle
    · rw [if_pos idle, if_pos idle]
      rfl
    · rw [if_neg idle, if_neg idle]
      rfl
  unfold State.repost
  simp only [State.placed_chan, State.placed_setChan, rolls, again]
  rw [← told]
  have same : c.reposted = { c with st := .rolling, relocate := false, replay := false } := by
    rw [← rolls]
    rfl
  exact (congrArg (fun c : Channel => (s.placed d p c).postServo d .play) same.symm).trans posted

/-! ### Locates (R77, R78) -/

theorem State.placed_locate (kind : LocateKind) (n seeks lead : Nat) :
    ((s.placed d p c).setChan d (c.locating kind n seeks lead)).postServo d (.locate n) =
      s.placed d (servoPosted p s.fmt (.locate n) c.gen (c.loc + 1)) (c.locating kind n seeks lead) := by
  rw [State.placed_setChan, State.placed_postServo running free first rfl rfl, Channel.servoTold_locate,
    Port.servoCmd_fixed p (by simp)]
  rfl

theorem State.placed_followLocate (n : Nat) : (s.placed d p c).followLocate d n =
    (if c.st = .seek then s else s.chaseNoted d c (c.locating .follow n 0 s.set.lead) .masterStopped).placed d
      (servoPosted p s.fmt (.locate n) c.gen (c.loc + 1)) (c.locating .follow n 0 s.set.lead) := by
  unfold State.followLocate
  dsimp only
  rw [State.placed_chan, State.placed_set, State.placed_locate running free first, State.placed_chanNote]
  by_cases seek : c.st = .seek
  · rw [if_pos seek, if_pos seek]
  · rw [if_neg seek, if_neg seek]

/-- The lead of a LEAD seek: that of the setting, doubled at each re-seek. -/
def Channel.nextLead (c : Channel) (lead : Nat) : Nat := if c.seeks = 0 then lead else 2 * c.lead

/-- The channel in a LEAD seek ahead of a target frame. -/
def Channel.leading (c : Channel) (f : SuiteFormat) (n lead : Nat) : Channel :=
  c.locating .lead (f.addFrames n (c.nextLead lead)) (c.seeks + 1) (c.nextLead lead)

theorem State.placed_leadSeek (few : c.seeks < 4) (n : Nat) : (s.placed d p c).leadSeek d n =
    (s.chaseNoted d c (c.leading s.fmt n s.set.lead) (if c.seeks = 0 then .seek else .reseek)).placed d
      (servoPosted p s.fmt (.locate (s.fmt.addFrames n (c.nextLead s.set.lead))) c.gen (c.loc + 1))
      (c.leading s.fmt n s.set.lead) := by
  unfold State.leadSeek
  dsimp only
  rw [State.placed_chan, if_neg (by omega), State.placed_locate running free first, State.placed_chanNote]
  rfl

theorem State.placed_leadSeek_fault (many : 4 ≤ c.seeks) (acts : c.active = true) (enabled : p.presence ≠ .disabled)
    (other : c.owner ≠ some .sequencer) (n : Nat) : (s.placed d p c).leadSeek d n =
      (s.chaseNoted d c (c.faulted .cannotCatch) .fault).placed d (servoPosted p s.fmt .stop c.gen c.loc)
        (c.faulted .cannotCatch) := by
  unfold State.leadSeek
  dsimp only
  rw [State.placed_chan, if_pos many]
  exact State.placed_fault running free first enabled acts other .cannotCatch

end

/-! ### Which rule applies -/

/-- No LOCATE of the channel is complete. -/
def Channel.Uncued (c : Channel) (p : Port) : Prop := c.st = .seek → ¬(c.acked = true ∧ p.parked = true)

theorem State.chaseRule_parks (seek : c.st = .seek) (cued : c.acked = true ∧ p.parked = true) :
    (s.placed d p c).chaseRule d x = ((s.chaseNoted d c c.parks .cueDone).placed d p c.parks).chaseRule d x := by
  have rule : (s.placed d p c).chaseRule d x = (s.placed d p c).seekRule d x := by
    rw [State.chaseRule, State.placed_chan, seek]
  have after : ((s.chaseNoted d c c.parks .cueDone).placed d p c.parks).chaseRule d x =
      ((s.chaseNoted d c c.parks .cueDone).placed d p c.parks).parkedRule d x := by
    rw [State.chaseRule, State.placed_chan]
    rfl
  rw [rule, after, ← State.placed_chanMove, State.seekRule]
  simp only [State.placed_chan, State.placed_port]
  exact if_pos cued

section
variable (acts : c.active = true) (uncued : c.Uncued p)
include acts uncued

/-- A channel of the link with a STOPPED master follows it (R77). -/
theorem State.chaseRule_follows (follows : c.mustFollow x = true) :
    (s.placed d p c).chaseRule d x = (s.placed d p c).followTest d x := by
  obtain ⟨notIdle, notFault⟩ := c.active_iff.mp acts
  unfold State.chaseRule
  rw [State.placed_chan]
  cases st : c.st with
  | idle => exact absurd st notIdle
  | fault => exact absurd st notFault
  | seek =>
    simp only [State.seekRule, State.placed_chan, State.placed_port]
    rw [if_neg (uncued st), if_pos follows]
  | parked => simp only [State.parkedRule, State.placed_chan, if_pos follows]
  | rolling => simp only [State.rollingRule, State.placed_chan, if_pos follows]
  | varispeed => simp only [State.varispeedRule, State.placed_chan, if_pos follows]
  | locked => simp only [State.lockedRule, State.placed_chan, if_pos follows]

end

/-- A sample that calls a channel for a LEAD seek (R78, R80, R84, R85). -/
def Channel.Calls (c : Channel) (s : State) (d : Deck) (x : Sample) (n : Nat) : Prop :=
  (c.st = .seek ∧ c.leadDue s.fmt n = true) ∨
    (c.st = .parked ∧ ∃ p g, x.target = some p ∧ c.target = some g ∧ (s.fmt.lpf : Int) ≤ s.fmt.dLines p (g * s.fmt.lpf)) ∨
    ((c.st = .varispeed ∨ (c.st = .locked ∧ (s.reader d).src ≠ .line)) ∧
      ∃ p q e, x.slave = some p ∧ x.target = some q ∧ x.err = some e ∧ s.far e = true)

theorem State.chaseRule_calls (uncued : c.Uncued p) (plays : x.cond = .atPlay) {n : Nat} (frame : x.frame s.fmt = some n)
    (calls : c.Calls s d x n) : (s.placed d p c).chaseRule d x = (s.placed d p c).leadSeek d n := by
  have free : ¬c.mustFollow x = true := fun follows => by
    rw [Channel.mustFollow_iff, plays] at follows
    exact MasterCond.noConfusion follows.2
  have whole {q : Nat} (target : x.target = some q) : q / s.fmt.lpf = n := by
    rw [Sample.frame, target] at frame
    exact Option.some.inj frame
  unfold State.chaseRule
  rw [State.placed_chan]
  rcases calls with ⟨st, due⟩ | ⟨st, q, g, target, goal, past⟩ | ⟨st, q, r, e, slave, target, err, far⟩
  · rw [st]
    simp only [State.seekRule, State.placed_chan, State.placed_port, State.placed_fmt]
    rw [if_neg (uncued st), if_neg free, plays, frame]
    exact if_pos due
  · rw [st]
    simp only [State.parkedRule, State.placed_chan, State.placed_fmt]
    rw [if_neg free, plays, target, goal]
    exact (if_pos past).trans (by rw [whole target])
  · rcases st with st | ⟨st, other⟩
    · rw [st]
      simp only [State.varispeedRule, State.placed_chan, State.placed_fmt]
      rw [if_neg free, slave, target, err]
      exact (if_pos far).trans (by rw [whole target])
    · rw [st]
      simp only [State.lockedRule, State.placed_chan, State.placed_fmt, State.placed_reader]
      rw [if_neg free, slave, target, err]
      exact (if_neg other).trans ((if_pos far).trans (by rw [whole target]))

end

end Sys2Proof.Machine

/-! ## O23: the locates of a channel at a sample -/

namespace Sys2Proof.Machine

open Sys2Proof.Safety

/-- What a sample of deck d's channel leaves as it is, but for the edit. -/
structure Kept (s u : State) (d : Deck) : Prop where
  others : ∀ e, e ≠ d → u.port e = s.port e ∧ u.chan e = s.chan e
  readers : u.readers = s.readers
  list : u.list = s.list
  run : u.run = s.run
  engine : u.engine = s.engine
  gpi : u.gpi = s.gpi
  set : u.set = s.set
  replies : u.link.replies = s.link.replies

/-- s with a frame start of deck d's channel taken. -/
def State.sampleTaken (s : State) (d : Deck) : State :=
  { s with due := { s.due with chase := s.due.chase.set d.val (s.due.chase[d.val] - 1) } }

section
variable {s B : State} {d : Deck} {p : Port} {c : Channel} {x : Sample} {times : Nat} {v : List Val}

theorem Moves.kept (h : Moves s B d times v) (p : Port) (c : Channel) : Kept s (B.placed d p c) d where
  others e other := ⟨(B.placed_port_ne d p c other).trans (h.port e), (B.placed_chan_ne d p c other).trans (h.chan e)⟩
  readers := (congrArg State.readers h.rest :)
  list := (congrArg State.list h.rest :)
  run := (congrArg State.run h.rest :)
  engine := (congrArg State.engine h.rest :)
  gpi := (congrArg State.gpi h.rest :)
  set := (congrArg State.set h.rest :)
  replies := (congrArg (fun u : State => u.link.replies) h.rest :)

/-- A channel that is not the sequencer's moves without the edit. -/
theorem State.chaseNoted_edit_other {old : Channel} (other : old.owner ≠ some .sequencer) (s : State) (d : Deck)
    (new : Channel) (why : ChaseCause) : (s.chaseNoted d old new why).edit = s.edit := by
  rw [State.chaseNoted, State.leftLocked, if_neg fun all => other all.2.2.1, State.enter_edit]

/-! ### The sample (R74) -/

section
variable (up : s.asserted = false) (owed : 0 < s.due.chase[d.val])
include up owed

theorem exec_chaseSample_idle (still : (s.chan d).active = false ∨ s.safeStop = true) :
    exec (.chaseSample d) s = .next (s.sampleTaken d) := by
  rw [show exec (.chaseSample d) s = execChaseSample d s from rfl, execChaseSample, Laws.running_next s _ up, if_pos owed]
  refine congrArg Host.Outcome.next (if_neg fun both => ?_)
  rcases still with idle | stops
  · exact Bool.false_ne_true (idle.symm.trans both.1)
  · exact both.2 stops

variable (free : s.safeStop = false) (acts : (s.chan d).active = true)
include free acts

theorem exec_chaseSample : exec (.chaseSample d) s = .next
    ((((s.sampleTaken d).placed d (s.port d) ((s.chan d).seen (s.sampleOf d s.due.chase[d.val]))).chaseRule d
      (s.sampleOf d s.due.chase[d.val])).repost d) := by
  rw [show exec (.chaseSample d) s = execChaseSample d s from rfl, execChaseSample, Laws.running_next s _ up, if_pos owed]
  refine congrArg Host.Outcome.next ((if_pos ⟨acts, ne_true_of_eq_false free⟩).trans ?_)
  exact congrArg (fun u : State => (u.chaseRule d _).repost d)
    ((s.sampleTaken d).setChan_placed d ((s.chan d).seen (s.sampleOf d s.due.chase[d.val])))

/-- A sample at which a LOCATE is found complete: the channel is PARKED, and the rule of PARKED follows (log 21). -/
theorem exec_chaseSample_parks (seek : (s.chan d).st = .seek)
    (cued : (s.chan d).acked = true ∧ (s.port d).parked = true) : exec (.chaseSample d) s = .next
    (((((s.sampleTaken d).chaseNoted d ((s.chan d).seen (s.sampleOf d s.due.chase[d.val]))
      ((s.chan d).seen (s.sampleOf d s.due.chase[d.val])).parks .cueDone).placed d (s.port d)
      ((s.chan d).seen (s.sampleOf d s.due.chase[d.val])).parks).chaseRule d (s.sampleOf d s.due.chase[d.val])).repost d) := by
  rw [exec_chaseSample up owed free acts, State.chaseRule_parks (c := (s.chan d).seen _) seek cued]

end

theorem State.sampleOf_err {s : State} {d : Deck} {k : Nat} {e : Int} (err : (s.sampleOf d k).err = some e) :
    ∃ p q, (s.sampleOf d k).slave = some p ∧ (s.sampleOf d k).target = some q := by
  have pair : (s.sampleOf d k).err = match (s.sampleOf d k).target, (s.sampleOf d k).slave with
      | some t, some p => some (s.fmt.dLines t p)
      | _, _ => none := rfl
  rw [pair] at err
  cases target : (s.sampleOf d k).target with
  | none => simp [target] at err
  | some q =>
    cases slave : (s.sampleOf d k).slave with
    | none => simp [target, slave] at err
    | some r => exact ⟨r, q, rfl, rfl⟩

/-! ### The outcomes of a rule -/

theorem State.followTest_due {n : Nat} (frame : x.frame s.fmt = some n) (due : c.followDue s.fmt n = true) :
    (s.placed d p c).followTest d x = (s.placed d p c).followLocate d n := by
  unfold State.followTest
  rw [State.placed_fmt, frame, State.placed_chan]
  exact if_pos due

theorem State.followTest_still {n : Nat} (frame : x.frame s.fmt = some n) (still : c.followDue s.fmt n = false) :
    (s.placed d p c).followTest d x = s.placed d p c := by
  unfold State.followTest
  rw [State.placed_fmt, frame, State.placed_chan]
  exact if_neg (by simp [still])

/-- A PARKED channel waits for its roll point, or for a position (R80, R81). -/
theorem State.chaseRule_parked_waits (parked : c.st = .parked) (waits : x.cond = .noPosition ∨ (x.cond = .atPlay ∧
    ∃ q g, x.target = some q ∧ c.target = some g ∧
      s.fmt.dLines q (g * s.fmt.lpf) < -((p.playStart * s.fmt.lpf : Nat) : Int))) :
    (s.placed d p c).chaseRule d x = s.placed d p c := by
  unfold State.chaseRule
  rw [State.placed_chan, parked]
  simp only [State.parkedRule, State.placed_chan, State.placed_fmt, State.placed_port]
  have follows : ¬c.mustFollow x = true := fun follows => by
    have stopped := ((c.mustFollow_iff x).mp follows).2
    rcases waits with lost | ⟨plays, _⟩
    · exact MasterCond.noConfusion (lost.symm.trans stopped)
    · exact MasterCond.noConfusion (plays.symm.trans stopped)
  rw [if_neg follows]
  rcases waits with lost | ⟨plays, q, g, target, goal, early⟩
  · rw [lost]
  · rw [plays, target, goal]
    have lpf := s.fmt.lpf_pos
    exact (if_neg (by omega)).trans (if_neg (by omega))

/-- In SEEK a channel waits for its LOCATE while no other is called for (R78). -/
theorem State.chaseRule_seek_waits (seek : c.st = .seek) (uncued : c.Uncued p) (waits : x.cond = .noPosition ∨
    (x.cond = .atPlay ∧ ∃ n, x.frame s.fmt = some n ∧ c.leadDue s.fmt n = false) ∨
    (x.cond = .stopped ∧ ∃ n, x.frame s.fmt = some n ∧ c.followDue s.fmt n = false)) :
    (s.placed d p c).chaseRule d x = s.placed d p c := by
  have acts : c.active = true := by rw [Channel.active_iff]; simp [seek]
  by_cases follows : c.mustFollow x = true
  · rw [State.chaseRule_follows acts uncued follows]
    have stopped := ((c.mustFollow_iff x).mp follows).2
    rcases waits with lost | ⟨plays, _⟩ | ⟨_, n, frame, still⟩
    · exact MasterCond.noConfusion (lost.symm.trans stopped)
    · exact MasterCond.noConfusion (plays.symm.trans stopped)
    · exact State.followTest_still frame still
  · unfold State.chaseRule
    rw [State.placed_chan, seek]
    simp only [State.seekRule, State.placed_chan, State.placed_fmt, State.placed_port]
    rw [if_neg (uncued seek), if_neg follows]
    rcases waits with lost | ⟨plays, n, frame, still⟩ | ⟨stopped, _⟩
    · rw [lost]
    · rw [plays, frame]
      exact if_neg (by simp [still])
    · rw [stopped]

section
variable (moves : Moves s B d times v) (running : s.link.expired = false) (free : s.safeStop = false) (first : ServoFirst p)
include moves running free first

section
variable (acts : c.active = true) (uncued : c.Uncued p)
include acts uncued

/-- A channel of the link locates to a master that stands elsewhere (R77). -/
theorem Moves.follows (follows : c.mustFollow x = true) {n : Nat} (frame : x.frame s.fmt = some n)
    (due : c.followDue s.fmt n = true) : ∃ u, ((B.placed d p c).chaseRule d x).repost d = u ∧
      u.chan d = (c.locating .follow n 0 s.set.lead).reposted ∧
      u.port d = servoPosted p s.fmt (.locate n) c.gen (c.loc + 1) ∧ Kept s u d ∧ u.edit = B.edit ∧
      (c.st ≠ .seek → Entered s u .chaseState (Deck.num d) ((u.chan d).noticeContent c.st .masterStopped) (times + 1)) ∧
      (c.st = .seek → u.link = B.link) := by
  have link : c.owner = some .link := ((c.mustFollow_iff x).mp follows).1
  rw [State.chaseRule_follows acts uncued follows, State.followTest_due (by rw [moves.fmt]; exact frame)
    (by rw [moves.fmt]; exact due), State.placed_followLocate (moves.expired.trans running) (moves.safeStop.trans free) first,
    State.placed_repost (fun _ => rfl) (fun rolls => ChaseState.noConfusion rolls), moves.fmt, moves.set]
  by_cases seek : c.st = .seek
  · rw [if_pos seek]
    exact ⟨_, rfl, State.placed_chan .., State.placed_port .., moves.kept _ _, rfl, absurd seek, fun _ => rfl⟩
  · rw [if_neg seek]
    have noted := moves.noted c (c.locating .follow n 0 s.set.lead) .masterStopped
    refine ⟨_, rfl, State.placed_chan .., State.placed_port .., noted.kept _ _,
      State.chaseNoted_edit_other (by simp [link]) _ _ _ _, fun _ => ?_, fun is => absurd is seek⟩
    rw [State.placed_chan]
    exact noted.told (Nat.succ_pos _)

end

section
variable (uncued : c.Uncued p) (plays : x.cond = .atPlay) {n : Nat} (frame : x.frame s.fmt = some n)
  (calls : c.Calls s d x n)
include uncued plays frame calls

omit running free first in
theorem Moves.chaseRule_calls : (B.placed d p c).chaseRule d x = (B.placed d p c).leadSeek d n := by
  refine State.chaseRule_calls uncued plays (by rw [moves.fmt]; exact frame) ?_
  simpa only [Channel.Calls, moves.fmt, moves.reader, State.far, moves.set] using calls

/-- A channel locates ahead of a running master (R78). -/
theorem Moves.leads (few : c.seeks < 4) : ∃ u, ((B.placed d p c).chaseRule d x).repost d = u ∧
      u.chan d = (c.leading s.fmt n s.set.lead).reposted ∧
      u.port d = servoPosted p s.fmt (.locate (s.fmt.addFrames n (c.nextLead s.set.lead))) c.gen (c.loc + 1) ∧ Kept s u d ∧
      (c.owner = some .link → u.edit = B.edit) ∧
      Entered s u .chaseState (Deck.num d) ((u.chan d).noticeContent c.st (if c.seeks = 0 then .seek else .reseek))
        (times + 1) := by
  rw [moves.chaseRule_calls uncued plays frame calls,
    State.placed_leadSeek (moves.expired.trans running) (moves.safeStop.trans free) first few,
    State.placed_repost (fun _ => rfl) (fun rolls => ChaseState.noConfusion rolls), moves.fmt, moves.set]
  have noted := moves.noted c (c.leading s.fmt n s.set.lead) (if c.seeks = 0 then .seek else .reseek)
  refine ⟨_, rfl, State.placed_chan .., State.placed_port .., noted.kept _ _,
    fun link => State.chaseNoted_edit_other (by simp [link]) _ _ _ _, ?_⟩
  rw [State.placed_chan]
  exact noted.told (Nat.succ_pos _)

/-- The fifth LEAD seek of a chase of the link is a fault (R78). -/
theorem Moves.cannotCatch (many : 4 ≤ c.seeks) (acts : c.active = true) (enabled : p.presence ≠ .disabled)
    (link : c.owner = some .link) : ∃ u, ((B.placed d p c).chaseRule d x).repost d = u ∧
      u.chan d = c.faulted .cannotCatch ∧ u.port d = servoPosted p s.fmt .stop c.gen c.loc ∧ Kept s u d ∧
      u.edit = B.edit ∧ Entered s u .chaseState (Deck.num d) ((u.chan d).noticeContent c.st .fault) (times + 1) := by
  have other : c.owner ≠ some .sequencer := by simp [link]
  rw [moves.chaseRule_calls uncued plays frame calls,
    State.placed_leadSeek_fault (moves.expired.trans running) (moves.safeStop.trans free) first many acts enabled other,
    State.placed_repost (fun _ => rfl) (fun rolls => ChaseState.noConfusion rolls), moves.fmt]
  have noted := moves.noted c (c.faulted .cannotCatch) .fault
  refine ⟨_, rfl, State.placed_chan .., State.placed_port .., noted.kept _ _, State.chaseNoted_edit_other other _ _ _ _, ?_⟩
  rw [State.placed_chan]
  exact noted.told (Nat.succ_pos _)

end

end

end

section
variable {c : Channel} {f : SuiteFormat} {n : Nat}

theorem Channel.leadDue_iff : c.leadDue f n = true ↔ ∀ g, c.kind = some .lead → c.target = some g → 1 ≤ f.d n g := by
  unfold Channel.leadDue
  split
  · next g kind target =>
    rw [decide_eq_true_iff]
    exact ⟨fun due g' _ same => Option.some.inj (target.symm.trans same) ▸ due, fun due => due g kind target⟩
  · next other => exact ⟨fun _ g kind target => absurd target (other g kind), fun _ => rfl⟩

theorem Channel.followDue_iff :
    c.followDue f n = true ↔ ∀ g, c.kind = some .follow → c.target = some g → 25 < (f.d n g).natAbs := by
  unfold Channel.followDue
  split
  · next g kind target =>
    rw [decide_eq_true_iff]
    exact ⟨fun due g' _ same => Option.some.inj (target.symm.trans same) ▸ due, fun due => due g kind target⟩
  · next other => exact ⟨fun _ g kind target => absurd target (other g kind), fun _ => rfl⟩

theorem Channel.reposted_same (locate : c.relocate = false) (play : c.replay = false) : c.reposted = c :=
  (congrArg₂ (fun a b => ({ c with relocate := a, replay := b } : Channel)) locate play).symm

end

theorem Port.parked_iff (p : Port) : p.parked = true ↔ p.fresh = true ∧ p.flag 6 = true := by simp [Port.parked]

/-- The sample at which nothing is called for leaves the channel as it is, but for what it reads. -/
theorem exec_chaseSample_waits {s : State} {d : Deck} (up : s.asserted = false) (owed : 0 < s.due.chase[d.val])
    (free : s.safeStop = false) {x : Sample} (reads : s.sampleOf d s.due.chase[d.val] = x)
    (waits : ((s.chan d).st = .parked ∧ x.cond = .noPosition) ∨ ((s.chan d).st = .seek ∧
      ¬((s.chan d).acked = true ∧ (s.port d).parked = true) ∧ (s.chan d).relocate = false ∧
      (x.cond = .noPosition ∨ (x.cond = .atPlay ∧ ∃ n, x.frame s.fmt = some n ∧ (s.chan d).leadDue s.fmt n = false)))) :
    exec (.chaseSample d) s = .next ((s.sampleTaken d).setChan d ((s.chan d).seen x).reposted) := by
  have acts : (s.chan d).active = true := by
    rw [Channel.active_iff]
    rcases waits with ⟨parked, _⟩ | ⟨seek, _⟩
    · simp [parked]
    · simp [seek]
  rw [exec_chaseSample up owed free acts, reads, State.setChan_placed]
  refine congrArg Host.Outcome.next ?_
  rcases waits with ⟨parked, lost⟩ | ⟨seek, uncued, noLocate, still⟩
  · rw [State.chaseRule_parked_waits (s := s.sampleTaken d) (c := (s.chan d).seen x) parked (.inl lost)]
    exact State.placed_repost (c := (s.chan d).seen x) (fun is => ChaseState.noConfusion (parked.symm.trans is))
      fun is => ChaseState.noConfusion (parked.symm.trans is)
  · rw [State.chaseRule_seek_waits (s := s.sampleTaken d) (c := (s.chan d).seen x) seek (fun _ => uncued)
      (still.imp_right .inl)]
    exact State.placed_repost (c := (s.chan d).seen x) (fun _ => noLocate) fun is => ChaseState.noConfusion (seek.symm.trans is)

/-- A sample of deck d's channel comes to the rule of c at B, after the moves made so far. -/
structure Stage (s B : State) (d : Deck) (x : Sample) (c : Channel) (times : Nat) (v : List Val) : Prop where
  runs : exec (.chaseSample d) s = .next (((B.placed d (s.port d) c).chaseRule d x).repost d)
  moves : Moves (s.sampleTaken d) B d times v
  uncued : c.Uncued (s.port d)
  acts : c.active = true
  edit : (s.chan d).owner = some .link → B.edit = s.edit

section
variable {s : State} {d : Deck} (up : s.asserted = false) (owed : 0 < s.due.chase[d.val]) (free : s.safeStop = false)
  {x : Sample} (reads : s.sampleOf d s.due.chase[d.val] = x)
include up owed free reads

/-- Without a completion the rule is that of the state it stands in. -/
theorem Stage.plain (acts : (s.chan d).active = true)
    (uncued : ¬((s.chan d).st = .seek ∧ (s.chan d).acked = true ∧ (s.port d).fresh = true ∧ (s.port d).flag 6 = true)) :
    Stage s (s.sampleTaken d) d x ((s.chan d).seen x) 0 [] where
  runs := by
    rw [← reads]
    exact exec_chaseSample up owed free acts
  moves := Moves.refl _ d []
  uncued seek both := uncued ⟨seek, both.1, (Port.parked_iff _).mp both.2⟩
  acts := acts
  edit _ := rfl

/-- With one it is that of PARKED. -/
theorem Stage.parks
    (cued : (s.chan d).st = .seek ∧ (s.chan d).acked = true ∧ (s.port d).fresh = true ∧ (s.port d).flag 6 = true) :
    Stage s ((s.sampleTaken d).chaseNoted d ((s.chan d).seen x) ((s.chan d).seen x).parks .cueDone) d x
      ((s.chan d).seen x).parks 1 (((s.chan d).seen x).parks.noticeContent .seek .cueDone) where
  runs := by
    rw [← reads]
    exact exec_chaseSample_parks up owed free (by rw [Channel.active_iff]; simp [cued.1]) cued.1
      ⟨cued.2.1, (Port.parked_iff _).mpr cued.2.2⟩
  moves := by
    have noted := (Moves.refl (s.sampleTaken d) d []).noted ((s.chan d).seen x) ((s.chan d).seen x).parks .cueDone
    rwa [show ((s.chan d).seen x).st = .seek from cued.1] at noted
  uncued seek := ChaseState.noConfusion seek
  acts := rfl
  edit link := State.chaseNoted_edit_other (s := s.sampleTaken d) (old := (s.chan d).seen x)
    (fun other => by
      have owner : (s.chan d).owner = some .sequencer := other
      simp [link] at owner) _ _ _

end

end Sys2Proof.Machine

namespace Sys2Proof.Proofs

open Sys2Proof.Machine Sys2Proof.Safety

/-- Settles O23: a sample is its channel's rule, after the completion of a LOCATE where there is one (log 21). -/
theorem seeksFollowLeadAndPark : Obligations.SeeksFollowLeadAndPark := by
  unfold Obligations.SeeksFollowLeadAndPark
  refine ⟨fun s d up owed still => ?_, fun s d up owed free => ?_, fun s d up owed free running first enabled => ?_⟩
  · refine exec_chaseSample_idle up owed ?_
    rcases still with idle | fault | stops
    · exact .inl (by simp [Channel.active, idle])
    · exact .inl (by simp [Channel.active, fault])
    · exact .inr stops
  · intro c x cued waits
    refine exec_chaseSample_waits up owed free rfl (waits.imp_right fun ⟨seek, uncued, noLocate, still⟩ =>
      ⟨seek, fun both => uncued ⟨both.1, (Port.parked_iff _).mp both.2⟩, noLocate, still.imp_right ?_⟩)
    rintro ⟨plays, kind, n, g, frame, goal, behind⟩
    refine ⟨plays, n, frame, Bool.eq_false_iff.mpr fun due => ?_⟩
    have := Channel.leadDue_iff.mp due g kind goal
    omega
  · intro c f x seen cued located keeps posts parks old times called
    have stay {u : State} (k : Kept (s.sampleTaken d) u d) (edit : c.owner = some .link → u.edit = s.edit) : keeps u :=
      ⟨k.others, k.readers, k.list, k.run, k.engine, k.gpi, k.set, k.replies, edit⟩
    have stopsEdit {c1 B v k} (stage : Stage s B d x c1 k v) {u : State} (same : u.edit = B.edit)
        (link : c.owner = some .link) : u.edit = s.edit := same.trans (stage.edit link)
    have following (link : c.owner = some .link) (stopped : x.cond = .stopped) (c1 : Channel)
        (same : c1.owner = c.owner) : c1.mustFollow x = true := (Channel.mustFollow_iff _ _).mpr ⟨same.trans link, stopped⟩
    have acting {n} (calls : called n) : c.active = true := by
      rw [Channel.active_iff]
      rcases calls with ⟨st, _⟩ | ⟨st | st, _⟩ | ⟨st | ⟨st, _⟩, _⟩
      · simp [st]
      · simp [st]
      · simp [st.1]
      · simp [st]
      · simp [st]
    have parked {n} (is : parks) (calls : called n) : ((c.seen x).parks).Calls (s.sampleTaken d) d x n := by
      rcases calls with ⟨_, uncued, _⟩ | ⟨_, goes⟩ | ⟨st | ⟨st, _⟩, _⟩
      · exact absurd is.2 uncued
      · exact .inr (.inl ⟨rfl, goes⟩)
      · exact ChaseState.noConfusion (is.1.symm.trans st)
      · exact ChaseState.noConfusion (is.1.symm.trans st)
    have unparked {n} (isNot : ¬parks) (calls : called n) : (c.seen x).Calls (s.sampleTaken d) d x n := by
      rcases calls with ⟨st, _, due⟩ | ⟨st, goes⟩ | ⟨st, e, err, far⟩
      · exact .inl ⟨st, Channel.leadDue_iff.mpr due⟩
      · exact .inr (.inl ⟨st.resolve_right isNot, goes⟩)
      · obtain ⟨p, q, slave, target⟩ := State.sampleOf_err err
        exact .inr (.inr ⟨st, p, q, e, slave, target, err, decide_eq_true far⟩)
    refine ⟨fun n acts link stopped frame due => ?_, fun n g acts link stopped frame kind goal near noLocate noPlay => ?_,
      fun n plays frame calls few => ?_, fun n plays frame calls many link => ?_, fun seek is waits => ?_⟩
    · by_cases is : parks
      · have stage := Stage.parks up owed free rfl is
        obtain ⟨u, ends, chan, port, kept, edit, told, _⟩ := stage.moves.follows running free first stage.acts stage.uncued
          (following link stopped _ rfl) frame (Channel.followDue_iff.mpr due)
        refine ⟨u, stage.runs.trans (congrArg Host.Outcome.next ends), chan, port, stay kept (stopsEdit stage edit),
          fun _ => ?_, fun _ isNot => absurd is isNot⟩
        simp only [old, times, if_pos is]
        exact (told ChaseState.noConfusion).told
      · have stage := Stage.plain up owed free rfl acts is
        obtain ⟨u, ends, chan, port, kept, edit, told, silent⟩ := stage.moves.follows running free first stage.acts
          stage.uncued (following link stopped _ rfl) frame (Channel.followDue_iff.mpr due)
        refine ⟨u, stage.runs.trans (congrArg Host.Outcome.next ends), chan, port, stay kept (stopsEdit stage edit),
          fun new => ?_, fun seek _ => silent seek⟩
        simp only [old, times, if_neg is]
        exact (told (new.resolve_right is)).told
    · have waits (c1 : Channel) (goals : c1.kind = c.kind ∧ c1.target = c.target) : c1.followDue f n = false := by
        refine Bool.eq_false_iff.mpr fun due => ?_
        have := Channel.followDue_iff.mp due g (goals.1.trans kind) (goals.2.trans goal)
        omega
      by_cases is : parks
      · have stage := Stage.parks up owed free rfl is
        have ends := (congrArg (State.repost · d) ((State.chaseRule_follows (s := (s.sampleTaken d).chaseNoted d _ _ _)
          stage.acts stage.uncued (following link stopped _ rfl)).trans (State.followTest_still
            (by rw [stage.moves.fmt]; exact frame) (by rw [stage.moves.fmt]; exact waits _ ⟨rfl, rfl⟩)))).trans
          (State.placed_repost (fun _ => rfl) fun rolls => ChaseState.noConfusion rolls)
        refine ⟨_, stage.runs.trans (congrArg Host.Outcome.next ends), State.placed_port .., stay (stage.moves.kept _ _)
          fun _ => stage.edit link, fun _ => ⟨?_, ?_⟩, fun isNot => absurd is isNot⟩
        · rw [State.placed_chan]
          refine (Channel.reposted_same (c := (c.seen x).parks) rfl noPlay).trans ?_
          exact congrArg (fun b => ({ c.seen x with st := .parked, relocate := b } : Channel)) noLocate.symm
        · rw [ChaseTold, State.placed_chan]
          exact (stage.moves.told Nat.one_pos).told
      · have stage := Stage.plain up owed free rfl acts is
        have ends := (congrArg (State.repost · d) ((State.chaseRule_follows (s := s.sampleTaken d)
          stage.acts stage.uncued (following link stopped _ rfl)).trans (State.followTest_still frame
            (waits _ ⟨rfl, rfl⟩)))).trans (State.placed_repost (fun _ => noLocate) fun _ => noPlay)
        refine ⟨_, stage.runs.trans (congrArg Host.Outcome.next ends), State.placed_port .., stay (stage.moves.kept _ _)
          fun _ => rfl, fun yes => absurd yes is, fun _ => ⟨?_, rfl⟩⟩
        rw [State.placed_chan]
        exact Channel.reposted_same noLocate noPlay
    · by_cases is : parks
      · have stage := Stage.parks up owed free rfl is
        obtain ⟨u, ends, chan, port, kept, edit, told⟩ := stage.moves.leads running free first stage.uncued plays frame
          (parked is calls) few
        refine ⟨u, stage.runs.trans (congrArg Host.Outcome.next ends), chan, port,
          stay kept fun link => stopsEdit stage (edit link) link, ?_⟩
        simp only [old, times, if_pos is]
        exact told.told
      · have stage := Stage.plain up owed free rfl (acting calls) is
        obtain ⟨u, ends, chan, port, kept, edit, told⟩ := stage.moves.leads running free first stage.uncued plays frame
          (unparked is calls) few
        refine ⟨u, stage.runs.trans (congrArg Host.Outcome.next ends), chan, port,
          stay kept fun link => stopsEdit stage (edit link) link, ?_⟩
        simp only [old, times, if_neg is]
        exact told.told
    · by_cases is : parks
      · have stage := Stage.parks up owed free rfl is
        obtain ⟨u, ends, chan, port, kept, edit, told⟩ := stage.moves.cannotCatch running free first stage.uncued plays frame
          (parked is calls) many stage.acts enabled link
        refine ⟨u, stage.runs.trans (congrArg Host.Outcome.next ends), chan, port,
          stay kept (stopsEdit stage edit), ?_⟩
        simp only [old, times, if_pos is]
        exact told.told
      · have stage := Stage.plain up owed free rfl (acting calls) is
        obtain ⟨u, ends, chan, port, kept, edit, told⟩ := stage.moves.cannotCatch running free first stage.uncued plays frame
          (unparked is calls) many stage.acts enabled link
        refine ⟨u, stage.runs.trans (congrArg Host.Outcome.next ends), chan, port,
          stay kept (stopsEdit stage edit), ?_⟩
        simp only [old, times, if_neg is]
        exact told.told
    · have stage := Stage.parks up owed free rfl ⟨seek, is⟩
      have rule := State.chaseRule_parked_waits (s := (s.sampleTaken d).chaseNoted d (c.seen x) (c.seen x).parks .cueDone)
        (d := d) (p := s.port d) (c := (c.seen x).parks) (x := x) rfl (by rw [stage.moves.fmt]; exact waits)
      have ends := (congrArg (State.repost · d) rule).trans
        (State.placed_repost (fun _ => rfl) fun rolls => ChaseState.noConfusion rolls)
      refine ⟨_, stage.runs.trans (congrArg Host.Outcome.next ends), State.placed_chan .., State.placed_port ..,
        stay (stage.moves.kept _ _) stage.edit, ?_⟩
      rw [ChaseTold, State.placed_chan]
      exact (stage.moves.told Nat.one_pos).told

end Sys2Proof.Proofs

/-! ## O24: a driven channel from ROLLING to LOCKED and back -/

namespace Sys2Proof.Machine

open Sys2Proof.Safety

/-! ### The speed (R82, R83) -/

/-- The speed of a VARISPEED that waits in the SERVO slot. -/
def Port.waitingSpeed (p : Port) : Option Nat := p.servo.bind fun x => match x.cmd with
  | .varispeed w => some w
  | _ => none

section
variable {s B : State} {d : Deck} {p : Port} {c : Channel} {x : Sample} {e : Int} {times : Nat} {v : List Val}

theorem State.speedRef_placed : (s.placed d p c).speedRef d = p.waitingSpeed.orElse fun _ => c.speed := by
  unfold State.speedRef Port.waitingSpeed
  rw [State.placed_port, State.placed_chan]
  cases p.servo with
  | none => rfl
  | some k =>
    obtain ⟨cmd, gen, loc⟩ := k
    cases cmd <;> rfl

/-- The speed of the law is posted where it differs. -/
theorem State.placed_drive (running : s.link.expired = false) (free : s.safeStop = false) (first : ServoFirst p)
    (acts : c.active = true) (e : Int) : (s.placed d p c).drive d e =
      s.placed d (driven (s.placed d p c) d e).1 { c with speed := (driven (s.placed d p c) d e).2 } := by
  let w := (s.placed d p c).speedLaw d e
  have law : driven (s.placed d p c) d e = if (p.waitingSpeed.orElse fun _ => c.speed) = some w then (p, c.speed)
      else if p.line = .idle then
        (servoPosted p s.fmt (p.clampSpeed (.varispeed w)) c.gen c.loc, some (clamp p.range.1 p.range.2 w))
      else (servoPosted p s.fmt (.varispeed w) c.gen c.loc, c.speed) := by
    have port : (s.placed d p c).port d = p := State.placed_port ..
    have chan : (s.placed d p c).chan d = c := State.placed_chan ..
    have bounds : w = ((s.placed d p c).speedLaw d e) := rfl
    simp only [State.speedLaw, State.speedBounds, port, Nat.cast_ite] at bounds
    simp only [driven, port, chan]
    rw [bounds]
    rfl
  unfold State.drive
  rw [law, State.speedRef_placed]
  by_cases same : (p.waitingSpeed.orElse fun _ => c.speed) = some w
  · rw [if_pos same, if_pos same]
  · rw [if_neg same, if_neg same, State.placed_postServo running free first rfl acts, Port.servoCmd, Channel.servoTold]
    by_cases idle : p.line = .idle
    · simp only [if_pos idle]
      rfl
    · simp only [if_neg idle]
      rfl

/-! ### Window and unlock (R84, R85) -/

/-- The count of samples within the lock window, one more. -/
def Channel.hits (c : Channel) : Nat := min 25 (c.inWin + 1)

/-- The channel in LOCKED. -/
def Channel.locks (c : Channel) (lead : Nat) : Channel :=
  { c with st := .locked, inWin := c.hits, outWin := 0, seeks := 0, lead := lead }

section
variable (hit : e.natAbs ≤ s.set.lockWin ∧ (s.reader d).src.isLtc = true)
include hit

theorem State.placed_windowTest_locks (last : s.set.lockCount ≤ c.hits) : (s.placed d p c).windowTest d e =
    (s.chaseNoted d c (c.locks s.set.lead) .lock).placed d p (c.locks s.set.lead) := by
  unfold State.windowTest
  simp only [State.placed_chan, State.placed_set, State.placed_reader]
  rw [if_pos hit]
  exact (if_pos last).trans (State.placed_chanMove ..)

theorem State.placed_windowTest_hit (more : c.hits < s.set.lockCount) :
    (s.placed d p c).windowTest d e = s.placed d p { c with inWin := c.hits } := by
  unfold State.windowTest
  simp only [State.placed_chan, State.placed_set, State.placed_reader]
  rw [if_pos hit]
  exact (if_neg (not_le.mpr more)).trans (State.placed_setChan ..)

end

theorem State.placed_windowTest_out (out : s.set.lockWin < e.natAbs ∨ (s.reader d).src.isLtc = false) :
    (s.placed d p c).windowTest d e = s.placed d p { c with inWin := 0 } := by
  unfold State.windowTest
  simp only [State.placed_chan, State.placed_set, State.placed_reader]
  refine (if_neg fun hit => ?_).trans (State.placed_setChan ..)
  rcases out with beyond | other
  · exact absurd hit.1 (not_le.mpr beyond)
  · exact Bool.false_ne_true (other.symm.trans hit.2)

theorem State.placed_unlockTest_within (within : e.natAbs ≤ s.set.unlockWin) :
    (s.placed d p c).unlockTest d e = s.placed d p { c with outWin := 0 } := by
  unfold State.unlockTest
  simp only [State.placed_chan, State.placed_set]
  exact (if_neg (not_lt.mpr within)).trans (State.placed_setChan ..)

section
variable (beyond : s.set.unlockWin < e.natAbs)
include beyond

theorem State.placed_unlockTest_first (none : c.outWin = 0) :
    (s.placed d p c).unlockTest d e = s.placed d p { c with outWin := 1 } := by
  unfold State.unlockTest
  simp only [State.placed_chan, State.placed_set]
  rw [if_pos beyond, if_neg (by omega), none]
  exact State.placed_setChan ..

theorem State.placed_unlockTest_again (some : 1 ≤ c.outWin) : (s.placed d p c).unlockTest d e =
    (s.chaseNoted d c { c with st := .varispeed, inWin := 0, outWin := 0 } .unlockError).placed d p
      { c with st := .varispeed, inWin := 0, outWin := 0 } := by
  unfold State.unlockTest
  simp only [State.placed_chan, State.placed_set]
  rw [if_pos beyond, if_pos (by omega)]
  exact State.placed_chanMove ..

end

/-! ### The rules of VARISPEED, LOCKED and ROLLING (R81, R84 to R86) -/

/-- The channel that rolls again, its slave without a position. -/
def Channel.rollsAgain (c : Channel) (p : Port) : Channel :=
  { c with st := .rolling, roll := p.playStart + 25, inWin := 0, outWin := 0, replay := false }

theorem State.placed_positionLost : (s.placed d p c).positionLost d =
    (s.chaseNoted d c (c.rollsAgain p) .positionLost).placed d p (c.rollsAgain p) := by
  unfold State.positionLost
  rw [State.placed_chan, State.placed_port]
  exact State.placed_chanMove ..

section
variable (driven' : c.mustFollow x = false)
include driven'

theorem State.varispeedRule_lost (slave : x.slave = none) : (s.placed d p c).varispeedRule d x =
    (s.chaseNoted d c (c.rollsAgain p) .positionLost).placed d p (c.rollsAgain p) := by
  unfold State.varispeedRule
  simp only [State.placed_chan, driven', Bool.false_eq_true, if_false, slave]
  exact State.placed_positionLost

theorem State.lockedRule_lost (slave : x.slave = none) : (s.placed d p c).lockedRule d x =
    (s.chaseNoted d c (c.rollsAgain p) .positionLost).placed d p (c.rollsAgain p) := by
  unfold State.lockedRule
  simp only [State.placed_chan, driven', Bool.false_eq_true, if_false, slave]
  exact State.placed_positionLost

section
variable {q : Nat} (slave : x.slave = some q)
include slave

theorem State.varispeedRule_masterless (target : x.target = none) :
    (s.placed d p c).varispeedRule d x = s.placed d p { c with inWin := 0 } := by
  unfold State.varispeedRule
  simp only [State.placed_chan, driven', Bool.false_eq_true, if_false, slave, target]
  exact State.placed_setChan ..

theorem State.lockedRule_masterless (target : x.target = none) : (s.placed d p c).lockedRule d x =
    (s.chaseNoted d c { c with st := .varispeed, inWin := 0 }
      (if (s.reader d).src = .line then .unlockSource else .noMaster)).placed d p
        { c with st := .varispeed, inWin := 0 } := by
  unfold State.lockedRule
  simp only [State.placed_chan, driven', Bool.false_eq_true, if_false, slave, target]
  exact State.placed_chanMove ..

variable {r : Nat} (target : x.target = some r) (err : x.err = some e)
include target err

theorem State.varispeedRule_near (near : s.far e = false) :
    (s.placed d p c).varispeedRule d x = ((s.placed d p c).drive d e).windowTest d e := by
  unfold State.varispeedRule
  simp only [State.placed_chan, driven', Bool.false_eq_true, if_false, slave, target, err]
  exact if_neg (ne_true_of_eq_false near)

theorem State.lockedRule_near (other : (s.reader d).src ≠ .line) (near : s.far e = false) :
    (s.placed d p c).lockedRule d x = ((s.placed d p c).drive d e).unlockTest d e := by
  unfold State.lockedRule
  simp only [State.placed_chan, driven', Bool.false_eq_true, if_false, slave, target, err]
  exact (if_neg other).trans (if_neg (ne_true_of_eq_false near))

theorem State.lockedRule_line (line : (s.reader d).src = .line) : (s.placed d p c).lockedRule d x =
    ((s.chaseNoted d c { c with st := .varispeed, inWin := 0 } .unlockSource).placed d p
      { c with st := .varispeed, inWin := 0 }).drive d e := by
  unfold State.lockedRule
  simp only [State.placed_chan, driven', Bool.false_eq_true, if_false, slave, target, err]
  refine (if_pos line).trans ?_
  exact congrArg (State.drive · d e) (State.placed_chanMove ..)

end

theorem State.rollingRule_atSpeed (speed : s.atSpeed d = true) : (s.placed d p c).rollingRule d x =
    ((s.chaseNoted d c { c with st := .varispeed } .atSpeed).placed d p { c with st := .varispeed }).varispeedRule d x := by
  unfold State.rollingRule
  simp only [State.placed_chan, driven', Bool.false_eq_true, if_false]
  refine (if_pos speed).trans ?_
  exact congrArg (State.varispeedRule · d x) (State.placed_chanMove ..)

theorem State.rollingRule_counts (slow : s.atSpeed d = false) (more : 2 ≤ c.roll) :
    (s.placed d p c).rollingRule d x = s.placed d p { c with roll := c.roll - 1 } := by
  unfold State.rollingRule
  simp only [State.placed_chan, driven', Bool.false_eq_true, if_false]
  exact (if_neg (ne_true_of_eq_false slow)).trans ((if_neg (by omega)).trans (State.placed_setChan ..))

end

end

/-- The law reads of a state deck d's port, its channel's numbers and last speed, and the settings. -/
theorem driven_congr {s t : State} {d : Deck} (port : t.port d = s.port d) (gen : (t.chan d).gen = (s.chan d).gen)
    (loc : (t.chan d).loc = (s.chan d).loc) (speed : (t.chan d).speed = (s.chan d).speed) (fmt : t.fmt = s.fmt)
    (set : t.set = s.set) (e : Int) : driven t d e = driven s d e := by
  simp only [driven, port, gen, loc, speed, fmt, set]

/-- A channel that acts on deck d's own numbers and last speed, and follows no STOPPED master, comes to a rule at B. -/
structure Drives (s B : State) (d : Deck) (x : Sample) (c : Channel) (times : Nat) (v : List Val) : Prop where
  moves : Moves (s.sampleTaken d) B d times v
  running : s.link.expired = false
  free : s.safeStop = false
  first : ServoFirst (s.port d)
  acts : c.active = true
  must : c.mustFollow x = false
  gen : c.gen = (s.chan d).gen
  loc : c.loc = (s.chan d).loc
  speed : c.speed = (s.chan d).speed

namespace Drives

variable {s B : State} {d : Deck} {c : Channel} {x : Sample} {times : Nat} {v : List Val} (h : Drives s B d x c times v)
include h

theorem drive (e : Int) : (B.placed d (s.port d) c).drive d e =
    B.placed d (driven s d e).1 { c with speed := (driven s d e).2 } := by
  have law : driven (B.placed d (s.port d) c) d e = driven s d e :=
    driven_congr (State.placed_port ..) (by rw [State.placed_chan, h.gen]; rfl) (by rw [State.placed_chan, h.loc]; rfl)
      (by rw [State.placed_chan, h.speed]; rfl) h.moves.fmt h.moves.set e
  rw [State.placed_drive (h.moves.expired.trans h.running) (h.moves.safeStop.trans h.free) h.first h.acts, law]

variable {e : Int} {p q : Nat} (slave : x.slave = some p) (target : x.target = some q) (err : x.err = some e)
  (near : e.natAbs ≤ s.set.seekWin * s.fmt.lpf)

theorem isNear (near : e.natAbs ≤ s.set.seekWin * s.fmt.lpf) : B.far e = false := by
  rw [State.far, h.moves.set, h.moves.fmt]
  exact decide_eq_false (not_lt.mpr near)

include slave target err near

section
variable (hit : e.natAbs ≤ s.set.lockWin ∧ (s.reader d).src.isLtc = true)
include hit

theorem locks (last : s.set.lockCount ≤ c.hits) : (B.placed d (s.port d) c).varispeedRule d x =
    (B.chaseNoted d { c with speed := (driven s d e).2 } ({ c with speed := (driven s d e).2 }.locks s.set.lead)
      .lock).placed d (driven s d e).1 ({ c with speed := (driven s d e).2 }.locks s.set.lead) := by
  have set : B.set = s.set := h.moves.set
  have reader : B.reader d = s.reader d := h.moves.reader d
  rw [State.varispeedRule_near h.must slave target err (h.isNear near), h.drive,
    State.placed_windowTest_locks (by rw [set, reader]; exact hit) (by rw [set]; exact last), set]

theorem counts (more : c.hits < s.set.lockCount) : (B.placed d (s.port d) c).varispeedRule d x =
    B.placed d (driven s d e).1 { c with speed := (driven s d e).2, inWin := c.hits } := by
  have set : B.set = s.set := h.moves.set
  have reader : B.reader d = s.reader d := h.moves.reader d
  rw [State.varispeedRule_near h.must slave target err (h.isNear near), h.drive,
    State.placed_windowTest_hit (by rw [set, reader]; exact hit) (by rw [set]; exact more)]
  rfl

end

theorem misses (out : s.set.lockWin < e.natAbs ∨ (s.reader d).src.isLtc = false) :
    (B.placed d (s.port d) c).varispeedRule d x =
      B.placed d (driven s d e).1 { c with speed := (driven s d e).2, inWin := 0 } := by
  have set : B.set = s.set := h.moves.set
  have reader : B.reader d = s.reader d := h.moves.reader d
  rw [State.varispeedRule_near h.must slave target err (h.isNear near), h.drive,
    State.placed_windowTest_out (by rw [set, reader]; exact out)]

section
variable (other : (s.reader d).src ≠ .line)
include other

theorem staysLocked (within : e.natAbs ≤ s.set.unlockWin) : (B.placed d (s.port d) c).lockedRule d x =
    B.placed d (driven s d e).1 { c with speed := (driven s d e).2, outWin := 0 } := by
  have set : B.set = s.set := h.moves.set
  have reader : B.reader d = s.reader d := h.moves.reader d
  rw [State.lockedRule_near h.must slave target err (by rw [reader]; exact other) (h.isNear near), h.drive,
    State.placed_unlockTest_within (by rw [set]; exact within)]

section
variable (beyond : s.set.unlockWin < e.natAbs)
include beyond

theorem beyondOnce (none : c.outWin = 0) : (B.placed d (s.port d) c).lockedRule d x =
    B.placed d (driven s d e).1 { c with speed := (driven s d e).2, outWin := 1 } := by
  have set : B.set = s.set := h.moves.set
  have reader : B.reader d = s.reader d := h.moves.reader d
  rw [State.lockedRule_near h.must slave target err (by rw [reader]; exact other) (h.isNear near), h.drive,
    State.placed_unlockTest_first (c := { c with speed := (driven s d e).2 }) (by rw [set]; exact beyond) none]

theorem unlocks (some : 1 ≤ c.outWin) : (B.placed d (s.port d) c).lockedRule d x =
    (B.chaseNoted d { c with speed := (driven s d e).2 }
      { c with speed := (driven s d e).2, st := .varispeed, inWin := 0, outWin := 0 } .unlockError).placed d
      (driven s d e).1 { c with speed := (driven s d e).2, st := .varispeed, inWin := 0, outWin := 0 } := by
  have set : B.set = s.set := h.moves.set
  have reader : B.reader d = s.reader d := h.moves.reader d
  rw [State.lockedRule_near h.must slave target err (by rw [reader]; exact other) (h.isNear near), h.drive,
    State.placed_unlockTest_again (c := { c with speed := (driven s d e).2 }) (by rw [set]; exact beyond) some]

end

end

end Drives

section
variable {s : State} {d : Deck} {p : Port} {c : Channel} {x : Sample}

theorem State.chaseRule_rolling (st : c.st = .rolling) :
    (s.placed d p c).chaseRule d x = (s.placed d p c).rollingRule d x := by rw [State.chaseRule, State.placed_chan, st]

theorem State.chaseRule_varispeed (st : c.st = .varispeed) :
    (s.placed d p c).chaseRule d x = (s.placed d p c).varispeedRule d x := by rw [State.chaseRule, State.placed_chan, st]

theorem State.chaseRule_locked (st : c.st = .locked) :
    (s.placed d p c).chaseRule d x = (s.placed d p c).lockedRule d x := by rw [State.chaseRule, State.placed_chan, st]

end

/-- A channel that was not LOCKED moves without the edit. -/
theorem State.chaseNoted_edit_unlocked {old : Channel} (unlocked : old.st ≠ .locked) (s : State) (d : Deck) (new : Channel)
    (why : ChaseCause) : (s.chaseNoted d old new why).edit = s.edit := by
  rw [State.chaseNoted, State.leftLocked, if_neg fun all => unlocked all.1, State.enter_edit]

theorem Edit.syncGuarded_iff (e : Edit) :
    e.syncGuarded = true ↔ e.syncPassed = true ∧ (e.phase = .rolling ∨ e.phase = .editing) := by simp [Edit.syncGuarded]

/-- The edit after a channel has come to a state. -/
def Edit.hears (e : Edit) (c : Channel) (st : ChaseState) : Edit :=
  if c.st = .locked ∧ st ≠ .locked ∧ c.owner = some .sequencer ∧ e.syncGuarded = true then
    { e with warns := { e.warns with sync := true } }
  else e

theorem Edit.hears_none (e : Edit) {c : Channel} {st : ChaseState} (none : c.st = .locked → st = .locked) :
    e.hears c st = e := if_neg fun all => all.2.1 (none all.1)

end Sys2Proof.Machine

namespace Sys2Proof.Proofs

open Sys2Proof.Machine Sys2Proof.Safety

/-- Settles O24: each sample is the rule of the channel's state, whose windows and moves are lemmas of their own. -/
theorem channelLocksAndUnlocks : Obligations.ChannelLocksAndUnlocks := by
  unfold Obligations.ChannelLocksAndUnlocks
  intro s d up owed free running first c x seen ltc near n moves stays becomes free' p speeds slow rolls
  have must (c1 : Channel) (owner : c1.owner = c.owner) : c1.mustFollow x = false := by
    refine Bool.eq_false_iff.mpr fun follows => ?_
    obtain ⟨link, stopped⟩ := (Channel.mustFollow_iff _ _).mp follows
    rcases free' with mine | moves
    · have both := (owner.trans mine).symm.trans link
      simp at both
    · exact moves stopped
  have isLtc : (s.reader d).src.isLtc = true ↔ ltc := Source.isLtc_iff _
  have done {B k v q new tells} (m : Moves (s.sampleTaken d) B d k v) (acts : c.active = true) (st : c.st ≠ .seek)
      (rule : ((s.sampleTaken d).placed d p (c.seen x)).chaseRule d x = B.placed d q new)
      (noLocate : new.st ≠ .seek) (noPlay : new.st = .rolling → new.replay = false)
      (edit : B.edit = s.edit.hears c new.st) (told : tells (B.placed d q new.reposted)) : becomes new.reposted q tells := by
    have stage := Stage.plain up owed free rfl acts fun seek => st seek.1
    have ends := (congrArg (State.repost · d) rule).trans
      (State.placed_repost (fun seek => absurd seek noLocate) noPlay)
    have kept := m.kept q new.reposted
    refine ⟨_, stage.runs.trans (congrArg Host.Outcome.next ends), State.placed_chan .., State.placed_port .., told,
      kept.others, kept.readers, kept.list, kept.run, kept.engine, kept.gpi, kept.set, kept.replies, fun unguarded => ?_, ?_⟩
    · exact edit.trans (if_neg fun all => Bool.false_ne_true (unguarded.symm.trans all.2.2.2))
    · refine edit.trans ?_
      rw [Edit.hears]
      simp only [Edit.syncGuarded_iff]
      rfl
  let s' := s.sampleTaken d
  have acts {st} (is : c.st = st) (drives : st = .rolling ∨ st = .varispeed ∨ st = .locked) :
      c.active = true ∧ c.st ≠ .seek := by
    rw [Channel.active_iff, is]
    rcases drives with rfl | rfl | rfl <;> simp
  have here {st} (is : c.st = st) (drives : st = .rolling ∨ st = .varispeed ∨ st = .locked) :
      Drives s s' d x (c.seen x) 0 [] :=
    ⟨Moves.refl s' d [], running, free, first, (acts is drives).1, must _ rfl, rfl, rfl, rfl⟩
  have move {st} (is : c.st = st) (drives : st = .rolling ∨ st = .varispeed ∨ st = .locked) (c1 : Channel)
      (old : c1.st = st) (new : Channel) (why : ChaseCause) :
      Moves s' (s'.chaseNoted d c1 new why) d 1 (new.noticeContent st why) := by
    rw [← old]
    exact (Moves.refl s' d []).noted c1 new why
  have unlocked {st} (is : c.st = st) (other : st ≠ .locked) (st' : ChaseState) : s.edit = s.edit.hears c st' :=
    (Edit.hears_none _ fun locks => absurd (is.symm.trans locks) other).symm
  let slow0 : Channel := { c.seen x with st := .varispeed }
  have rolled (is : speeds) : Drives s (s'.chaseNoted d (c.seen x) slow0 .atSpeed) d x slow0 1
      (slow0.noticeContent .rolling .atSpeed) :=
    ⟨move is.1 (.inl rfl) _ is.1 _ _, running, free, first, rfl, must _ rfl, rfl, rfl, rfl⟩
  have rolledRule (is : speeds) : (s'.placed d p (c.seen x)).chaseRule d x =
      ((s'.chaseNoted d (c.seen x) slow0 .atSpeed).placed d p slow0).varispeedRule d x :=
    (State.chaseRule_rolling (s := s') (c := c.seen x) is.1).trans (State.rollingRule_atSpeed (must _ rfl) is.2)
  have rolledEdit (is : speeds) : (s'.chaseNoted d (c.seen x) slow0 .atSpeed).edit = s.edit :=
    State.chaseNoted_edit_unlocked (old := c.seen x) (fun locks => ChaseState.noConfusion (is.1.symm.trans locks)) s' _ _ _
  refine ⟨fun is below more noPlay => ?_, fun e => ?_, fun some target => ?_, fun lost => ?_⟩
  · obtain ⟨on, st⟩ := acts is (.inl rfl)
    exact done (Moves.refl s' d []) on st ((State.chaseRule_rolling (s := s') (c := c.seen x) is).trans
      (State.rollingRule_counts (must _ rfl) below more)) st (fun _ => noPlay) (unlocked is (by simp) _) rfl
  · intro port new out hit locked
    refine ⟨fun is ⟨err, close⟩ => ?_, fun is ⟨err, close⟩ => ?_, fun is ⟨err, close⟩ other => ?_, fun is err line => ?_⟩
    · obtain ⟨q, r, slave, target⟩ := State.sampleOf_err err
      obtain ⟨on, st⟩ := acts is.1 (.inl rfl)
      have at' := rolled is
      have told := (at'.moves.told Nat.one_pos).told
      refine ⟨fun away => ?_, fun hits more => ?_, fun hits last => ?_⟩
      · exact done at'.moves on st ((rolledRule is).trans (at'.misses slave target err close
          (away.imp_right fun no => Bool.eq_false_iff.mpr fun yes => no (isLtc.mp yes)))) (by simp) (by simp)
          ((rolledEdit is).trans (unlocked is.1 (by simp) _)) told
      · exact done at'.moves on st ((rolledRule is).trans (at'.counts slave target err close
          ⟨hits.1, isLtc.mpr hits.2⟩ more)) (by simp) (by simp)
          ((rolledEdit is).trans (unlocked is.1 (by simp) _)) told
      · have moves2 := at'.moves.noted { slow0 with speed := (driven s d e).2 }
          ({ slow0 with speed := (driven s d e).2 }.locks s.set.lead) .lock
        exact done moves2 on st ((rolledRule is).trans (at'.locks slave target err close
          ⟨hits.1, isLtc.mpr hits.2⟩ last)) (by simp [Channel.locks]) (by simp [Channel.locks])
          ((State.chaseNoted_edit_unlocked (by simp) _ _ _ _).trans ((rolledEdit is).trans (unlocked is.1 (by simp) _)))
          (moves2.told (Nat.succ_pos _)).told
    · obtain ⟨q, r, slave, target⟩ := State.sampleOf_err err
      obtain ⟨on, st⟩ := acts is (.inr (.inl rfl))
      have at' := here is (.inr (.inl rfl))
      have rule := State.chaseRule_varispeed (s := s') (d := d) (p := p) (c := c.seen x) (x := x) is
      refine ⟨fun away => ?_, fun hits more => ?_, fun hits last => ?_⟩
      · exact done at'.moves on st (rule.trans (at'.misses slave target err close
          (away.imp_right fun no => Bool.eq_false_iff.mpr fun yes => no (isLtc.mp yes)))) st
          (fun rolls => ChaseState.noConfusion (is.symm.trans rolls)) (unlocked is (by simp) _) rfl
      · exact done at'.moves on st (rule.trans (at'.counts slave target err close
          ⟨hits.1, isLtc.mpr hits.2⟩ more)) st
          (fun rolls => ChaseState.noConfusion (is.symm.trans rolls)) (unlocked is (by simp) _) rfl
      · have moves1 := move is (.inr (.inl rfl)) { c.seen x with speed := (driven s d e).2 } is
          ({ c.seen x with speed := (driven s d e).2 }.locks s.set.lead) .lock
        exact done moves1 on st (rule.trans (at'.locks slave target err close
          ⟨hits.1, isLtc.mpr hits.2⟩ last)) (by simp [Channel.locks]) (by simp [Channel.locks])
          ((State.chaseNoted_edit_unlocked (fun locks => ChaseState.noConfusion (is.symm.trans locks)) _ _ _ _).trans
            (unlocked is (by simp) _)) (moves1.told Nat.one_pos).told
    · obtain ⟨q, r, slave, target⟩ := State.sampleOf_err err
      obtain ⟨on, st⟩ := acts is (.inr (.inr rfl))
      have at' := here is (.inr (.inr rfl))
      have rule := State.chaseRule_locked (s := s') (d := d) (p := p) (c := c.seen x) (x := x) is
      refine ⟨fun within => ?_, fun beyond none => ?_, fun beyond some => ?_⟩
      · exact done at'.moves on st (rule.trans (at'.staysLocked slave target err close other within)) st
          (fun rolls => ChaseState.noConfusion (is.symm.trans rolls)) (Edit.hears_none _ fun _ => is).symm rfl
      · exact done at'.moves on st (rule.trans (at'.beyondOnce slave target err close other beyond none)) st
          (fun rolls => ChaseState.noConfusion (is.symm.trans rolls)) (Edit.hears_none _ fun _ => is).symm rfl
      · have moves1 := move is (.inr (.inr rfl)) { c.seen x with speed := (driven s d e).2 } is
          { c.seen x with speed := (driven s d e).2, st := .varispeed, inWin := 0, outWin := 0 } .unlockError
        exact done moves1 on st (rule.trans (at'.unlocks slave target err close other beyond some)) (by simp) (by simp)
          (State.chaseNoted_edit s' d _ _ _ free) (moves1.told Nat.one_pos).told
    · obtain ⟨q, r, slave, target⟩ := State.sampleOf_err err
      obtain ⟨on, st⟩ := acts is (.inr (.inr rfl))
      let moved : Channel := { c.seen x with st := .varispeed, inWin := 0 }
      have moves1 := move is (.inr (.inr rfl)) (c.seen x) is moved .unlockSource
      have at' : Drives s (s'.chaseNoted d (c.seen x) moved .unlockSource) d x moved 1
          (moved.noticeContent .locked .unlockSource) :=
        ⟨moves1, running, free, first, rfl, must _ rfl, rfl, rfl, rfl⟩
      have rule := State.chaseRule_locked (s := s') (d := d) (p := p) (c := c.seen x) (x := x) is
      exact done moves1 on st ((rule.trans (State.lockedRule_line (must _ rfl) slave target err line)).trans (at'.drive e))
        (by simp [moved]) (by simp [moved]) (State.chaseNoted_edit s' d _ _ _ free) (moves1.told Nat.one_pos).told
  · obtain ⟨q, slave⟩ := Option.isSome_iff_exists.mp some
    refine ⟨fun is => ?_, fun is => ?_, fun is => ?_⟩
    · obtain ⟨on, st⟩ := acts is.1 (.inl rfl)
      exact done (rolled is).moves on st ((rolledRule is).trans (State.varispeedRule_masterless (must _ rfl) slave target))
        (by simp [slow0]) (by simp [slow0]) ((rolledEdit is).trans (unlocked is.1 (by simp) _))
        ((rolled is).moves.told Nat.one_pos).told
    · obtain ⟨on, st⟩ := acts is (.inr (.inr rfl))
      have moves1 := move is (.inr (.inr rfl)) (c.seen x) is { c.seen x with st := .varispeed, inWin := 0 }
        (if (s.reader d).src = .line then .unlockSource else .noMaster)
      exact done moves1 on st ((State.chaseRule_locked (s := s') (c := c.seen x) is).trans
        (State.lockedRule_masterless (must _ rfl) slave target)) (by simp) (by simp)
        (State.chaseNoted_edit s' d _ _ _ free) (moves1.told Nat.one_pos).told
    · obtain ⟨on, st⟩ := acts is (.inr (.inl rfl))
      exact done (Moves.refl s' d []) on st ((State.chaseRule_varispeed (s := s') (c := c.seen x) is).trans
        (State.varispeedRule_masterless (must _ rfl) slave target)) st
        (fun rolls => ChaseState.noConfusion (is.symm.trans rolls)) (unlocked is (by simp) _) rfl
  · refine ⟨fun is => ?_, fun is => ?_⟩
    · have drives : c.st = .rolling ∨ c.st = .varispeed ∨ c.st = .locked := .inr is
      obtain ⟨on, st⟩ := acts rfl drives
      have moves1 := move rfl drives (c.seen x) rfl ((c.seen x).rollsAgain p) .positionLost
      have rule : (s'.placed d p (c.seen x)).chaseRule d x =
          (s'.chaseNoted d (c.seen x) ((c.seen x).rollsAgain p) .positionLost).placed d p ((c.seen x).rollsAgain p) := by
        rcases is with is | is
        · exact (State.chaseRule_varispeed (s := s') (c := c.seen x) is).trans (State.varispeedRule_lost (must _ rfl) lost)
        · exact (State.chaseRule_locked (s := s') (c := c.seen x) is).trans (State.lockedRule_lost (must _ rfl) lost)
      exact done moves1 on st rule (by simp [Channel.rollsAgain]) (fun _ => rfl)
        (State.chaseNoted_edit s' d _ _ _ free) (moves1.told Nat.one_pos).told
    · obtain ⟨on, st⟩ := acts is.1 (.inl rfl)
      have moves2 := (rolled is).moves.noted slow0 (slow0.rollsAgain p) .positionLost
      exact done moves2 on st ((rolledRule is).trans (State.varispeedRule_lost (must _ rfl) lost))
        (by simp [Channel.rollsAgain]) (fun _ => rfl)
        ((State.chaseNoted_edit_unlocked (by simp [slow0]) _ _ _ _).trans ((rolledEdit is).trans (unlocked is.1 (by simp) _)))
        (moves2.told (Nat.succ_pos _)).told

end Sys2Proof.Proofs

/-! ## The end of a command on its line (R50, R53 to R55, R61) -/

namespace Sys2Proof.Machine

open Sys2Proof.Safety

/-- The port once its command has gone without a reply. -/
def Port.unanswered (p : Port) : Port := { p with flight := none, rx := none }

/-- The port whose line recovers at t after a reply that has not come. -/
def Port.lapsed (p : Port) (t : Time) : Port :=
  { p with fails := p.fails + 1, line := .recovering, late := .reply { bytes := [], bad := false }, replyFrom := t }

section
variable {s : State} {d : Deck} {t : Time} {x : Flight} (up : s.asserted = false) (awaits : (s.port d).line = .awaiting)
  (flight : (s.port d).flight = some x)
include up awaits flight

/-- A whole reply that is no failure and brings no data. -/
theorem exec_replied (noStray : (s.port d).stray = none) (noBytes : (s.port d).rx = none)
    (known : (s.port d).presence ≠ .disabled) {n c : LineChar} {cs : List LineChar} (low : 2 ≤ n.byte.toNat)
    (high : n.byte.toNat ≤ 18) (counted : cs.length + 1 = n.byte.toNat) {o : CmdOutcome DataReply}
    (judged : judgeReply x.cmd (RxFrame.empty.pushAll (n :: c :: cs)).bad (RxFrame.empty.pushAll (n :: c :: cs)).bytes = o)
    (replied : o.isFailure = false) (noData : ∀ y, o ≠ .data y) :
    ∃ received, exec (.deckReplyReceived d (n :: c :: cs) t) s =
      let h := ((s.tick t).setPort d ((s.port d).heard t)).handBack d x o received
      .next ((h.freed d o).hand d) := by
  let w := (s.tick t).setPort d ((s.port d).receiving (RxFrame.empty.pushAll (n :: c :: cs)) t)
  have here : w.port d = (s.port d).receiving (RxFrame.empty.pushAll (n :: c :: cs)) t := State.port_setPort _ _ _
  have taken := State.portBytes_reply (s := s.tick t) t awaits noStray noBytes known flight n c cs low high counted
  rw [judged] at taken
  refine ⟨((RxFrame.empty.pushAll (n :: c :: cs)).bytes.drop 2).dropLast,
    (Laws.timed_next s t (fun s => s.portBytes d t (n :: c :: cs)) up).trans ?_⟩
  refine congrArg Host.Outcome.next (taken.trans ?_)
  change w.endCommand d t o _ = _
  rw [State.endCommand_replied (s := w) replied, State.outcome_noData (s := w) (by rw [here]; exact flight) noData,
    Laws.Steady.countOutcome_port _ _ _ replied, State.port_setPort, State.setPort_setPort]
  have gone (f : RxFrame) : w.setPort d { (s.port d).receiving f t with flight := none, rx := none } =
      (s.tick t).setPort d ((s.port d).heard t) := State.setPort_setPort (s.tick t) d _ _
  rw [gone, State.port_setPort]
  rfl

/-- 12 ms without a reply, not the third failure in a row of a PRESENT deck. -/
theorem exec_lapsed (late : (s.port d).replyFrom + ms 12 ≤ t) {h : State}
    (told : ((s.tick t).setPort d (s.port d).unanswered).handBack d x .timeout [] = h)
    (present : (h.port d).presence = .present) (few : (h.port d).fails < 2) :
    exec (.replyTimeout d t) s = .next (h.setPort d ((h.port d).lapsed t)) := by
  refine (Laws.timed_next s t _ up).trans (congrArg Host.Outcome.next ((if_pos ⟨awaits, late⟩).trans ?_))
  have out : (s.tick t).outcome d .timeout [] = h.setPort d { h.port d with fails := (h.port d).fails + 1 } := by
    rw [State.outcome_noData (s := s.tick t) flight (by simp)]
    refine Eq.trans ?_ (State.countFailure_few present few)
    rw [← told]
    rfl
  rw [State.endCommand, out]
  dsimp only
  rw [State.port_setPort, State.setPort_setPort]
  rfl

end

/-- The bytes of an ACK. -/
def ackFrame : List LineChar := [⟨2, false⟩, ⟨0x80, false⟩, ⟨0x82, false⟩]

/-- The bytes of a NAK for a reason. -/
def nakFrame (why : Byte) : List LineChar := [⟨3, false⟩, ⟨0x81, false⟩, ⟨why, false⟩, ⟨3 ^^^ 0x81 ^^^ why, false⟩]

/-- What an originator does with an outcome: nothing that depends on deck d's port, or that changes it. -/
structure Apart (s : State) (d : Deck) (f : State → State) : Prop where
  port : ∀ q, (f (s.setPort d q)).port d = q
  setPort : ∀ q q', (f (s.setPort d q)).setPort d q' = f (s.setPort d q')

namespace Apart

variable (s : State) (d : Deck)

theorem same : Apart s d fun u => u := ⟨State.port_setPort s d, State.setPort_setPort s d⟩

theorem edit (e : Edit) : Apart s d fun u => { u with edit := e } :=
  ⟨fun q => State.port_setPort s d q,
    fun q q' => congrArg (fun u : State => ({ u with edit := e } : State)) (State.setPort_setPort s d q q')⟩

theorem chan (c : Channel) : Apart s d fun u => u.setChan d c :=
  ⟨fun q => State.port_setPort s d q,
    fun q q' => congrArg (fun u : State => u.setChan d c) (State.setPort_setPort s d q q')⟩

end Apart

section
variable {s : State} {d : Deck} {t : Time} {x : Flight} (up : s.asserted = false) (awaits : (s.port d).line = .awaiting)
  (flight : (s.port d).flight = some x) {f : State → State} (apart : Apart (s.tick t) d f)
include up awaits flight

/-- 12 ms without a reply. -/
theorem exec_lapsed_apart (late : (s.port d).replyFrom + ms 12 ≤ t) (present : (s.port d).presence = .present)
    (few : (s.port d).fails < 2) (apart : Apart (s.tick t) d f)
    (told : ∀ q, ((s.tick t).setPort d q).handBack d x .timeout [] = f ((s.tick t).setPort d q)) :
    exec (.replyTimeout d t) s = .next (f ((s.tick t).setPort d ((s.port d).unanswered.lapsed t))) := by
  have port : (f ((s.tick t).setPort d (s.port d).unanswered)).port d = (s.port d).unanswered := apart.port _
  rw [exec_lapsed up awaits flight late (told _) (by rw [port]; exact present) (by rw [port]; exact few), port,
    apart.setPort]

variable (noStray : (s.port d).stray = none) (noBytes : (s.port d).rx = none) (known : (s.port d).presence ≠ .disabled)
include noStray noBytes known

theorem exec_acked (noSense : x.cmd.isSense = false) : ∃ received, exec (.deckReplyReceived d ackFrame t) s =
    .next (((((s.tick t).setPort d ((s.port d).heard t)).handBack d x .acked received).freed d .acked).hand d) := by
  refine exec_replied up awaits flight noStray noBytes known (n := ⟨2, false⟩) (by decide) (by decide) (by decide) ?_ rfl
    (by simp)
  change judgeReply x.cmd false [2, 0x80, 0x82] = .acked
  simp [judgeReply, byteN, xorAll, noSense]

theorem exec_naked (why : Byte) : ∃ received, exec (.deckReplyReceived d (nakFrame why) t) s =
    .next (((((s.tick t).setPort d ((s.port d).heard t)).handBack d x (.naked (NakReason.ofByte why.toNat)) received).freed d
      (.naked (NakReason.ofByte why.toNat))).hand d) :=
  exec_replied up awaits flight noStray noBytes known (n := ⟨3, false⟩) (by decide) (by decide) (by simp)
    (judgeReply_nak x.cmd why) rfl (by simp)

theorem exec_acked_apart (noSense : x.cmd.isSense = false) (apart : Apart (s.tick t) d f)
    (told : ∀ q r, ((s.tick t).setPort d q).handBack d x .acked r = f ((s.tick t).setPort d q)) :
    exec (.deckReplyReceived d ackFrame t) s =
      .next ((f ((s.tick t).setPort d (((s.port d).heard t).replied .acked))).hand d) := by
  obtain ⟨received, step⟩ := exec_acked (t := t) up awaits flight noStray noBytes known noSense
  rw [step, told, State.freed, apart.port, apart.setPort]

theorem exec_naked_apart (why : Byte) (apart : Apart (s.tick t) d f)
    (told : ∀ q r, ((s.tick t).setPort d q).handBack d x (.naked (NakReason.ofByte why.toNat)) r =
      f ((s.tick t).setPort d q)) : exec (.deckReplyReceived d (nakFrame why) t) s =
      .next ((f ((s.tick t).setPort d (((s.port d).heard t).replied (.naked (NakReason.ofByte why.toNat))))).hand d) := by
  obtain ⟨received, step⟩ := exec_naked (t := t) up awaits flight noStray noBytes known why
  rw [step, told, State.freed, apart.port, apart.setPort]

end

/-! ### What a hand leaves of an aborted edit -/

/-- What a hand from w to u leaves of the edit, of the engine and of the channels that do not act. -/
structure HeardOn (w u : State) : Prop where
  abort : u.edit.abort = w.edit.abort
  stops : u.edit.stops = w.edit.stops
  active : u.edit.active = w.edit.active
  mode : u.edit.mode = w.edit.mode
  engine : u.engine = w.engine
  chan : ∀ e, (w.chan e).active = false → u.chan e = w.chan e
  released : u.edit.phase = .release → (u.edit = w.edit ∧ u.entry .editPhase 0 = w.entry .editPhase 0) ∨
    (w.edit.phase ≠ .release ∧ Entered w u .editPhase 0 (u.edit.phaseContent w.edit.phase w.recNow) 1)

namespace HeardOn

theorem refl (s : State) : HeardOn s s := ⟨rfl, rfl, rfl, rfl, rfl, fun _ _ => rfl, fun _ => .inl ⟨rfl, rfl⟩⟩

theorem told (s : State) (d : Deck) (x : Flight) : HeardOn s (s.told d x) := by
  obtain ⟨c, o⟩ := x
  cases safe : s.safeStop with
  | true =>
    rw [s.told_safe d safe]
    exact refl s
  | false =>
    rw [s.told_free d safe]
    cases o with
    | sequencer =>
      cases c with
      | recordOn tracks kind =>
        dsimp only
        rw [State.toldSequencer_on]
        split
        · next phase =>
          refine ⟨rfl, rfl, rfl, rfl, rfl, fun _ _ => rfl, fun released => ?_⟩
          have released : s.edit.phase = .release := released
          simp [released] at phase
        · exact refl s
      | recordOff =>
        dsimp only
        rw [State.toldSequencer_off]
        split
        · have rest := State.setPhase_rest { s with edit := { s.edit with
            stage := .offHanded, offFrame := s.recNow, deadline := s.edit.postroll + 25
            warns := { s.edit.warns with lateOut := s.edit.warns.lateOut || s.lateOff s.recNow } } } .postroll
          have edit := State.setPhase_edit { s with edit := { s.edit with
            stage := .offHanded, offFrame := s.recNow, deadline := s.edit.postroll + 25
            warns := { s.edit.warns with lateOut := s.edit.warns.lateOut || s.lateOff s.recNow } } } .postroll
          have same : s.toldRecordOff.edit = _ := edit
          refine ⟨by rw [same], by rw [same], by rw [same], by rw [same], (congrArg State.engine rest :),
            fun e _ => (congrArg (State.chan · e) rest :), fun released => ?_⟩
          rw [same] at released
          exact Phase.noConfusion released
        · exact refl s
      | _ => exact refl s
    | servo gen loc =>
      dsimp only
      unfold State.toldChannel
      dsimp only
      split
      · next acts =>
        have kept (c' : Channel) : HeardOn s (s.setChan d c') := by
          refine ⟨rfl, rfl, rfl, rfl, rfl, fun e idle => State.chan_setChan_ne s c' ?_, fun _ => .inl ⟨rfl, rfl⟩⟩
          rintro rfl
          exact Bool.false_ne_true (idle.symm.trans acts.2)
        split
        · exact kept _
        · exact kept _
        · exact refl s
      · exact refl s
    | emergencyOff =>
      dsimp only
      by_cases heeds : s.edit.heedsOff
      · rw [State.toldEmergencyOff_heeded heeds]
        let v : State := { s with edit := { s.edit with stage := .offHanded, offFrame := s.recNow } }
        have open' : v.edit.phase ≠ .release := by rw [show v.edit.phase = .editing from heeds.1]; simp
        have rest := State.setPhase_rest v .release
        have edit := State.setPhase_edit v .release
        refine ⟨by rw [edit], by rw [edit], by rw [edit], by rw [edit], (congrArg State.engine rest :),
          fun e _ => (congrArg (State.chan · e) rest :), fun _ => .inr ⟨open', ?_⟩⟩
        exact State.setPhase_entered (s := s) (t := v) (Quiet.edit (ks := []) s _).recNow rfl rfl rfl open'
      · rw [State.toldEmergencyOff_deaf heeds]
        exact refl s
    | _ => exact refl s

theorem handLine (s : State) (d : Deck) : HeardOn s (s.handLine d) := by
  by_cases idle : (s.port d).line = .idle
  · cases picked : (s.port d).pick with
    | none =>
      rw [State.handLine_none idle picked]
      exact refl s
    | some found =>
      obtain ⟨x, q⟩ := found
      rw [State.handLine_picked idle picked]
      have heard := told (s.setPort d (q.sending s.fmt ⟨q.clampSpeed x.cmd, x.origin⟩)) d ⟨q.clampSpeed x.cmd, x.origin⟩
      have recNow := (Quiet.setPort (ks := []) s d (q.sending s.fmt ⟨q.clampSpeed x.cmd, x.origin⟩)
        ((Port.sending_record q _ _).trans (Port.pick_record picked))).recNow
      refine ⟨heard.abort, heard.stops, heard.active, heard.mode, heard.engine, heard.chan, fun released => ?_⟩
      have cases := heard.released released
      rwa [recNow] at cases
  · rw [State.handLine_busy idle]
    exact refl s

end HeardOn

/-- The recorder's position reads of a port its flags. -/
theorem State.recNow_setPort (s : State) {d : Deck} {q : Port} (flags : q.flags = (s.port d).flags) :
    (s.setPort d q).recNow = s.recNow := by
  refine State.recNow_congr rfl rfl rfl rfl fun e => ?_
  by_cases same : e = d
  · rw [same, State.port_setPort, flags]
  · rw [State.port_setPort_ne s q same]

section
variable {why : Reason} {s v a : State} (h : Aborted why v a) (base : AbortBase s v) (phase : v.edit.phase = s.edit.phase)
  (entry : v.entry .editPhase 0 = s.entry .editPhase 0)
include h base phase entry

/-- What an abort tells stands when deck d's port changes and its line takes the next command. -/
theorem Aborted.abortTold_hand {d : Deck} {q : Port} (flags : q.flags = (a.port d).flags) :
    AbortTold s ((a.setPort d q).handLine d) := by
  have heard := HeardOn.handLine (a.setPort d q) d
  have quiet := Quiet.handLine (a.setPort d q) d
  obtain ⟨_, _, _, edit⟩ := h.edit_cases
  generalize (a.setPort d q).handLine d = u at heard quiet
  have entries (k : NoticeKind) (n : Nat) (other : k ≠ .editPhase) : u.entry k n = a.entry k n :=
    quiet.entries k n (by simpa using other)
  have recNow : (a.setPort d q).recNow = v.recNow := (State.recNow_setPort a flags).trans h.quiet.recNow
  have kept : AbortEntered v u := h.told.kept
    (fun e is => heard.chan e (by
      rw [show (a.setPort d q).chan e = a.chan e from rfl, (h.told.sources e is).1]
      rfl))
    heard.engine (fun e _ => entries _ _ (by decide)) (entries _ _ (by decide)) fun released => by
      rcases heard.released released with ⟨same, silent⟩ | ⟨open', entered⟩
      · rw [same] at released ⊢
        exact (h.told.phase released).kept silent
      · rcases h.once with ⟨still, silent⟩ | ⟨already, _⟩
        · rw [show (a.setPort d q).edit.phase = v.edit.phase from still, recNow] at entered
          exact entered.since silent h.quiet.mask h.quiet.clock
        · exact absurd already open'
  exact (kept.base base fun _ => ⟨phase, entry⟩).told
    (by rw [heard.active]; exact (congrArg Edit.active edit).trans base.active)
    (by rw [heard.mode]; exact (congrArg Edit.mode edit).trans base.mode)

/-- What an abort tells stands when a port changes. -/
theorem Aborted.abortTold_setPort (d : Deck) (q : Port) : AbortTold s (a.setPort d q) := by
  obtain ⟨_, _, _, edit⟩ := h.edit_cases
  have kept : AbortEntered v (a.setPort d q) := h.told.kept (fun _ _ => rfl) rfl (fun _ _ => rfl) rfl h.told.phase
  exact (kept.base base fun _ => ⟨phase, entry⟩).told ((congrArg Edit.active edit).trans base.active)
    ((congrArg Edit.mode edit).trans base.mode)

end

end Sys2Proof.Machine

/-! ## The fault of a channel of the sequencer (R88, R127) -/

namespace Sys2Proof.Machine

open Sys2Proof.Safety

theorem State.placed_self (s : State) (d : Deck) : s.placed d (s.port d) (s.chan d) = s := by
  rw [State.placed, State.setPort_port, State.setChan_chan]

/-- s with deck d's channel in FAULT, its STOP posted and its notice entered, before the sequencer hears of it. -/
def State.faultTaken (s : State) (d : Deck) (r : ChaseFault) : State :=
  (s.chaseNoted d (s.chan d) ((s.chan d).faulted r) .fault).placed d ((s.port d).chaseStopped s.fmt (s.chan d))
    ((s.chan d).faulted r)

section
variable {s : State} {d : Deck} (r : ChaseFault)

theorem State.moves_faultTaken : Moves s (s.chaseNoted d (s.chan d) ((s.chan d).faulted r) .fault) d 1
    (((s.chan d).faulted r).noticeContent (s.chan d).st .fault) := (Moves.refl s d []).noted _ _ _

theorem State.chaseFault_eq (free : s.safeStop = false) (running : s.link.expired = false)
    (first : (s.port d).line = .idle → (s.port d).emerg = none ∧ (s.port d).seqSlot = { first := none, second := none })
    (acts : (s.chan d).active = true) : s.chaseFault d r =
      if (s.chan d).owner = some .sequencer then (s.faultTaken d r).editChanFault r else s.faultTaken d r := by
  let u := (s.chaseNoted d (s.chan d) ((s.chan d).faulted r) .fault).placed d (s.port d) ((s.chan d).faulted r)
  have moves := State.moves_faultTaken (s := s) (d := d) r
  have moved : s.chanMove d ((s.chan d).faulted r) .fault = u := by
    have placed := State.placed_chanMove s d (s.port d) (s.chan d) ((s.chan d).faulted r) .fault
    rwa [State.placed_self] at placed
  have port : u.port d = s.port d := State.placed_port ..
  have chan : u.chan d = (s.chan d).faulted r := State.placed_chan ..
  have fmt : u.fmt = s.fmt := moves.fmt
  have posted : (if (u.port d).presence = .disabled then u else u.postServo d .stop) = s.faultTaken d r := by
    have put : u.setPort d ((s.port d).chaseStopped s.fmt (s.chan d)) = s.faultTaken d r := State.placed_setPort ..
    rw [← put]
    by_cases disabled : (s.port d).presence = .disabled
    · rw [if_pos (by rw [port, disabled]), Port.chaseStopped_disabled disabled, ← port, State.setPort_port]
    · rw [if_neg (by rw [port]; exact disabled),
        State.postServo_silent (s := u) (moves.expired.trans running) ?_ rfl (by simp) (by simp), port, chan, fmt,
        Port.chaseStopped, if_neg disabled]
      · rfl
      · rw [port]
        exact fun idle => ⟨(first idle).1, (first idle).2, disabled⟩
  rw [← posted, ← moved]
  exact if_pos ⟨acts, by simp [free]⟩

section
variable (s d)

theorem State.port_faultTaken : (s.faultTaken d r).port d = (s.port d).chaseStopped s.fmt (s.chan d) := State.placed_port ..

theorem State.chan_faultTaken : (s.faultTaken d r).chan d = (s.chan d).faulted r := State.placed_chan ..

theorem State.port_faultTaken_ne {e : Deck} (other : e ≠ d) : (s.faultTaken d r).port e = s.port e :=
  (State.placed_port_ne _ _ _ _ other).trans ((State.moves_faultTaken r).port e)

theorem State.chan_faultTaken_ne {e : Deck} (other : e ≠ d) : (s.faultTaken d r).chan e = s.chan e :=
  (State.placed_chan_ne _ _ _ _ other).trans ((State.moves_faultTaken r).chan e)

end

/-- But for its warnings the edit is as before. -/
theorem State.edit_faultTaken (free : s.safeStop = false) : ∃ w, (s.faultTaken d r).edit = { s.edit with warns := w } := by
  have edit := State.chaseNoted_edit s d (s.chan d) ((s.chan d).faulted r) .fault free
  by_cases hears : (s.chan d).st = .locked ∧ ((s.chan d).faulted r).st ≠ .locked ∧ (s.chan d).owner = some .sequencer ∧
      s.edit.syncGuarded = true
  · exact ⟨_, edit.trans (if_pos hears)⟩
  · exact ⟨s.edit.warns, edit.trans (if_neg hears)⟩

theorem State.faultTaken_rest : s.faultTaken d r = { s with
    edit := (s.faultTaken d r).edit, ports := (s.faultTaken d r).ports, chase := (s.faultTaken d r).chase
    link := { s.link with notices := (s.faultTaken d r).link.notices } } := by
  have rest := (State.moves_faultTaken (s := s) (d := d) r).rest
  rw [State.faultTaken]
  generalize s.chaseNoted d (s.chan d) ((s.chan d).faulted r) .fault = B at rest
  generalize B.edit = e at rest
  generalize B.link.notices = l at rest
  subst rest
  rfl

theorem State.entered_faultTaken : Entered s (s.faultTaken d r) .chaseState (Deck.num d)
    (((s.chan d).faulted r).noticeContent (s.chan d).st .fault) 1 := (State.moves_faultTaken r).told Nat.one_pos

end

namespace Entered

variable {s t u : State} {k : NoticeKind} {n i j : Nat} {c c' : List Val}

/-- Entries of a pair, and more of them. -/
theorem add (h : Entered s t k n c i) (more : Entered t u k n c' j) (mask : t.link.mask = s.link.mask)
    (clock : t.clock = s.clock) : Entered s u k n c' (i + j) := fun unmasked => by
  have before : toldBefore t k n = min 255 (toldBefore s k n + i) := by rw [toldBefore_eq, h unmasked]; rfl
  rw [more (by rwa [Link.masked, mask]), clock, before]
  simp only [Option.some.injEq, Notice.mk.injEq, true_and]
  omega

end Entered

end Sys2Proof.Machine

/-! ## O34: the outcomes of the sequencer's commands, of EMERGENCY items and of the chase channels -/

namespace Sys2Proof.Machine

open Sys2Proof.Safety

/-! ### What the sequencer makes of an outcome (R115) -/

theorem DeckCmd.isRecord_cases {c : DeckCmd} (record : c.isRecord = true) :
    (∃ tracks kind, c = .recordOn tracks kind) ∨ c = .recordOff := by
  cases c with
  | recordOn tracks kind => exact .inl ⟨tracks, kind, rfl⟩
  | recordOff => exact .inr rfl
  | _ => exact absurd record (by simp [DeckCmd.isRecord])

section
variable {s : State} {d : Deck} {o : CmdOutcome DataReply}

theorem State.handBack_sequencer (free : s.safeStop = false) (c : DeckCmd) (received : List Byte) :
    s.handBack d ⟨c, .sequencer⟩ o received = s.seqOutcome d c o := if_neg (by simp [free])

theorem State.handBack_servo (free : s.safeStop = false) (c : DeckCmd) (gen loc : Nat) (received : List Byte) :
    s.handBack d ⟨c, .servo gen loc⟩ o received = s.chaseOutcome d gen loc c o := if_neg (by simp [free])

theorem State.seqOutcome_cued {e : Edit} (edit : s.edit = e) (phase : e.phase = .cueing) (n : Nat) :
    s.seqOutcome d (.locate n) .acked = { s with edit := { e with acked := e.acked.set d.val true } } := by
  subst edit
  simp [State.seqOutcome, phase, CmdOutcome.isNak, CmdOutcome.isFailure]

theorem State.seqOutcome_relocates {e : Edit} (edit : s.edit = e) (phase : e.phase = .cueing) (n : Nat) :
    s.seqOutcome d (.locate n) .timeout = { s with edit := { e with relocate := e.relocate.set d.val true } } := by
  subst edit
  simp [State.seqOutcome, phase, CmdOutcome.isNak, CmdOutcome.isFailure]

section
variable (runs : s.edit.phase ≠ .idle)
include runs

theorem State.seqOutcome_played : s.seqOutcome d .play .acked = s := by
  simp [State.seqOutcome, runs, CmdOutcome.isNak, CmdOutcome.isFailure]

theorem State.seqOutcome_replays {e : Edit} (edit : s.edit = e) :
    s.seqOutcome d .play .timeout = { s with edit := { e with replay := true } } := by
  subst edit
  simp [State.seqOutcome, runs, CmdOutcome.isNak, CmdOutcome.isFailure]

theorem State.seqOutcome_stop : s.seqOutcome d .stop o = s.stopDone d := if_neg runs

omit runs in
theorem State.seqOutcome_recorded {c : DeckCmd} (record : c.isRecord = true) : s.seqOutcome d c .acked = s := by
  obtain ⟨tracks, kind, rfl⟩ | rfl := DeckCmd.isRecord_cases record
  · simp [State.seqOutcome, CmdOutcome.isNak, CmdOutcome.isFailure]
  · simp [State.seqOutcome, CmdOutcome.isNak, CmdOutcome.isFailure]

theorem State.seqOutcome_unconfirmed {c : DeckCmd} (record : c.isRecord = true) :
    s.seqOutcome d c .timeout = s.abort .recordUnconfirmed := by
  obtain ⟨tracks, kind, rfl⟩ | rfl := DeckCmd.isRecord_cases record
  · simp [State.seqOutcome, runs, CmdOutcome.isNak, CmdOutcome.isFailure]
  · simp [State.seqOutcome, runs, CmdOutcome.isNak, CmdOutcome.isFailure]

theorem State.seqOutcome_naked {c : DeckCmd} (heard : c.isRecord = true ∨ c = .play ∨ ∃ n, c = .locate n) (r : NakReason) :
    s.seqOutcome d c (.naked r) = s.abort .deckNak := by
  rcases heard with record | rfl | ⟨n, rfl⟩
  · obtain ⟨tracks, kind, rfl⟩ | rfl := DeckCmd.isRecord_cases record
    · simp [State.seqOutcome, runs, CmdOutcome.isNak]
    · simp [State.seqOutcome, runs, CmdOutcome.isNak]
  · simp [State.seqOutcome, runs, CmdOutcome.isNak]
  · simp [State.seqOutcome, runs, CmdOutcome.isNak]

end

/-- A deck leaves the stops awaited, with others still awaited. -/
theorem State.stopDone_more {e : Edit} (edit : s.edit = e) (more : ∃ x ∈ e.stops, x ≠ d) :
    s.stopDone d = { s with edit := { e with stops := e.stops.filter (· ≠ d) } } := by
  subst edit
  obtain ⟨x, mem, other⟩ := more
  refine if_neg fun both => ?_
  have empty : s.edit.stops.filter (· ≠ d) = [] := both.2
  have still : x ∈ s.edit.stops.filter (· ≠ d) := List.mem_filter.mpr ⟨mem, decide_eq_true other⟩
  rw [empty] at still
  exact List.not_mem_nil still

end

/-! ### What a channel makes of an outcome (R87) -/

/-- A command of the channel's present start, and of its latest LOCATE. -/
def Channel.Own (c : Channel) (gen loc : Nat) (k : DeckCmd) : Prop :=
  c.gen = gen ∧ c.st ≠ .idle ∧ c.st ≠ .fault ∧ ((∃ n, k = .locate n) → c.loc = loc)

/-- A command other than a LOCATE, or the latest of these. -/
def Channel.latest (c : Channel) (loc : Nat) (k : DeckCmd) : Bool :=
  match k with
  | .locate _ => c.loc == loc
  | _ => true

/-- What the channel makes of an acknowledged command of its own. -/
def State.chaseAcked (s : State) (d : Deck) (k : DeckCmd) : State :=
  match k with
  | .locate _ => s.setChan d { s.chan d with acked := true }
  | _ => s

section
variable {s : State} {d : Deck} {gen loc : Nat} {k : DeckCmd} {o : CmdOutcome DataReply}

theorem State.chaseOutcome_foreign (foreign : ¬(s.chan d).Own gen loc k) : s.chaseOutcome d gen loc k o = s := by
  refine if_neg fun ⟨same, acts, latest⟩ => foreign ?_
  obtain ⟨notIdle, notFault⟩ := (Channel.active_iff _).mp acts
  refine ⟨same, notIdle, notFault, ?_⟩
  rintro ⟨n, rfl⟩
  exact beq_iff_eq.mp latest

variable (own : (s.chan d).Own gen loc k)
include own

theorem State.chaseOutcome_own : s.chaseOutcome d gen loc k o =
    if o.isNak then s.chaseFault d .deckNak
    else if o.isFailure then s.chanFailed d gen loc k
    else s.chaseAcked d k := by
  obtain ⟨same, notIdle, notFault, latest⟩ := own
  have acts : (s.chan d).active = true := (Channel.active_iff _).mpr ⟨notIdle, notFault⟩
  have newest : (s.chan d).latest loc k = true := by
    cases k with
    | locate n =>
      have same : (s.chan d).loc = loc := latest ⟨n, rfl⟩
      exact beq_iff_eq.mpr same
    | _ => rfl
  exact if_pos (And.intro same (And.intro acts newest))

theorem State.chaseOutcome_located (locate : ∃ n, k = .locate n) :
    s.chaseOutcome d gen loc k .acked = s.setChan d { s.chan d with acked := true } := by
  obtain ⟨n, rfl⟩ := locate
  exact State.chaseOutcome_own own

theorem State.chaseOutcome_acked (other : ∀ n, k ≠ .locate n) : s.chaseOutcome d gen loc k .acked = s := by
  rw [State.chaseOutcome_own own]
  cases k with
  | locate n => exact absurd rfl (other n)
  | _ => rfl

theorem State.chaseOutcome_failed (free : s.safeStop = false) :
    s.chaseOutcome d gen loc k .timeout = s.setChan d ((s.chan d).failing gen loc k) := by
  rw [State.chaseOutcome_own own]
  exact State.chanFailed_eq free d gen loc k

theorem State.chaseOutcome_naked (r : NakReason) : s.chaseOutcome d gen loc k (.naked r) = s.chaseFault d .deckNak :=
  State.chaseOutcome_own own

end

section
variable {c : Channel} {gen loc : Nat} {k : DeckCmd} (own : c.Own gen loc k)
include own

theorem Channel.failing_locate (locate : ∃ n, k = .locate n) :
    c.failing gen loc k = if c.st = .seek then { c with relocate := true } else c := by
  obtain ⟨same, notIdle, notFault, latest⟩ := own
  obtain ⟨n, rfl⟩ := locate
  rw [Channel.failing, if_pos ⟨same, (Channel.active_iff _).mpr ⟨notIdle, notFault⟩⟩]
  simp only [latest ⟨n, rfl⟩, and_true]

theorem Channel.failing_play (play : k = .play) : c.failing gen loc k = { c with replay := true } := by
  subst play
  obtain ⟨same, notIdle, notFault, _⟩ := own
  rw [Channel.failing, if_pos ⟨same, (Channel.active_iff _).mpr ⟨notIdle, notFault⟩⟩]

theorem Channel.failing_varispeed {v : Nat} (speed : k = .varispeed v) :
    c.failing gen loc k = { c with speed := none } := by
  subst speed
  obtain ⟨same, notIdle, notFault, _⟩ := own
  rw [Channel.failing, if_pos ⟨same, (Channel.active_iff _).mpr ⟨notIdle, notFault⟩⟩]

end

/-! ### The abort that a NAK or a failure brings (R115, R127, R129) -/

/-- What an abort reads at the instant t, deck d's port changed in what it does not read. -/
theorem State.abortBase_tick (s : State) (t : Time) {d : Deck} {q : Port} (flags : q.flags = (s.port d).flags) :
    AbortBase s ((s.tick t).setPort d q) where
  sources := rfl
  active := rfl
  mode := rfl
  chase := rfl
  engine := rfl
  set := rfl
  clock := rfl
  mask := rfl
  recNow := (s.tick t).recNow_setPort flags
  entries _ _ _ := rfl

/-- After an abort of v's edit and a NAK on deck d's line, the state u. -/
structure NakAborted (why : Reason) (v a u : State) (d : Deck) (r : NakReason) : Prop where
  abort : u.edit.abort = some why
  stops : u.edit.stops = v.edit.involved
  nak : (u.port d).nak = some r
  fails : (u.port d).fails = 0
  list : u.list = v.list
  chan : ∀ e, (a.chan e).active = false → u.chan e = a.chan e
  entries : ∀ k n, k ≠ .editPhase → u.entry k n = a.entry k n

section
variable {why : Reason} {v a : State} (h : Aborted why v a)
include h

theorem Aborted.naked {d : Deck} (running : v.link.expired = false) (present : (v.port d).presence = .present)
    (r : NakReason) : NakAborted why v a ((a.freed d (.naked r)).hand d) d r := by
  have here : (a.port d).presence = .present := (h.quiet.presence d).trans present
  rw [State.hand_running (s := a.freed d (.naked r)) (h.quiet.expired.trans running)]
  have heard := HeardOn.handLine (a.freed d (.naked r)) d
  have quiet := Quiet.handLine (a.freed d (.naked r)) d
  have record := quiet.record d
  rw [State.freed, State.port_setPort] at record
  exact {
    abort := heard.abort.trans h.abort
    stops := heard.stops.trans h.stops
    nak := congrArg (·.2.2.2.2.2.2.1) record
    fails := (congrArg (·.2.2.2.2.1) record).trans (if_pos here)
    list := quiet.list.trans h.quiet.list
    chan := heard.chan
    entries := fun k n other => quiet.entries k n (by simpa using other) }

end

/-! ### A LOCATE or a PLAY that is posted again (R115, R116) -/

/-- The re-postings of LOCATE on the decks ds in turn lead from s to u. -/
structure Recued (s u : State) (ds : List Deck) : Prop where
  fmt : u.fmt = s.fmt
  expired : u.link.expired = s.link.expired
  edit : ∃ x, u.edit = { s.edit with relocate := x } ∧ ∀ d ∈ ds, x[d.val] = false
  away : ∀ d, d ∉ ds → u.port d = s.port d ∧ u.edit.relocate[d.val] = s.edit.relocate[d.val]
  kept : ∀ d ∈ ds, s.edit.relocate[d.val] = false → u.port d = s.port d
  posts : ∀ d ∈ ds, ∀ c, s.edit.relocate[d.val] = true → s.edit.cued[d.val] = false → s.edit.cueOf d = some c →
    u.port d = seqPosted (s.port d) s.fmt (.locate c)

namespace Recued

variable {s t u : State}

/-- The edit with no LOCATE of deck d to be posted again. -/
def recued (e : Edit) (d : Deck) : Edit := { e with relocate := e.relocate.set d.val false }

theorem single (running : s.link.expired = false) {d : Deck} (first : SeqFirst (s.port d)) : Recued s (s.recue d) [d] := by
  by_cases again : s.edit.relocate[d.val] = true
  · let m : State := { s with edit := recued s.edit d }
    have base (p : Port) (posts : ∀ c, s.edit.cued[d.val] = false → s.edit.cueOf d = some c →
        p = seqPosted (s.port d) s.fmt (.locate c)) : Recued s (m.setPort d p) [d] := by
      refine ⟨rfl, rfl, ⟨_, rfl, fun e mem => ?_⟩, fun e other => ⟨?_, ?_⟩, fun e mem still => ?_,
        fun e mem c _ uncued cue => ?_⟩
      · obtain rfl := List.mem_singleton.mp mem
        exact Vector.getElem_set_self e.isLt
      · exact State.port_setPort_ne m p (by simpa using other)
      · refine Vector.getElem_set_ne d.isLt e.isLt fun same => other ?_
        rw [Fin.ext same]
        exact List.mem_singleton_self e
      · obtain rfl := List.mem_singleton.mp mem
        exact absurd again (by simp [still])
      · obtain rfl := List.mem_singleton.mp mem
        exact (State.port_setPort m e p).trans (posts c uncued cue)
    have step : s.recue d = match s.edit.cueOf d with
      | some c => if s.edit.cued[d.val] then m else m.postSeq d (.locate c)
      | none => m := if_pos again
    rw [step]
    cases cue : s.edit.cueOf d with
    | none =>
      dsimp only
      rw [← m.setPort_port d]
      exact base _ fun c _ some => absurd (cue.symm.trans some) (by simp)
    | some c =>
      dsimp only
      by_cases cued : s.edit.cued[d.val] = true
      · rw [if_pos cued, ← m.setPort_port d]
        exact base _ fun c uncued _ => absurd cued (by simp [uncued])
      · rw [if_neg cued, State.postSeq_first (s := m) first rfl (by simp) running]
        exact base _ fun c' _ same => by rw [← Option.some.inj (cue.symm.trans same)]; rfl
  · have same : s.recue d = s := if_neg again
    rw [same]
    refine ⟨rfl, rfl, ⟨s.edit.relocate, rfl, fun e mem => ?_⟩, fun _ _ => ⟨rfl, rfl⟩, fun _ _ _ => rfl,
      fun e mem c is => ?_⟩
    · obtain rfl := List.mem_singleton.mp mem
      exact Bool.eq_false_iff.mpr again
    · obtain rfl := List.mem_singleton.mp mem
      exact absurd is again

theorem foldl (running : s.link.expired = false) {ds : List Deck} (once : ds.Nodup) (first : ∀ d ∈ ds, SeqFirst (s.port d)) :
    Recued s (ds.foldl State.recue s) ds := by
  induction ds generalizing s with
  | nil => exact ⟨rfl, rfl, ⟨_, rfl, fun _ mem => absurd mem List.not_mem_nil⟩, fun _ _ => ⟨rfl, rfl⟩,
      fun _ mem => absurd mem List.not_mem_nil, fun _ mem => absurd mem List.not_mem_nil⟩
  | cons d ds ih =>
    obtain ⟨new, once⟩ := List.nodup_cons.mp once
    have one := single running (first d List.mem_cons_self)
    have apart (e : Deck) (mem : e ∈ ds) : e ∉ [d] := fun is => new (List.mem_singleton.mp is ▸ mem)
    have rest := ih (s := s.recue d) (one.expired.trans running) once fun e mem => by
      rw [(one.away e (apart e mem)).1]
      exact first e (List.mem_cons_of_mem _ mem)
    rw [List.foldl_cons]
    generalize ds.foldl State.recue (s.recue d) = u at rest
    obtain ⟨x, edit, _⟩ := one.edit
    obtain ⟨y, last, none⟩ := rest.edit
    have cleared : y[d.val] = false := by
      have kept := (rest.away d new).2
      obtain ⟨x', edit', none'⟩ := one.edit
      rw [last, edit'] at kept
      exact kept.trans (none' d (List.mem_singleton_self d))
    refine ⟨rest.fmt.trans one.fmt, rest.expired.trans one.expired, ⟨y, ?_, fun e mem => ?_⟩, fun e other => ?_,
      fun e mem still => ?_, fun e mem c is uncued cue => ?_⟩
    · rw [last, edit]
    · rcases List.mem_cons.mp mem with rfl | mem
      · exact cleared
      · exact none e mem
    · rw [List.mem_cons, not_or] at other
      have before := one.away e (by simpa using other.1)
      have after := rest.away e other.2
      exact ⟨after.1.trans before.1, after.2.trans before.2⟩
    · rcases List.mem_cons.mp mem with rfl | mem
      · exact (rest.away e new).1.trans (one.kept e (List.mem_singleton_self e) still)
      · have before := one.away e (apart e mem)
        exact (rest.kept e mem (before.2.trans still)).trans before.1
    · rcases List.mem_cons.mp mem with rfl | mem
      · exact (rest.away e new).1.trans (one.posts e (List.mem_singleton_self e) c is uncued cue)
      · have before := one.away e (apart e mem)
        have posted := rest.posts e mem c (before.2.trans is) (by rw [edit]; exact uncued) (by rw [edit]; exact cue)
        rwa [before.1, one.fmt] at posted

end Recued

/-! ### A sample that posts again (R87) -/

section
variable {s : State} {d : Deck} (up : s.asserted = false) (owed : 0 < s.due.chase[d.val]) (free : s.safeStop = false)
  (running : s.link.expired = false) (first : ServoFirst (s.port d)) {x : Sample}
  (reads : s.sampleOf d s.due.chase[d.val] = x)
include up owed free running first reads

theorem exec_chaseSample_relocates (seek : (s.chan d).st = .seek) (again : (s.chan d).relocate = true) {g : Nat}
    (goal : (s.chan d).target = some g)
    (uncued : ¬((s.chan d).acked = true ∧ (s.port d).fresh = true ∧ (s.port d).flag 6 = true))
    (waits : x.cond = .noPosition ∨ (x.cond = .atPlay ∧ ∃ n, x.frame s.fmt = some n ∧ (s.chan d).leadDue s.fmt n = false) ∨
      (x.cond = .stopped ∧ ∃ n, x.frame s.fmt = some n ∧ (s.chan d).followDue s.fmt n = false)) :
    exec (.chaseSample d) s = .next ((s.sampleTaken d).placed d
      (servoPosted (s.port d) s.fmt (.locate g) (s.chan d).gen (s.chan d).loc) ((s.chan d).seen x).reposted) := by
  have stage := Stage.plain up owed free reads (by rw [Channel.active_iff]; simp [seek]) fun both => uncued both.2
  rw [stage.runs, State.chaseRule_seek_waits (s := s.sampleTaken d) (c := (s.chan d).seen x) seek stage.uncued waits]
  exact congrArg Host.Outcome.next
    (State.placed_repost_locate (s := s.sampleTaken d) (c := (s.chan d).seen x) running free first seek again goal)

theorem exec_chaseSample_replays (rolls : (s.chan d).st = .rolling) (again : (s.chan d).replay = true)
    (must : (s.chan d).mustFollow x = false) (slow : s.atSpeed d = false) (more : 2 ≤ (s.chan d).roll) :
    exec (.chaseSample d) s = .next ((s.sampleTaken d).placed d
      (servoPosted (s.port d) s.fmt .play (s.chan d).gen (s.chan d).loc) { ((s.chan d).seen x).reposted with
        roll := (s.chan d).roll - 1
        speed := if (s.port d).line = .idle then some 1000 else (s.chan d).speed }) := by
  have stage := Stage.plain up owed free reads (by rw [Channel.active_iff]; simp [rolls]) fun seek =>
    ChaseState.noConfusion (rolls.symm.trans seek.1)
  rw [stage.runs, State.chaseRule_rolling (s := s.sampleTaken d) (c := (s.chan d).seen x) rolls,
    State.rollingRule_counts (s := s.sampleTaken d) (c := (s.chan d).seen x) must slow more]
  exact congrArg Host.Outcome.next
    (State.placed_repost_play (s := s.sampleTaken d) (c := { (s.chan d).seen x with roll := (s.chan d).roll - 1 }) running free
      first rolls again)

end

/-! ### Outcomes of the sequencer's commands -/

/-- A port whose reply has come, and whose line is free (R50, R55). -/
def Port.ended (p : Port) (t : Time) : Port :=
  { p with line := .idle, flight := none, rx := none, byteAt := t, fails := 0 }

theorem Port.replied_acked {p : Port} (present : p.presence = .present) (t : Time) :
    (p.heard t).replied .acked = p.ended t := by
  rw [Port.replied, if_pos (show (p.heard t).presence = .present from present)]
  rfl

theorem Port.replied_naked {p : Port} (present : p.presence = .present) (t : Time) (r : NakReason) :
    (p.heard t).replied (.naked r) = { p.ended t with nak := some r } := by
  rw [Port.replied, if_pos (show (p.heard t).presence = .present from present)]
  rfl

/-- A port whose command has had no reply for 12 ms (R50, R55). -/
def Port.timedOut (p : Port) (t : Time) : Port :=
  { p with
    flight := none, rx := none, fails := p.fails + 1, line := .recovering, late := .reply { bytes := [], bad := false }
    replyFrom := t }

section
variable {s : State} {d : Deck} {t : Time} {x : Flight} (up : s.asserted = false) (awaits : (s.port d).line = .awaiting)
  (flight : (s.port d).flight = some x) (present : (s.port d).presence = .present) {f : State → State}
  (apart : Apart (s.tick t) d f)
include up awaits flight present apart

theorem exec_silent (few : (s.port d).fails < 2) (late : (s.port d).replyFrom + ms 12 ≤ t)
    (told : ∀ q, ((s.tick t).setPort d q).handBack d x .timeout [] = f ((s.tick t).setPort d q)) :
    exec (.replyTimeout d t) s = .next (f ((s.tick t).setPort d ((s.port d).timedOut t))) :=
  exec_lapsed_apart up awaits flight late present few apart told

variable (noStray : (s.port d).stray = none) (noBytes : (s.port d).rx = none)
include noStray noBytes

theorem exec_ended (noSense : x.cmd.isSense = false)
    (told : ∀ q r, ((s.tick t).setPort d q).handBack d x .acked r = f ((s.tick t).setPort d q)) :
    exec (.deckReplyReceived d ackFrame t) s = .next ((f ((s.tick t).setPort d ((s.port d).ended t))).hand d) := by
  rw [exec_acked_apart up awaits flight noStray noBytes (by rw [present]; simp) noSense apart told, Port.replied_acked present]

theorem exec_refused (why : Byte)
    (told : ∀ q r, ((s.tick t).setPort d q).handBack d x (.naked (NakReason.ofByte why.toNat)) r =
      f ((s.tick t).setPort d q)) : exec (.deckReplyReceived d (nakFrame why) t) s =
      .next ((f ((s.tick t).setPort d { (s.port d).ended t with nak := some (NakReason.ofByte why.toNat) })).hand d) := by
  rw [exec_naked_apart up awaits flight noStray noBytes (by rw [present]; simp) why apart told, Port.replied_naked present]

end

end Sys2Proof.Machine

namespace Sys2Proof.Machine

open Sys2Proof.Safety

/-! ### Failures and NAKs of the sequencer's commands (R115) -/

section
variable {s : State} {d : Deck} {t : Time} (up : s.asserted = false) (free : s.safeStop = false)
  (awaits : (s.port d).line = .awaiting) (present : (s.port d).presence = .present)

section
variable {c : DeckCmd} (flight : (s.port d).flight = some ⟨c, .sequencer⟩)
include up free awaits present flight

section
variable {f : State → State} (apart : Apart (s.tick t) d f)
include apart

theorem exec_silent_sequencer (few : (s.port d).fails < 2) (late : (s.port d).replyFrom + ms 12 ≤ t)
    (told : ∀ u : State, u.edit = s.edit → u.seqOutcome d c .timeout = f u) :
    exec (.replyTimeout d t) s = .next (f ((s.tick t).setPort d ((s.port d).timedOut t))) :=
  exec_silent up awaits flight present apart few late fun q =>
    (State.handBack_sequencer (s := (s.tick t).setPort d q) free c []).trans (told ((s.tick t).setPort d q) rfl)

theorem exec_ended_sequencer (noStray : (s.port d).stray = none) (noBytes : (s.port d).rx = none)
    (noSense : c.isSense = false) (told : ∀ u : State, u.edit = s.edit → u.seqOutcome d c .acked = f u) :
    exec (.deckReplyReceived d ackFrame t) s = .next ((f ((s.tick t).setPort d ((s.port d).ended t))).hand d) :=
  exec_ended up awaits flight present apart noStray noBytes noSense fun q r =>
    (State.handBack_sequencer (s := (s.tick t).setPort d q) free c r).trans (told ((s.tick t).setPort d q) rfl)

end

variable (abortable : s.edit.phase.abortable = true) (noAbort : s.edit.abort = none)
include abortable noAbort

theorem exec_unconfirmed (record : c.isRecord = true) (few : (s.port d).fails < 2)
    (late : (s.port d).replyFrom + ms 12 ≤ t) : ∃ u, exec (.replyTimeout d t) s = .next u ∧
      u.edit.abort = some .recordUnconfirmed ∧ u.edit.stops = s.edit.involved ∧ AbortTold s u ∧
      (u.port d).fails = (s.port d).fails + 1 ∧ (u.port d).line = .recovering ∧ u.list = s.list := by
  let v := (s.tick t).setPort d (s.port d).unanswered
  have port : v.port d = (s.port d).unanswered := State.port_setPort ..
  have takes : v.takesAbort = true := v.takesAbort_iff.mpr ⟨abortable, noAbort, free⟩
  have h := State.abort_aborted takes .recordUnconfirmed
  have runs : v.edit.phase ≠ .idle := fun idle => by
    rw [show s.edit.phase = .idle from idle] at abortable
    exact Bool.false_ne_true abortable
  have told : v.handBack d ⟨c, .sequencer⟩ .timeout [] = v.abort .recordUnconfirmed :=
    (State.handBack_sequencer (s := v) free c []).trans (State.seqOutcome_unconfirmed (s := v) runs record)
  have fails : ((v.abort .recordUnconfirmed).port d).fails = (s.port d).fails :=
    (congrArg (·.2.2.2.2.1) (h.quiet.record d) :).trans (by rw [port]; rfl)
  have step := exec_lapsed (h := v.abort .recordUnconfirmed) up awaits flight late told
    ((h.quiet.presence d).trans (by rw [port]; exact present)) (by rw [fails]; exact few)
  refine ⟨_, step, h.abort, h.stops, h.abortTold_setPort (s.abortBase_tick t rfl) rfl rfl d _, ?_, ?_, h.quiet.list⟩
  · rw [State.port_setPort]
    exact congrArg (· + 1) fails
  · rw [State.port_setPort]
    rfl

theorem exec_sequencer_naked (running : s.link.expired = false) (noStray : (s.port d).stray = none)
    (noBytes : (s.port d).rx = none) (heard : c.isRecord = true ∨ c = .play ∨ ∃ n, c = .locate n) (why : Byte) :
    ∃ u, exec (.deckReplyReceived d (nakFrame why) t) s = .next u ∧ u.edit.abort = some .deckNak ∧
      u.edit.stops = s.edit.involved ∧ AbortTold s u ∧ (u.port d).nak = some (NakReason.ofByte why.toNat) ∧
      (u.port d).fails = 0 ∧ u.list = s.list := by
  let r := NakReason.ofByte why.toNat
  let v := (s.tick t).setPort d ((s.port d).heard t)
  have port : v.port d = (s.port d).heard t := State.port_setPort ..
  have takes : v.takesAbort = true := v.takesAbort_iff.mpr ⟨abortable, noAbort, free⟩
  have h := State.abort_aborted takes .deckNak
  have runs : v.edit.phase ≠ .idle := fun idle => by
    rw [show s.edit.phase = .idle from idle] at abortable
    exact Bool.false_ne_true abortable
  obtain ⟨received, step⟩ := exec_naked (t := t) up awaits flight noStray noBytes (by rw [present]; simp) why
  have told : v.handBack d ⟨c, .sequencer⟩ (.naked r) received = v.abort .deckNak :=
    (State.handBack_sequencer (s := v) free c received).trans (State.seqOutcome_naked (s := v) runs heard r)
  rw [show ((s.tick t).setPort d ((s.port d).heard t)).handBack d ⟨c, .sequencer⟩ (.naked r) received = v.abort .deckNak
    from told] at step
  have naked := h.naked (d := d) running (by rw [port]; exact present) r
  refine ⟨_, step, naked.abort, naked.stops, ?_, naked.nak, naked.fails, naked.list⟩
  rw [State.hand_running (s := (v.abort .deckNak).freed d (.naked r)) (h.quiet.expired.trans running)]
  refine h.abortTold_hand (s.abortBase_tick t rfl) rfl rfl ?_
  rfl

end

end

/-! ### The re-post at a frame start (R115, R116) -/

section
variable {s : State} {n : Nat} {ev : EventFields} {m : EditMode} (up : s.asserted = false) (owed : 0 < s.due.seq)
  (free : s.safeStop = false) (running : s.link.expired = false) (active : s.edit.active = some (n, ev))
  (mode : s.edit.mode = some m) (noAbort : s.edit.abort = none) (within : 2 ≤ s.edit.deadline)
include up owed free running active mode noAbort within

theorem exec_sequencerFrameStart_recues (once : s.edit.involved.Nodup) (first : ∀ d ∈ s.edit.involved, SeqFirst (s.port d))
    (cueing : s.edit.phase = .cueing)
    (waits : ∃ d ∈ s.edit.involved, s.edit.cued[d.val] = false ∧ s.edit.acked[d.val] = false) :
    ∃ u, exec .sequencerFrameStart s = .next u ∧ u.edit.phase = .cueing ∧ ∀ d ∈ s.edit.involved,
      (s.edit.relocate[d.val] = false → u.port d = s.port d) ∧
      (∀ c, s.edit.relocate[d.val] = true → s.edit.cued[d.val] = false → s.edit.cueOf d = some c →
        u.port d = seqPosted (s.port d) s.fmt (.locate c) ∧ u.edit.relocate[d.val] = false) := by
  have posted := Recued.foldl (s := s.seqTaken) running once first
  let v := s.edit.involved.foldl State.recue s.seqTaken
  obtain ⟨y, edit, none⟩ := posted.edit
  obtain ⟨x, judged, kept⟩ := v.judgedCued s.edit.involved
  obtain ⟨d, mem, uncued, unacked⟩ := waits
  have editV : v.edit = { s.edit with relocate := y } := edit
  have open' : ¬(s.edit.involved.all fun d => x[d.val]) = true := fun all => by
    have cued : x[d.val] = true := List.all_eq_true.mp all d mem
    rw [kept d (by rw [editV]; exact unacked), editV] at cued
    exact Bool.false_ne_true (uncued.symm.trans cued)
  have step : s.seqStep = { v with edit := ({ v.edit with cued := x } : Edit).ticked } := by
    rw [State.seqStep_eq, State.phaseTests_cueing (s := s.seqTaken) active mode noAbort free cueing, State.cueingStep]
    dsimp only
    rw [show (s.seqTaken).edit.involved = s.edit.involved from rfl, judged, if_neg open', State.deadlineStep_within]
    change 2 ≤ v.edit.deadline
    rw [editV]
    exact within
  refine ⟨_, (exec_sequencerFrameStart up owed).trans (congrArg Host.Outcome.next step), ?_, fun e mem =>
    ⟨posted.kept e mem, fun c again uncued cue => ⟨posted.posts e mem c again uncued cue, ?_⟩⟩⟩
  · change v.edit.phase = .cueing
    rw [editV]
    exact cueing
  · change v.edit.relocate[e.val] = false
    rw [editV]
    exact none e mem

theorem exec_sequencerFrameStart_replays (first : SeqFirst (s.port s.recorder)) (rolling : s.edit.phase = .rolling)
    (again : s.edit.replay = true) (lost : s.startFrameRec = none) :
    ∃ u, exec .sequencerFrameStart s = .next u ∧
      u.edit = { s.edit with replay := false, deadline := s.edit.deadline - 1 } ∧
      u.port s.recorder = if s.edit.syncPassed then s.port s.recorder else seqPosted (s.port s.recorder) s.fmt .play := by
  let v : State := { s.seqTaken with edit := { s.edit with replay := false } }
  have posted : s.seqTaken.replayRecorder =
      v.setPort s.recorder (if s.edit.syncPassed then s.port s.recorder else seqPosted (s.port s.recorder) s.fmt .play) := by
    cases passed : s.edit.syncPassed with
    | true =>
      rw [if_pos rfl, State.replayRecorder_unposted (s := s.seqTaken) (.inl passed)]
      exact (v.setPort_port _).symm
    | false =>
      rw [if_neg (by simp)]
      refine Eq.trans (if_pos ?_) (State.postSeq_first (s := v) first rfl (by simp) running)
      simp [show s.seqTaken.edit = s.edit from rfl, again, passed]
  generalize (if s.edit.syncPassed then s.port s.recorder else seqPosted (s.port s.recorder) s.fmt .play) = q at posted
  let w := v.setPort s.recorder q
  have step : s.seqStep = { w with edit := w.edit.ticked } := by
    rw [State.seqStep_rolling free active mode noAbort rolling, lost, posted,
      State.rollSync_away (s := w) ev m none (.inr (by simp)), State.rollOn_still (s := w) ev m none (.inl rfl),
      State.rollEnds_rolling (s := w) ev m none noAbort rolling, State.deadlineStep_within (s := w) within]
  exact ⟨_, (exec_sequencerFrameStart up owed).trans (congrArg Host.Outcome.next step), rfl, State.port_setPort v _ q⟩

end

end Sys2Proof.Machine

namespace Sys2Proof.Machine

open Sys2Proof.Safety

/-! ### Outcomes of EMERGENCY items and of the commands of a channel -/

/-- A port whose line has just taken a STOP. -/
def Port.stopSent (p : Port) (o : Origin) : Port :=
  { p with line := .sending, flight := some ⟨.stop, o⟩, tx := [2, 0x20, 0x22], fresh := false }

section
variable {s : State} {d : Deck} {t : Time} (up : s.asserted = false) (free : s.safeStop = false)
  (awaits : (s.port d).line = .awaiting) (present : (s.port d).presence = .present)

section
variable {q : Port} {a b : Bool}

/-- A line that frees hands the STOP of an item (R62). -/
theorem State.hand_emergencyStop (running : s.link.expired = false) (idle : q.line = .idle)
    (item : q.emerg = some { recordOff := false, toSeq := a, toSafe := b }) :
    ((s.tick t).setPort d q).hand d =
      (s.tick t).setPort d ({ q with emerg := none }.stopSent (.emergencyStop a b)) := by
  let v := (s.tick t).setPort d q
  have here : v.port d = q := State.port_setPort ..
  have stops : ({ q with emerg := none } : Port).sends v.fmt ⟨.stop, .emergencyStop a b⟩ =
      { q with emerg := none }.stopSent (.emergencyStop a b) := by
    rw [Port.sends, DeckCmd.frame_stop, show (DeckCmd.stop).isSense = false from rfl, Bool.and_false]
    rfl
  rw [State.hand_running (s := v) running, State.handLine_emergencyStop (s := v) (by rw [here]; exact idle)
    (by rw [here]; exact item), here, stops]
  exact State.setPort_setPort ..

end

/-- The STOP of an item that the sequencer awaits ends, with others still awaited (R124, R129). -/
theorem State.emergencyDone_more (free : s.safeStop = false) {e : Edit} (edit : s.edit = e) (more : ∃ x ∈ e.stops, x ≠ d) :
    s.emergencyDone d true false = { s with edit := { e with stops := e.stops.filter (· ≠ d) } } :=
  (if_pos ⟨rfl, ne_true_of_eq_false free⟩).trans (State.stopDone_more edit more)

/-- A line that is IDLE hands the STOP of a channel in FAULT or IDLE that waits for it. -/
theorem State.hand_chaseStop {x : State} {q : Port} {gen loc : Nat} (here : x.port d = q) (running : x.link.expired = false)
    (idle : q.line = .idle) (noItem : q.emerg = none) (enabled : q.presence ≠ .disabled)
    (empty : q.seqSlot = { first := none, second := none }) (waits : q.servo = some { cmd := .stop, gen := gen, loc := loc })
    (inactive : (x.chan d).active = false) :
    x.hand d = x.setPort d ({ q with servo := none }.stopSent (.servo gen loc)) := by
  subst here
  have stops : ({ x.port d with servo := none } : Port).sends x.fmt ⟨.stop, .servo gen loc⟩ =
      { x.port d with servo := none }.stopSent (.servo gen loc) := by
    rw [Port.sends, DeckCmd.frame_stop, show (DeckCmd.stop).isSense = false from rfl, Bool.and_false]
    rfl
  rw [State.hand_running running, State.handLine_servo idle noItem enabled empty waits rfl, State.told_servo, if_neg]
  · exact congrArg (x.setPort d) stops
  · exact fun all => Bool.false_ne_true (inactive.symm.trans all.2.2)

section
variable {k : DeckCmd} {gen loc : Nat} (flight : (s.port d).flight = some ⟨k, .servo gen loc⟩)
include up free awaits present flight

section
variable {f : State → State} (apart : Apart (s.tick t) d f)
include apart

theorem exec_silent_servo (few : (s.port d).fails < 2) (late : (s.port d).replyFrom + ms 12 ≤ t)
    (told : ∀ u : State, u.chan d = s.chan d → u.safeStop = false → u.chaseOutcome d gen loc k .timeout = f u) :
    exec (.replyTimeout d t) s = .next (f ((s.tick t).setPort d ((s.port d).timedOut t))) :=
  exec_silent up awaits flight present apart few late fun q =>
    (State.handBack_servo (s := (s.tick t).setPort d q) free k gen loc []).trans (told ((s.tick t).setPort d q) rfl free)

variable (noStray : (s.port d).stray = none) (noBytes : (s.port d).rx = none)
include noStray noBytes

theorem exec_ended_servo (noSense : k.isSense = false)
    (told : ∀ u : State, u.chan d = s.chan d → u.chaseOutcome d gen loc k .acked = f u) :
    exec (.deckReplyReceived d ackFrame t) s = .next ((f ((s.tick t).setPort d ((s.port d).ended t))).hand d) :=
  exec_ended up awaits flight present apart noStray noBytes noSense fun q r =>
    (State.handBack_servo (s := (s.tick t).setPort d q) free k gen loc r).trans (told ((s.tick t).setPort d q) rfl)

theorem exec_refused_servo (why : Byte) (told : ∀ u : State, u.chan d = s.chan d →
      u.chaseOutcome d gen loc k (.naked (NakReason.ofByte why.toNat)) = f u) :
    exec (.deckReplyReceived d (nakFrame why) t) s =
      .next ((f ((s.tick t).setPort d { (s.port d).ended t with nak := some (NakReason.ofByte why.toNat) })).hand d) :=
  exec_refused up awaits flight present apart noStray noBytes why fun q r =>
    (State.handBack_servo (s := (s.tick t).setPort d q) free k gen loc r).trans (told ((s.tick t).setPort d q) rfl)

end

variable (running : s.link.expired = false) (noStray : (s.port d).stray = none) (noBytes : (s.port d).rx = none)
  (own : (s.chan d).Own gen loc k) (why : Byte)
include running noStray noBytes own

/-- A NAK: the channel enters FAULT, and the sequencer hears of a channel of its own. -/
theorem exec_servo_naked : exec (.deckReplyReceived d (nakFrame why) t) s =
    let w := ((s.tick t).setPort d ((s.port d).heard t)).faultTaken d .deckNak
    .next (((if (s.chan d).owner = some .sequencer then w.abort .deckNak else w).freed d
      (.naked (NakReason.ofByte why.toNat))).hand d) := by
  let r := NakReason.ofByte why.toNat
  let v := (s.tick t).setPort d ((s.port d).heard t)
  have port : v.port d = (s.port d).heard t := State.port_setPort ..
  have own' : (v.chan d).Own gen loc k := own
  have acts : (v.chan d).active = true := (Channel.active_iff _).mpr ⟨own'.2.1, own'.2.2.1⟩
  obtain ⟨received, step⟩ := exec_naked (t := t) up awaits flight noStray noBytes (by rw [present]; simp) why
  have told : v.handBack d ⟨k, .servo gen loc⟩ (.naked r) received =
      if (v.chan d).owner = some .sequencer then (v.faultTaken d .deckNak).editChanFault .deckNak
      else v.faultTaken d .deckNak := by
    rw [State.handBack_servo (s := v) free, State.chaseOutcome_naked (s := v) own']
    refine State.chaseFault_eq (s := v) .deckNak free running (fun idle => ?_) acts
    rw [port] at idle
    exact LineState.noConfusion idle
  rw [step]
  exact congrArg (fun u : State => Host.Outcome.next ((u.freed d (.naked r)).hand d)) told

theorem exec_servo_naked_link (link : (s.chan d).owner = some .link) (noItem : (s.port d).emerg = none)
    (empty : (s.port d).seqSlot = { first := none, second := none }) :
    ∃ u, exec (.deckReplyReceived d (nakFrame why) t) s = .next u ∧ u.chan d = (s.chan d).faulted .deckNak ∧
      u.port d = { (s.port d).ended t with nak := some (NakReason.ofByte why.toNat), servo := none }.stopSent
        (.servo (s.chan d).gen (s.chan d).loc) ∧ ChaseTold s u d (s.chan d).st .fault 1 ∧ u.edit = s.edit ∧
      u.list = s.list ∧ ∀ x, x ≠ d → u.port x = s.port x ∧ u.chan x = s.chan x := by
  let r := NakReason.ofByte why.toNat
  let v := (s.tick t).setPort d ((s.port d).heard t)
  let w := v.faultTaken d .deckNak
  have step := exec_servo_naked (t := t) up free awaits present flight running noStray noBytes own why
  dsimp only at step
  rw [if_neg (by rw [link]; simp)] at step
  have port : v.port d = (s.port d).heard t := State.port_setPort ..
  have rest := State.faultTaken_rest (s := v) (d := d) .deckNak
  have waits : w.port d = { (s.port d).heard t with
      servo := some { cmd := .stop, gen := (s.chan d).gen, loc := (s.chan d).loc } } := by
    refine (State.port_faultTaken v d .deckNak).trans ?_
    rw [port]
    exact Port.chaseStopped_busy (by rw [show ((s.port d).heard t).presence = .present from present]; simp)
      (by simp [Port.heard]) _ _
  let q : Port := { (s.port d).ended t with
    nak := some r, servo := some { cmd := .stop, gen := (s.chan d).gen, loc := (s.chan d).loc } }
  let x := w.setPort d q
  have freed : w.freed d (.naked r) = x := by
    rw [State.freed, waits, Port.replied, if_pos (by exact present)]
    rfl
  have here : x.port d = q := State.port_setPort ..
  have chan : x.chan d = (s.chan d).faulted .deckNak := State.chan_faultTaken v d .deckNak
  have edit : w.edit = s.edit := State.chaseNoted_edit_other (old := v.chan d)
    (by rw [show (v.chan d).owner = some .link from link]; simp) v d ((v.chan d).faulted .deckNak) .fault
  have expired : x.link.expired = false := (congrArg (fun u : State => u.link.expired) rest :).trans running
  have handed := State.hand_chaseStop here expired rfl noItem
    (by rw [show q.presence = .present from present]; simp) empty rfl (by rw [chan]; rfl)
  rw [freed, handed] at step
  refine ⟨_, step, chan, State.port_setPort .., ?_, ?_, (congrArg State.list rest :), fun y other => ?_⟩
  · rw [ChaseTold, State.chan_setPort, chan]
    have entered : Entered s w .chaseState (Deck.num d) (((s.chan d).faulted .deckNak).noticeContent (s.chan d).st .fault) 1 :=
      State.entered_faultTaken (s := v) (d := d) .deckNak
    exact (entered.kept (u := x.setPort d _) (State.entry_congr rfl _ _)).told
  · exact edit
  · refine ⟨?_, State.chan_faultTaken_ne v d .deckNak other⟩
    exact (State.port_setPort_ne x _ other).trans ((State.port_setPort_ne w q other).trans
      ((State.port_faultTaken_ne v d .deckNak other).trans (State.port_setPort_ne (s.tick t) _ other)))

theorem exec_servo_naked_sequencer (owner : (s.chan d).owner = some .sequencer) (abortable : s.edit.phase.abortable = true)
    (noAbort : s.edit.abort = none) :
    ∃ u, exec (.deckReplyReceived d (nakFrame why) t) s = .next u ∧ u.edit.abort = some .deckNak ∧
      u.edit.stops = s.edit.involved ∧
      (d ∉ s.edit.sources → u.chan d = (s.chan d).faulted .deckNak ∧ ChaseTold s u d (s.chan d).st .fault 1) ∧
      (d ∈ s.edit.sources → (u.chan d).st = .idle ∧ ChaseTold s u d .fault .released 2) ∧
      (u.port d).nak = some (NakReason.ofByte why.toNat) ∧ u.list = s.list := by
  let r := NakReason.ofByte why.toNat
  let v := (s.tick t).setPort d ((s.port d).heard t)
  let w := v.faultTaken d .deckNak
  have step := exec_servo_naked (t := t) up free awaits present flight running noStray noBytes own why
  dsimp only at step
  rw [if_pos owner] at step
  have rest := State.faultTaken_rest (s := v) (d := d) .deckNak
  obtain ⟨warns, edit⟩ := State.edit_faultTaken (s := v) (d := d) .deckNak free
  have edit : w.edit = { s.edit with warns } := edit
  have takes : w.takesAbort = true := w.takesAbort_iff.mpr
    ⟨by rw [edit]; exact abortable, by rw [edit]; exact noAbort, (congrArg State.safeStop rest :).trans free⟩
  have h := State.abort_aborted takes .deckNak
  have chan : w.chan d = (s.chan d).faulted .deckNak := State.chan_faultTaken v d .deckNak
  have inactive : (w.chan d).active = false := by rw [chan]; rfl
  have waits := State.port_faultTaken v d .deckNak
  have present' : (w.port d).presence = .present := by
    rw [waits, State.port_setPort, Port.chaseStopped_busy
      (by rw [show ((s.port d).heard t).presence = .present from present]; simp) (by simp [Port.heard])]
    exact present
  have naked := h.naked (d := d) ((congrArg (fun u : State => u.link.expired) rest :).trans running) present' r
  have entered : Entered s w .chaseState (Deck.num d) (((s.chan d).faulted .deckNak).noticeContent (s.chan d).st .fault) 1 :=
    State.entered_faultTaken (s := v) (d := d) .deckNak
  have cond : w.releases d ↔ d ∈ s.edit.sources := by
    rw [State.releases, edit, chan]
    exact ⟨fun all => all.1, fun mem => ⟨mem, owner, by simp [Channel.faulted]⟩⟩
  refine ⟨_, step, naked.abort, naked.stops.trans (congrArg Edit.involved edit :), fun away => ?_, fun mem => ?_, naked.nak,
    naked.list.trans (congrArg State.list rest :)⟩
  · have unreleased : ¬w.releases d := fun on => away (cond.mp on)
    have same : (w.abort .deckNak).chan d = w.chan d := (h.kin d unreleased).2.2.2.2 inactive
    have last := (naked.chan d (by rw [same]; exact inactive)).trans (same.trans chan)
    refine ⟨last, ?_⟩
    rw [ChaseTold, last]
    exact (entered.kept ((naked.entries _ _ (by simp)).trans (h.chaseKept d unreleased))).told
  · obtain ⟨cleared, told⟩ := h.told.sources d (cond.mpr mem)
    have last := (naked.chan d (by rw [cleared]; rfl)).trans cleared
    refine ⟨(congrArg Channel.st last).trans rfl, ?_⟩
    rw [ChaseTold, last]
    rw [show (w.chan d).st = .fault by rw [chan]; rfl] at told
    exact ((entered.add told (congrArg (fun u : State => u.link.mask) rest :) (congrArg State.clock rest :)).kept
      (naked.entries _ _ (by simp))).told

end

end

end Sys2Proof.Machine

namespace Sys2Proof.Proofs

open Sys2Proof.Machine Sys2Proof.Safety

/-- Settles O34: the originator hears of an outcome (`State.seqOutcome`, `State.chaseOutcome`), then its line is served; a
posting that failed is made again at the next frame start or sample. -/
theorem sequencerTakesItsOutcomes : Obligations.SequencerTakesItsOutcomes := by
  unfold Obligations.SequencerTakesItsOutcomes
  refine ⟨fun s d t up free => ?sequencer, fun s n ev m up owed free running active mode noAbort within once first => ?again,
    fun s d t up free running => ?others, fun s d g up owed free running first => ?samples⟩
  case sequencer =>
    intro p e ack done failed late awaits noStray noBytes present few
    refine ⟨fun n flight cueing => ?_, fun flight runs => ?_, fun flight release more => ?_,
      fun c record flight abortable noAbort _ => ?_, fun c why heard flight abortable noAbort _ running => ?_⟩
    · exact ⟨exec_ended_sequencer up free awaits present flight (Apart.edit _ d _) noStray noBytes rfl fun u edit =>
          State.seqOutcome_cued edit cueing n,
        fun late => exec_silent_sequencer up free awaits present flight (Apart.edit _ d _) few late fun u edit =>
          State.seqOutcome_relocates edit cueing n⟩
    · have runsOn {u : State} (edit : u.edit = s.edit) : u.edit.phase ≠ .idle := by rw [edit]; exact runs
      exact ⟨exec_ended_sequencer up free awaits present flight (Apart.same _ d) noStray noBytes rfl fun u edit =>
          State.seqOutcome_played (runsOn edit),
        fun late => exec_silent_sequencer up free awaits present flight (Apart.edit _ d _) few late fun u edit =>
          State.seqOutcome_replays (runsOn edit) edit⟩
    · have told {o : CmdOutcome DataReply} (u : State) (edit : u.edit = s.edit) : u.seqOutcome d .stop o =
          { u with edit := { s.edit with stops := s.edit.stops.filter (· ≠ d) } } :=
        (State.seqOutcome_stop (by rw [edit, release]; simp)).trans (State.stopDone_more edit more)
      exact ⟨exec_ended_sequencer up free awaits present flight (Apart.edit _ d _) noStray noBytes rfl told,
        fun late => exec_silent_sequencer up free awaits present flight (Apart.edit _ d _) few late told⟩
    · exact ⟨exec_ended_sequencer up free awaits present flight (Apart.same _ d) noStray noBytes
          (by obtain ⟨_, _, rfl⟩ | rfl := DeckCmd.isRecord_cases record <;> rfl) fun u _ => State.seqOutcome_recorded record,
        fun late => exec_unconfirmed up free awaits present flight abortable noAbort record few late⟩
    · exact exec_sequencer_naked up free awaits present flight abortable noAbort running noStray noBytes heard why
  case again =>
    exact ⟨fun cueing waits => exec_sequencerFrameStart_recues up owed free running active mode noAbort within once first
        cueing waits,
      fun rolling involved again lost => exec_sequencerFrameStart_replays up owed free running active mode noAbort within
        (first s.recorder involved) rolling again lost⟩
  case others =>
    intro p e ack nak ended refused failed stopping late awaits noStray noBytes present few
    refine ⟨fun a b flight item => ?_, fun flight release more => ?_, fun k gen loc flight noSense => ?_⟩
    · have taken {q : Port} (idle : q.line = .idle) (item : q.emerg = some { recordOff := false, toSeq := a, toSafe := b }) :=
        congrArg (Host.Outcome.next (φ := Fault) (ρ := Refusal))
          (State.hand_emergencyStop (s := s) (d := d) (t := t) running idle item)
      have same := Apart.same (s.tick t) d
      exact ⟨(exec_ended up awaits flight present same noStray noBytes rfl fun _ _ => rfl).trans
          (taken (q := (s.port d).ended t) rfl item),
        fun why => (exec_refused up awaits flight present same noStray noBytes why fun _ _ => rfl).trans
          (taken (q := { (s.port d).ended t with nak := some (NakReason.ofByte why.toNat) }) rfl item),
        fun late => exec_silent up awaits flight present same few late fun _ => rfl⟩
    · have told {o : CmdOutcome DataReply} (q : Port) (r : List Byte) :
          ((s.tick t).setPort d q).handBack d ⟨.stop, .emergencyStop true false⟩ o r =
            { (s.tick t).setPort d q with edit := { s.edit with stops := s.edit.stops.filter (· ≠ d) } } :=
        State.emergencyDone_more (s := (s.tick t).setPort d q) free rfl more
      have apart := Apart.edit (s.tick t) d { s.edit with stops := s.edit.stops.filter (· ≠ d) }
      exact ⟨exec_ended up awaits flight present apart noStray noBytes rfl told,
        fun why => exec_refused up awaits flight present apart noStray noBytes why told,
        fun late => exec_silent up awaits flight present apart few late fun q => told q []⟩
    · intro c own again
      have same := Apart.same (s.tick t) d
      have lost {x : Channel} (mine : own) (fails : c.failing gen loc k = x) : again x := fun late =>
        exec_silent_servo up free awaits present flight (Apart.chan (s.tick t) d x) few late fun u chan safe => by
          rw [State.chaseOutcome_failed (by rw [chan]; exact mine) safe, chan, fails]
      refine ⟨fun foreign => ?_, fun mine locate => ⟨?_, fun seek => ?_, fun away => ?_⟩, fun mine other => ?_,
        fun mine play => lost mine (Channel.failing_play mine play),
        fun v mine speed => lost mine (Channel.failing_varispeed mine speed),
        fun why mine noItem empty => ⟨fun link => ?_, fun owner abortable noAbort _ => ?_⟩⟩
      · have deaf {o : CmdOutcome DataReply} (u : State) (chan : u.chan d = s.chan d) : u.chaseOutcome d gen loc k o = u :=
          State.chaseOutcome_foreign (by rw [chan]; exact foreign)
        exact ⟨exec_ended_servo up free awaits present flight same noStray noBytes noSense deaf,
          fun why => exec_refused_servo up free awaits present flight same noStray noBytes why deaf,
          fun late => exec_silent_servo up free awaits present flight same few late fun u chan _ => deaf u chan⟩
      · exact exec_ended_servo up free awaits present flight (Apart.chan (s.tick t) d { c with acked := true }) noStray noBytes
          noSense fun u chan => by rw [State.chaseOutcome_located (by rw [chan]; exact mine) locate, chan]
      · exact lost mine ((Channel.failing_locate mine locate).trans (if_pos seek))
      · exact lost mine ((Channel.failing_locate mine locate).trans (if_neg away))
      · exact exec_ended_servo up free awaits present flight same noStray noBytes noSense fun u chan =>
          State.chaseOutcome_acked (by rw [chan]; exact mine) other
      · exact exec_servo_naked_link up free awaits present flight running noStray noBytes mine why link noItem empty
      · exact exec_servo_naked_sequencer up free awaits present flight running noStray noBytes mine why owner abortable noAbort
  case samples =>
    intro c x seen posts
    have kept (p : Port) (y : Channel) := (Moves.refl (s.sampleTaken d) d []).kept p y
    refine ⟨fun seek again goal uncued waits => ?_, fun rolls again follows slow more => ?_⟩
    · have still : x.cond = .noPosition ∨ (x.cond = .atPlay ∧ ∃ n, x.frame s.fmt = some n ∧ c.leadDue s.fmt n = false) ∨
          (x.cond = .stopped ∧ ∃ n, x.frame s.fmt = some n ∧ c.followDue s.fmt n = false) := by
        refine waits.imp_right (Or.imp (fun ⟨plays, kind, n, frame, early⟩ => ⟨plays, n, frame, ?_⟩)
          fun ⟨stopped, kind, n, frame, near⟩ => ⟨stopped, n, frame, ?_⟩)
        · exact Bool.eq_false_iff.mpr fun due => absurd (Channel.leadDue_iff.mp due g kind goal) (by omega)
        · exact Bool.eq_false_iff.mpr fun due => absurd (Channel.followDue_iff.mp due g kind goal) (by omega)
      exact ⟨_, exec_chaseSample_relocates up owed free running first rfl seek again goal uncued still,
        State.placed_chan .., State.placed_port .., (kept _ _).others, rfl, rfl⟩
    · have unled : c.mustFollow x = false := Bool.eq_false_iff.mpr fun must => by
        obtain ⟨link, stopped⟩ := (Channel.mustFollow_iff c x).mp must
        rcases follows with sequencer | moves
        · exact absurd (sequencer.symm.trans link) (by simp)
        · exact moves stopped
      exact ⟨_, exec_chaseSample_replays up owed free running first rfl rolls again unled slow more,
        State.placed_chan .., State.placed_port .., (kept _ _).others, rfl, rfl⟩

end Sys2Proof.Proofs

/-! ## O18: failures, and the loss of a deck -/

namespace Sys2Proof.Machine

open Sys2Proof.Safety

/-! ### A failure that is not the third in a row (R50 to R52, R55, R70) -/

/-- The port whose command has failed at t: its line recovers (R52, R55). -/
def Port.recovers (p : Port) (t : Time) : Port :=
  { p with
    flight := none, rx := none, fails := if p.presence = .present then p.fails + 1 else p.fails, line := .recovering
    replyFrom := t }

section
variable {s : State} {d : Deck} {x : Flight} {t : Time}

theorem State.failed_outcome (flight : (s.port d).flight = some x) (quiet : x.origin = .poll ∨ x.origin.isPass = true)
    (few : (s.port d).presence = .present → (s.port d).fails < 2) {o : CmdOutcome DataReply} (fails : o.isFailure = true)
    (noData : ∀ y, o ≠ .data y) (received : List Byte) {vals : List Val}
    (answer : ∀ f sent, (passVals f sent received o).map (Val.fix f) = vals) :
    s.outcome d o received = passAnswered (s.setPort d (s.port d).unanswered.failed) x.origin vals := by
  obtain ⟨c, origin⟩ := x
  let v := s.setPort d (s.port d).unanswered
  have port : (passAnswered v origin vals).port d = (s.port d).unanswered := State.port_setPort s d _
  rw [State.outcome_noData flight noData]
  have told : v.handBack d ⟨c, origin⟩ o received = passAnswered v origin vals :=
    State.handBack_answered quiet (answer _ _)
  have counted : (passAnswered v origin vals).countOutcome d o = (passAnswered v origin vals).countFailure d := if_pos fails
  refine (congrArg (State.countOutcome · d o) told).trans (counted.trans ?_)
  rw [State.countFailure_counted (by rw [port]; exact few), port]
  exact congrArg (passAnswered · origin vals) (State.setPort_setPort s d _ _)

variable (flight : (s.port d).flight = some x) (quiet : x.origin = .poll ∨ x.origin.isPass = true)
  (few : (s.port d).presence = .present → (s.port d).fails < 2)
include flight quiet few

theorem State.endCommand_timeout : s.endCommand d t .timeout [] = passAnswered (s.setPort d { (s.port d).recovers t with
    late := .reply { bytes := [], bad := false } }) x.origin [.u 1 Result.timeout.code] := by
  have out := State.failed_outcome flight quiet few (o := .timeout) rfl (by simp) [] (vals := [.u 1 Result.timeout.code])
    fun _ _ => rfl
  have port : (passAnswered (s.setPort d (s.port d).unanswered.failed) x.origin [.u 1 Result.timeout.code]).port d =
      (s.port d).unanswered.failed := State.port_setPort s d _
  rw [State.endCommand, out]
  dsimp only
  rw [port]
  exact congrArg (passAnswered · x.origin _) (State.setPort_setPort s d _ _)

theorem State.endCommand_lineError (received : List Byte) : s.endCommand d t .lineError received =
    passAnswered (s.setPort d { (s.port d).recovers t with late := .nothing, byteAt := t }) x.origin
      [.u 1 Result.lineError.code] := by
  have out := State.failed_outcome flight quiet few (o := .lineError) rfl (by simp) received
    (vals := [.u 1 Result.lineError.code]) fun _ _ => rfl
  have port : (passAnswered (s.setPort d (s.port d).unanswered.failed) x.origin [.u 1 Result.lineError.code]).port d =
      (s.port d).unanswered.failed := State.port_setPort s d _
  rw [State.endCommand, out]
  dsimp only
  rw [port]
  exact congrArg (passAnswered · x.origin _) (State.setPort_setPort s d _ _)

end

/-! ### Bytes of the late reply -/

/-- In RECOVERING, with no stray frame open and at most one failure more to come, that of the late reply. -/
def Port.settles (p : Port) : Prop :=
  p.line = .recovering ∧ p.stray = none ∧ (p.presence = .present → p.fails < 2 ∨ p.late = .nothing)

/-- A byte then leaves the link as it is, and the port so. -/
theorem State.portByte_settles {s : State} {d : Deck} (settles : (s.port d).settles) (t : Time) (c : LineChar) :
    (State.portByte d t s c).link = s.link ∧ ((State.portByte d t s c).port d).settles := by
  obtain ⟨recovering, noStray, few⟩ := settles
  by_cases known : (s.port d).presence = .disabled
  · rw [State.portByte, if_pos known]
    exact ⟨rfl, recovering, noStray, few⟩
  · cases late : (s.port d).late with
    | nothing =>
      have discarded := State.portBytes_discarded t known recovering noStray late (List.cons_ne_nil c [])
      rw [show State.portByte d t s c = s.setPort d { s.port d with byteAt := t } from discarded, State.port_setPort]
      exact ⟨rfl, recovering, noStray, few⟩
    | reply f =>
      have fewer (present : (s.port d).presence = .present) : (s.port d).fails < 2 :=
        (few present).resolve_right fun nothing => LateState.noConfusion (late.symm.trans nothing)
      rw [State.portByte_late t known recovering noStray late]
      split
      · rw [State.countFailure_counted (by rw [State.port_setPort]; exact fewer), State.port_setPort, State.port_setPort]
        exact ⟨rfl, recovering, noStray, fun _ => .inr rfl⟩
      · rw [State.port_setPort]
        exact ⟨rfl, recovering, noStray, fun present => .inl (fewer present)⟩

theorem State.portBytes_settles {s : State} {d : Deck} (settles : (s.port d).settles) (t : Time) (cs : List LineChar) :
    (s.portBytes d t cs).link = s.link := by
  induction cs generalizing s with
  | nil => rfl
  | cons c cs ih =>
    obtain ⟨link, still⟩ := State.portByte_settles settles t c
    exact (ih still).trans link

/-! ### Damaged replies -/

/-- A reply that fits no command that awaits it, by its code and the number of its data bytes (R190). -/
def DeckCmd.Fits (c : DeckCmd) (bytes : List Byte) (count : Nat) : Prop :=
  let code := byteN bytes 1
  let speeds := (bytes.getD 3 0).getLsbD 0
  let records := (bytes.getD 3 0).getLsbD 1
  let sense := c = .identify ∨ c = .statusSense ∨ c = .timeSense
  code = 0x80 ∧ count = 0 ∧ ¬sense ∨ code = 0x81 ∧ count = 1 ∨ code = 0x82 ∧ count = 2 ∧ c = .statusSense ∨
    code = 0x83 ∧ count = 4 ∧ c = .timeSense ∨
    code = 0x84 ∧ 5 + (if speeds then 4 else 0) + (if records then 2 else 0) ≤ count ∧ count ≤ 16 ∧ c = .identify

theorem DeckCmd.isSense_iff (c : DeckCmd) : c.isSense = true ↔ c = .identify ∨ c = .statusSense ∨ c = .timeSense := by
  cases c <;> simp [DeckCmd.isSense]

theorem Caps.fixedLen_ofByte (b : Byte) :
    (Caps.ofByte b).fixedLen = 5 + (if b.getLsbD 0 then 4 else 0) + if b.getLsbD 1 then 2 else 0 := rfl

section
variable {c : DeckCmd} {frame : List Byte} {count : Nat} (length : frame.length = count + 3)
include length

/-- A whole reply that is damaged or fits no command is judged a line error (R49, R51, R190). -/
theorem judgeReply_damaged {bad : Bool} (damaged : bad = true ∨ xorAll frame ≠ 0 ∨ ¬c.Fits frame count) :
    judgeReply c bad frame = .lineError := by
  have data : ((frame.drop 2).dropLast).length = count := by
    rw [List.length_dropLast, List.length_drop]
    omega
  by_cases broken : bad = true ∨ xorAll frame ≠ 0
  · exact if_pos (by simpa using broken)
  · have unfit : ¬c.Fits frame count := by
      rcases damaged with bad | sum | unfit
      · exact absurd (.inl bad) broken
      · exact absurd (.inr sum) broken
      · exact unfit
    refine (if_neg (by simpa using broken)).trans ?_
    split
    · next code => exact if_neg fun ⟨no, noSense⟩ => unfit (.inl ⟨code, data ▸ no, fun sense =>
        Bool.false_ne_true (noSense.symm.trans (c.isSense_iff.mpr sense))⟩)
    · next code => exact if_neg fun one => unfit (.inr (.inl ⟨code, data ▸ one⟩))
    · next code => exact if_neg fun ⟨two, sense⟩ => unfit (.inr (.inr (.inl ⟨code, data ▸ two, sense⟩)))
    · next code => exact if_neg fun ⟨four, sense⟩ => unfit (.inr (.inr (.inr (.inl ⟨code, data ▸ four, sense⟩))))
    · next code =>
      refine if_neg fun ⟨least, most, two, sense⟩ => unfit (.inr (.inr (.inr (.inr ⟨code, ?_, data ▸ most, sense⟩))))
      rw [data] at least two
      have caps : ((frame.drop 2).dropLast).getD 1 0 = frame.getD 3 0 := by
        rw [List.getD_eq_getElem _ _ (by omega), List.getD_eq_getElem _ _ (by omega), List.getElem_dropLast,
          List.getElem_drop]
      rwa [caps, Caps.fixedLen_ofByte] at least
    · rfl

end

/-! ### The rows -/

section
variable {s : State} {d : Deck} {x : Flight} {t : Time} (up : s.asserted = false) (flight : (s.port d).flight = some x)
  (quiet : x.origin = .poll ∨ x.origin.isPass = true) (few : (s.port d).presence = .present → (s.port d).fails < 2)
include up flight quiet few

theorem exec_replyTimeout_failed (awaits : (s.port d).line = .awaiting) (due : (s.port d).replyFrom + ms 12 ≤ t) :
    exec (.replyTimeout d t) s = .next (passAnswered ((s.tick t).setPort d { (s.port d).recovers t with
      late := .reply { bytes := [], bad := false } }) x.origin [.u 1 Result.timeout.code]) := by
  refine (Laws.timed_next s t _ up).trans (congrArg Host.Outcome.next ((if_pos ⟨awaits, due⟩).trans ?_))
  exact State.endCommand_timeout (s := s.tick t) flight quiet few

theorem exec_deckGapTimeout_failed (receives : (s.port d).line = .receiving) (due : (s.port d).byteAt + ms 3 ≤ t) :
    exec (.deckGapTimeout d t) s = .next (passAnswered ((s.tick t).setPort d { (s.port d).recovers t with
      late := .nothing, byteAt := t }) x.origin [.u 1 Result.lineError.code]) := by
  rw [exec_deckGapTimeout up due, if_pos receives]
  exact congrArg Host.Outcome.next (State.endCommand_lineError (s := s.tick t) flight quiet few [])

/-- Its late reply makes no second reply. -/
theorem exec_lateReply_unanswered (awaits : (s.port d).line = .awaiting) (due : (s.port d).replyFrom + ms 12 ≤ t)
    (noStray : (s.port d).stray = none) (first : (s.port d).presence = .present → (s.port d).fails = 0) {u v : State}
    {cs : List LineChar} {t' : Time} (fails : exec (.replyTimeout d t) s = .next u)
    (late : exec (.lateReplyReceived d cs t') u = .next v) : v.link = u.link := by
  obtain rfl := Host.Outcome.next.inj ((exec_replyTimeout_failed up flight quiet few awaits due).symm.trans fails)
  generalize same : passAnswered ((s.tick t).setPort d { (s.port d).recovers t with
    late := .reply { bytes := [], bad := false } }) x.origin [.u 1 Result.timeout.code] = u at late ⊢
  have port : u.port d = { (s.port d).recovers t with late := .reply { bytes := [], bad := false } } := by
    rw [← same]
    exact State.port_setPort (s.tick t) d _
  have upU : u.asserted = false := by
    rw [← same]
    exact up
  have step := Laws.timed_next u t' (fun s => s.portBytes d t' cs) upU
  obtain rfl := Host.Outcome.next.inj (step.symm.trans late)
  refine State.portBytes_settles (s := u.tick t') (d := d) ⟨?_, ?_, fun present => .inl ?_⟩ t' cs
  · exact congrArg Port.line port
  · exact (congrArg Port.stray port).trans noStray
  · have here : (s.port d).presence = .present := (congrArg Port.presence port).symm.trans present
    refine lt_of_eq_of_lt ((congrArg Port.fails port).trans (if_pos here)) ?_
    rw [first here]
    decide

variable (awaits : (s.port d).line = .awaiting) (noStray : (s.port d).stray = none) (noBytes : (s.port d).rx = none)
  (known : (s.port d).presence ≠ .disabled)
include awaits noStray noBytes known

/-- A damaged reply ends at its bad length byte, or at its check byte; the bytes after it are discarded. -/
theorem exec_deckReply_damaged {n : Byte} {bad : Bool} {cs : List LineChar} (rest : List LineChar)
    (damaged : (n.toNat < 2 ∨ 18 < n.toNat) ∧ cs = [] ∨ 2 ≤ n.toNat ∧ n.toNat ≤ 18 ∧ cs.length = n.toNat ∧
      (bad = true ∨ (∃ y ∈ cs, y.bad = true) ∨ xorAll (n :: cs.map LineChar.byte) ≠ 0 ∨
        ¬x.cmd.Fits (n :: cs.map LineChar.byte) (n.toNat - 2))) :
    exec (.deckReplyReceived d (⟨n, bad⟩ :: cs ++ rest) t) s = .next (passAnswered ((s.tick t).setPort d
      { (s.port d).recovers t with late := .nothing, byteAt := t }) x.origin [.u 1 Result.lineError.code]) := by
  let u := passAnswered ((s.tick t).setPort d { (s.port d).recovers t with late := .nothing, byteAt := t }) x.origin
    [.u 1 Result.lineError.code]
  have ends (f : RxFrame) (received : List Byte) :
      ((s.tick t).setPort d ((s.port d).receiving f t)).endCommand d t .lineError received = u := by
    let w := (s.tick t).setPort d ((s.port d).receiving f t)
    have port : w.port d = (s.port d).receiving f t := State.port_setPort _ _ _
    refine (State.endCommand_lineError (s := w) (by rw [port]; exact flight) quiet (by rw [port]; exact few) received).trans ?_
    rw [port]
    exact congrArg (passAnswered · x.origin _) (State.setPort_setPort (s.tick t) d _ _)
  have whole : (s.tick t).portBytes d t (⟨n, bad⟩ :: cs) = u := by
    rcases damaged with ⟨length, rfl⟩ | ⟨low, high, counted, damaged⟩
    · have badLength : ((RxFrame.empty).push ⟨n, bad⟩).badLength = true := by
        simpa [RxFrame.badLength, RxFrame.push, RxFrame.empty, byteN] using length
      have goes : State.portByte d t (s.tick t) ⟨n, bad⟩ = (s.tick t).replyByte d t ⟨n, bad⟩ := by
        simp only [State.portByte, State.port_tick, if_neg known, awaits, noStray]
        rfl
      refine goes.trans (Eq.trans ?_ (ends (RxFrame.empty.push ⟨n, bad⟩) []))
      simp only [State.replyByte, State.port_tick, noBytes, Option.getD_none, badLength, if_true]
      rfl
    · obtain ⟨c, cs, rfl⟩ := List.exists_cons_of_length_pos (l := cs) (by omega)
      have taken := State.portBytes_reply (s := s.tick t) t awaits noStray noBytes known flight ⟨n, bad⟩ c cs low high
        counted
      have frame := RxFrame.pushAll_eq RxFrame.empty (⟨n, bad⟩ :: c :: cs)
      have bytes : (RxFrame.empty.pushAll (⟨n, bad⟩ :: c :: cs)).bytes = n :: (c :: cs).map LineChar.byte :=
        congrArg RxFrame.bytes frame
      have broken : (RxFrame.empty.pushAll (⟨n, bad⟩ :: c :: cs)).bad = (bad || (c :: cs).any LineChar.bad) :=
        (congrArg RxFrame.bad frame).trans (Bool.false_or _)
      rw [judgeReply_damaged (count := n.toNat - 2)] at taken
      · exact taken.trans (ends _ _)
      · rw [bytes, List.length_cons, List.length_map, counted]
        omega
      · rw [bytes, broken, Bool.or_eq_true, List.any_eq_true, or_assoc]
        exact damaged
  rw [show exec (.deckReplyReceived d (⟨n, bad⟩ :: cs ++ rest) t) s = execDeckReplyReceived d (⟨n, bad⟩ :: cs ++ rest) t s
    from rfl, execDeckReplyReceived, Laws.timed_next s t _ up, State.portBytes_append, whole]
  have come : u.tick t = u := by
    rw [State.tick, show u.now = max s.now t from rfl, max_assoc, max_self]
    rfl
  have port : u.port d = { (s.port d).recovers t with late := .nothing, byteAt := t } := State.port_setPort (s.tick t) d _
  refine congrArg Host.Outcome.next ((congrArg (State.portBytes · d t rest) come).trans ?_)
  cases rest with
  | nil => rfl
  | cons c rest =>
    refine (State.portBytes_discarded t (by rw [port]; exact known) (by rw [port]; rfl) (by rw [port]; exact noStray)
      (by rw [port]) (List.cons_ne_nil c rest)).trans ?_
    rw [port]
    exact congrArg (passAnswered · x.origin _) (State.setPort_setPort (s.tick t) d _ _)

end

end Sys2Proof.Machine

/-! ## The loss of a deck that an edit involves (R56, R88, R127, R128) -/

namespace Sys2Proof.Machine

open Sys2Proof.Safety

/-! ### The STOPs of channels that enter FAULT -/

/-- What postings of a channel's STOP leave of a port: one that waits is in the SERVO slot, and the line of one that is handed
was IDLE. -/
structure Stopping (p q : Port) : Prop where
  pass : q.pass = p.pass
  standing : q.standing = p.standing
  idle : q.line = .idle → p.line = .idle ∧ q.emerg = p.emerg ∧ q.seqSlot = p.seqSlot
  busy : p.line ≠ .idle → ∃ y, q = { p with servo := y }

namespace Stopping

variable {p q r : Port}

theorem refl (p : Port) : Stopping p p := ⟨rfl, rfl, fun idle => ⟨idle, rfl, rfl⟩, fun _ => ⟨p.servo, rfl⟩⟩

theorem trans (h : Stopping p q) (k : Stopping q r) : Stopping p r where
  pass := k.pass.trans h.pass
  standing := k.standing.trans h.standing
  idle is := by
    obtain ⟨line, emerg, slot⟩ := k.idle is
    obtain ⟨line', emerg', slot'⟩ := h.idle line
    exact ⟨line', emerg.trans emerg', slot.trans slot'⟩
  busy is := by
    obtain ⟨y, rfl⟩ := h.busy is
    exact k.busy is

theorem chaseStopped (p : Port) (f : SuiteFormat) (c : Channel) : Stopping p (p.chaseStopped f c) := by
  by_cases disabled : p.presence = .disabled
  · rw [Port.chaseStopped_disabled disabled]
    exact refl p
  · by_cases idle : p.line = .idle
    · rw [Port.chaseStopped_idle disabled idle]
      exact ⟨rfl, rfl, fun sends => LineState.noConfusion sends, fun busy => absurd idle busy⟩
    · rw [Port.chaseStopped_busy disabled idle]
      exact ⟨rfl, rfl, fun is => absurd is idle, fun _ => ⟨_, rfl⟩⟩

end Stopping

/-- On an IDLE line nothing of EMERGENCY or SEQUENCER waits. -/
def State.handsFirst (s : State) : Prop :=
  ∀ e, (s.port e).line = .idle → (s.port e).emerg = none ∧ (s.port e).seqSlot = { first := none, second := none }

/-! ### Before the abort -/

/-- Faults of channels lead from s to u, and the edit is not aborted yet. -/
structure Faulting (s u : State) : Prop where
  rest : u = { s with
    edit := u.edit, ports := u.ports, chase := u.chase, link := { s.link with notices := u.link.notices } }
  edit : ∃ w, u.edit = { s.edit with warns := w }
  port : ∀ e, Stopping (s.port e) (u.port e)

namespace Faulting

variable {s u : State}

theorem refl (s : State) : Faulting s s := ⟨rfl, ⟨_, rfl⟩, fun _ => .refl _⟩

section
variable (h : Faulting s u)
include h

theorem safeStop : u.safeStop = s.safeStop := (congrArg State.safeStop h.rest :)

theorem expired : u.link.expired = s.link.expired := (congrArg (fun u : State => u.link.expired) h.rest :)

theorem recorder : u.recorder = s.recorder := (congrArg State.recorder h.rest :)

theorem first (first : s.handsFirst) : u.handsFirst := fun e idle => by
  obtain ⟨line, emerg, slot⟩ := (h.port e).idle idle
  exact ⟨emerg.trans (first e line).1, slot.trans (first e line).2⟩

theorem taken (free : s.safeStop = false) (d : Deck) (r : ChaseFault) : Faulting s (u.faultTaken d r) := by
  have rest := u.faultTaken_rest (d := d) r
  obtain ⟨w, edit⟩ := u.edit_faultTaken (d := d) r (h.safeStop.trans free)
  obtain ⟨w', edit'⟩ := h.edit
  refine ⟨?_, ⟨w, by rw [edit, edit']⟩, fun e => (h.port e).trans ?_⟩
  · have before := h.rest
    generalize u.faultTaken d r = v at rest
    generalize v.edit = a, v.ports = b, v.chase = c, v.link.notices = l at rest
    subst rest
    rw [before]
  · by_cases same : e = d
    · rw [same, State.port_faultTaken]
      exact .chaseStopped _ _ _
    · rw [State.port_faultTaken_ne _ _ _ same]
      exact .refl _

end

end Faulting

/-! ### After the abort -/

/-- The edit of s is aborted with DECK_LOST at u, and deck d's item waits. -/
structure LossAborted (s u : State) (d : Deck) : Prop where
  abort : u.edit.abort = some .deckLost
  stops : u.edit.stops = s.edit.involved
  stage : u.edit.abortStage = s.edit.stage
  phase : (s.port s.recorder).standing = false → u.edit.phase = .release
  gpi : u.gpi = { s.gpi with sched := [] }
  list : u.list = s.list
  replies : s.edit.involved.Nodup → u.link.replies = s.link.replies ++ passAborted s s.edit.involved
  port : u.port d = if d = s.recorder then (itemWaits (s.port d) true false).windowShut else itemWaits (s.port d) true false
  now : u.now = s.now
  expired : u.link.expired = false
  safeStop : u.safeStop = false
  first : u.handsFirst

section
variable {s u : State} {d : Deck} (free : s.safeStop = false) (running : s.link.expired = false) (first : s.handsFirst)
include free running first

theorem Faulting.aborted (h : Faulting s u) (abortable : s.edit.phase.abortable = true) (noAbort : s.edit.abort = none)
    (recorder : s.recorder ∈ s.edit.involved) (involved : d ∈ s.edit.involved) (busy : (s.port d).line ≠ .idle)
    (noItem : (s.port d).emerg = none) : LossAborted s (u.abort .deckLost) d := by
  obtain ⟨w, edit⟩ := h.edit
  have takes : u.takesAbort = true := u.takesAbort_iff.mpr
    ⟨by rw [edit]; exact abortable, by rw [edit]; exact noAbort, h.safeStop.trans free⟩
  have a := State.abort_aborted takes .deckLost
  have decks : u.edit.involved = s.edit.involved := by rw [edit]
  obtain ⟨y, here⟩ := (h.port d).busy busy
  have posted : (u.port d).stopPosted u.fmt u.edit true false = itemWaits (s.port d) true false := by
    rw [here, Port.stopPosted_item (by exact noItem), Laws.itemPosted_busy _ _ _ (by exact busy)]
    rfl
  refine {
    abort := a.abort
    stops := a.stops.trans decks
    stage := a.abortStage.trans (by rw [edit])
    phase := fun clear => a.release (((h.port _).standing.trans (by rw [h.recorder]; exact clear)))
    gpi := a.gpi.trans (congrArg (fun g => { g with sched := [] }) (congrArg State.gpi h.rest :))
    list := a.quiet.list.trans (congrArg State.list h.rest :)
    replies := fun once => ?_
    port := ?_
    now := a.quiet.now.trans (congrArg State.now h.rest :)
    expired := a.quiet.expired.trans (h.expired.trans running)
    safeStop := a.quiet.safeStop.trans (h.safeStop.trans free)
    first := fun e idle => ?_ }
  · obtain ⟨more, replies, all⟩ := a.replies
    rw [replies, all (by rw [decks]; exact once), decks, (congrArg (fun u : State => u.link.replies) h.rest :)]
    exact congrArg (s.link.replies ++ ·) (List.flatMap_congr fun e _ => by rw [(h.port e).pass])
  · rw [a.port d (by rw [decks]; exact involved) (.inr (by rw [posted]; rfl)), posted, h.recorder]
  · by_cases mem : e ∈ u.edit.involved
    · exact absurd idle (a.busy e mem)
    · have other : e ≠ u.recorder := fun same => mem (by rw [same, decks, h.recorder]; exact recorder)
      by_cases released : u.releases e
      · rw [a.portReleased e mem other released] at idle ⊢
        exact h.first first e idle
      · rw [a.portKept e mem other released] at idle ⊢
        exact h.first first e idle

end

section
variable {s u : State} {d : Deck} (h : LossAborted s u d)
include h

/-- No second abort is taken. -/
theorem LossAborted.untaken (why : Reason) : u.abort why = u :=
  State.abort_untaken (by rw [State.takesAbort, h.abort]; simp) why

/-- The fault of another deck's channel changes nothing of it. -/
theorem LossAborted.taken {e : Deck} (other : e ≠ d) (r : ChaseFault) : LossAborted s (u.faultTaken e r) d := by
  have rest := u.faultTaken_rest (d := e) r
  obtain ⟨w, edit⟩ := u.edit_faultTaken (d := e) r h.safeStop
  exact {
    abort := (congrArg Edit.abort edit).trans h.abort
    stops := (congrArg Edit.stops edit).trans h.stops
    stage := (congrArg Edit.abortStage edit).trans h.stage
    phase := fun clear => (congrArg Edit.phase edit).trans (h.phase clear)
    gpi := (congrArg State.gpi rest).trans h.gpi
    list := (congrArg State.list rest).trans h.list
    replies := fun once => (congrArg (fun u : State => u.link.replies) rest).trans (h.replies once)
    port := (State.port_faultTaken_ne u e r other.symm).trans h.port
    now := (congrArg State.now rest).trans h.now
    expired := (congrArg (fun u : State => u.link.expired) rest).trans h.expired
    safeStop := (congrArg State.safeStop rest).trans h.safeStop
    first := fun x idle => by
      by_cases same : x = e
      · rw [same] at idle ⊢
        rw [State.port_faultTaken] at idle ⊢
        obtain ⟨line, emerg, slot⟩ := (Stopping.chaseStopped _ _ _).idle idle
        exact ⟨emerg.trans (h.first e line).1, slot.trans (h.first e line).2⟩
      · rw [State.port_faultTaken_ne _ _ _ same] at idle ⊢
        exact h.first x idle }

end

/-- A channel that does not act stays so in an abort. -/
theorem Aborted.inactive {why : Reason} {v a : State} (h : Aborted why v a) {e : Deck} (still : (v.chan e).active = false) :
    (a.chan e).active = false := by
  by_cases released : v.releases e
  · rw [(h.told.sources e released).1]
    rfl
  · obtain ⟨_, _, _, _, same⟩ := h.kin e released
    rw [same still]
    exact still

/-! ### The loss reaches the channels, then the sequencer -/

theorem State.editChanFault_lost (s : State) {r : ChaseFault} (lost : r = .slaveLost ∨ r = .masterLost) :
    s.editChanFault r = s.abort .deckLost := by
  rcases lost with rfl | rfl <;> rfl

section
variable {s : State} {d : Deck} (free : s.safeStop = false) (running : s.link.expired = false) (first : s.handsFirst)
  (abortable : s.edit.phase.abortable = true) (noAbort : s.edit.abort = none) (recorder : s.recorder ∈ s.edit.involved)
  (involved : d ∈ s.edit.involved) (busy : (s.port d).line ≠ .idle) (noItem : (s.port d).emerg = none)
include free running first abortable noAbort recorder involved busy noItem

theorem Faulting.chaseFault {u : State} (h : Faulting s u) (e : Deck) {r : ChaseFault}
    (lost : r = .slaveLost ∨ r = .masterLost) :
    Faulting s (u.chaseFault e r) ∨ LossAborted s (u.chaseFault e r) d := by
  by_cases acts : (u.chan e).active = true
  · have taken := h.taken free e r
    rw [State.chaseFault_eq r (h.safeStop.trans free) (h.expired.trans running) (h.first first e) acts]
    split
    · rw [State.editChanFault_lost _ lost]
      exact .inr (taken.aborted free running first abortable noAbort recorder involved busy noItem)
    · exact .inl taken
  · rw [State.chaseFault_inactive (Bool.eq_false_iff.mpr acts)]
    exact .inl h

omit free running first abortable noAbort recorder involved busy noItem in
theorem LossAborted.chaseFault {u : State} (h : LossAborted s u d) {e : Deck} (other : e ≠ d) {r : ChaseFault}
    (lost : r = .slaveLost ∨ r = .masterLost) : LossAborted s (u.chaseFault e r) d := by
  by_cases acts : (u.chan e).active = true
  · have taken := h.taken other r
    rw [State.chaseFault_eq r h.safeStop h.expired (h.first e) acts]
    split
    · rw [State.editChanFault_lost _ lost, taken.untaken]
      exact taken
    · exact taken
  · rw [State.chaseFault_inactive (Bool.eq_false_iff.mpr acts)]
    exact h

end

section
variable {s u : State} {d : Deck} (free : s.safeStop = false) (running : s.link.expired = false) (first : s.handsFirst)
  (abortable : s.edit.phase.abortable = true) (noAbort : s.edit.abort = none) (recorder : s.recorder ∈ s.edit.involved)
  (involved : d ∈ s.edit.involved) (busy : (s.port d).line ≠ .idle) (noItem : (s.port d).emerg = none)

/-- Deck d's channel does not act, and the edit is aborted or not yet. -/
structure Losing (s u : State) (d : Deck) : Prop where
  ends : (u.chan d).active = false
  stage : Faulting s u ∨ LossAborted s u d

include free running first in
theorem Losing.handsOn (stage : Faulting s u ∨ LossAborted s u d) :
    u.safeStop = false ∧ u.link.expired = false ∧ u.handsFirst := by
  rcases stage with h | h
  · exact ⟨h.safeStop.trans free, h.expired.trans running, h.first first⟩
  · exact ⟨h.safeStop, h.expired, h.first⟩

include free running first in
theorem Losing.chaseFault_ends (stage : Faulting s u ∨ LossAborted s u d) {e : Deck}
    (ends : e = d ∨ (u.chan d).active = false) {r : ChaseFault} (lost : r = .slaveLost ∨ r = .masterLost) :
    ((u.chaseFault e r).chan d).active = false := by
  obtain ⟨freeU, runningU, firstU⟩ := Losing.handsOn free running first stage
  by_cases acts : (u.chan e).active = true
  · have taken : ((u.faultTaken e r).chan d).active = false := by
      by_cases same : d = e
      · rw [same, State.chan_faultTaken]
        rfl
      · rw [State.chan_faultTaken_ne u e r same]
        exact ends.resolve_left (Ne.symm same)
    rw [State.chaseFault_eq r freeU runningU (firstU e) acts]
    split
    · rw [State.editChanFault_lost _ lost]
      cases takes : (u.faultTaken e r).takesAbort with
      | true => exact (State.abort_aborted takes _).inactive taken
      | false =>
        rw [State.abort_untaken takes]
        exact taken
    · exact taken
  · rw [State.chaseFault_inactive (Bool.eq_false_iff.mpr acts)]
    rcases ends with rfl | ends
    · exact Bool.eq_false_iff.mpr acts
    · exact ends

include free running first abortable noAbort recorder involved busy noItem

/-- Another deck's channel hears of the loss. -/
theorem Losing.chaseFault (h : Losing s u d) (e : Deck) : Losing s (u.chaseFault e .masterLost) d := by
  refine ⟨Losing.chaseFault_ends free running first h.stage (.inr h.ends) (.inr rfl), ?_⟩
  by_cases same : e = d
  · rw [same, State.chaseFault_inactive h.ends]
    exact h.stage
  · rcases h.stage with faulting | aborted
    · exact faulting.chaseFault free running first abortable noAbort recorder involved busy noItem e (.inr rfl)
    · exact .inr (aborted.chaseFault same (.inr rfl))

theorem State.chaseDeckLost_losing : Losing s (s.chaseDeckLost d) d := by
  have slave : Losing s (s.chaseFault d .slaveLost) d :=
    ⟨Losing.chaseFault_ends free running first (.inl (.refl s)) (.inl rfl) (.inl rfl),
      (Faulting.refl s).chaseFault free running first abortable noAbort recorder involved busy noItem d (.inl rfl)⟩
  unfold State.chaseDeckLost
  generalize s.chaseFault d .slaveLost = u at slave
  induction decks generalizing u with
  | nil => exact slave
  | cons e ds ih =>
    refine ih _ ?_
    dsimp only
    split
    · exact slave.chaseFault free running first abortable noAbort recorder involved busy noItem e
    · exact slave

theorem State.editDeckLost_aborts : LossAborted s ((s.chaseDeckLost d).editDeckLost d) d := by
  have h := State.chaseDeckLost_losing free running first abortable noAbort recorder involved busy noItem
  rcases h.stage with faulting | aborted
  · obtain ⟨w, edit⟩ := faulting.edit
    have told : (s.chaseDeckLost d).editDeckLost d = (s.chaseDeckLost d).abort .deckLost :=
      if_pos (by rw [edit]; exact involved)
    rw [told]
    exact faulting.aborted free running first abortable noAbort recorder involved busy noItem
  · have told : (s.chaseDeckLost d).editDeckLost d = s.chaseDeckLost d := by
      unfold State.editDeckLost
      rw [aborted.untaken, ite_self]
    rw [told]
    exact aborted

end

end Sys2Proof.Machine

/-! ## The third failure in a row (R55, R56) -/

namespace Sys2Proof.Machine

open Sys2Proof.Safety

/-- A line that recovers from t on, with its late reply still to come (R52). -/
def Port.recoversAt (p : Port) (t : Time) : Port :=
  { p with line := .recovering, late := .reply { bytes := [], bad := false }, replyFrom := t }

/-- A port on which the attach timer posts IDENTIFY at an instant (R57). -/
def Port.attaching (p : Port) (now : Time) : Port := { p with attachAt := some now, poll := some (p.poll.getD .identify) }

/-- s at t, the command of deck d's line without a reply and the host told, with three failures counted. -/
def State.thirdFailed (s : State) (d : Deck) (t : Time) (o : Origin) : State :=
  passAnswered ((s.tick t).setPort d { (s.port d).unanswered with fails := 3 }) o [.u 1 Result.timeout.code]

section
variable (s : State) (d : Deck) (t : Time) (o : Origin)

theorem State.port_thirdFailed : (s.thirdFailed d t o).port d = { (s.port d).unanswered with fails := 3 } :=
  State.port_setPort (s.tick t) d _

theorem State.port_thirdFailed_ne {e : Deck} (other : e ≠ d) : (s.thirdFailed d t o).port e = s.port e :=
  State.port_setPort_ne (s.tick t) _ other

end

section
variable {s : State} {d : Deck} {x : Flight} {t : Time} (up : s.asserted = false)
  (quiet : x.origin = .poll ∨ x.origin.isPass = true) (present : (s.port d).presence = .present)
  (flight : (s.port d).flight = some x) (third : (s.port d).fails = 2) (awaits : (s.port d).line = .awaiting)
  (due : (s.port d).replyFrom + ms 12 ≤ t)
include up quiet present flight third awaits due

theorem exec_replyTimeout_third : exec (.replyTimeout d t) s =
    let m := (((s.thirdFailed d t x.origin).deckLost d .absent .failures).putIdentify d).hand d
    .next (m.setPort d ((m.port d).recoversAt t)) := by
  obtain ⟨c, origin⟩ := x
  let v := passAnswered ((s.tick t).setPort d (s.port d).unanswered) origin [.u 1 Result.timeout.code]
  have port : v.port d = (s.port d).unanswered := State.port_setPort (s.tick t) d _
  have told : ((s.tick t).setPort d (s.port d).unanswered).handBack d ⟨c, origin⟩ .timeout [] = v :=
    State.handBack_answered (s := (s.tick t).setPort d (s.port d).unanswered) quiet rfl
  have counted : v.countFailure d = (((s.thirdFailed d t origin).deckLost d .absent .failures).putIdentify d).hand d := by
    have failed : v.setPort d { v.port d with fails := (v.port d).fails + 1 } = s.thirdFailed d t origin := by
      rw [port, show (s.port d).unanswered.fails = 2 from third]
      exact congrArg (passAnswered · origin _) (State.setPort_setPort (s.tick t) d _ _)
    rw [← failed]
    refine (if_pos (by rw [port]; exact present)).trans (if_pos ?_)
    rw [port, show (s.port d).unanswered.fails = 2 from third]
  have out : (s.tick t).outcome d .timeout [] = v.countFailure d := by
    rw [State.outcome_noData (s := s.tick t) flight (by simp)]
    exact congrArg (State.countFailure · d) told
  refine (Laws.timed_next s t _ up).trans (congrArg Host.Outcome.next ((if_pos ⟨awaits, due⟩).trans ?_))
  rw [State.endCommand, out, counted]
  rfl

/-- With no silence stop due, a line that is busy when the deck is lost takes nothing. -/
theorem exec_replyTimeout_lost {l : State} (lost : (s.thirdFailed d t x.origin).deckLost d .absent .failures = l)
    (running : l.link.expired = false) (busy : (l.port d).line ≠ .idle) :
    exec (.replyTimeout d t) s = .next (l.setPort d (((l.port d).attaching l.now).recoversAt t)) := by
  rw [exec_replyTimeout_third up quiet present flight third awaits due, lost, State.putIdentify_eq]
  let q := (l.port d).attaching l.now
  have here : (l.setPort d q).port d = q := State.port_setPort ..
  have waits : (l.setPort d q).hand d = l.setPort d q := by
    rw [State.hand_running (s := l.setPort d q) running, State.handLine_busy (by rw [here]; exact busy)]
  change Host.Outcome.next (((l.setPort d q).hand d).setPort d ((((l.setPort d q).hand d).port d).recoversAt t)) = _
  rw [waits, here, State.setPort_setPort]

end

/-! ### The deck's record and reader -/

section
variable {s : State} {d : Deck} {new : Presence} {why : PresenceCause}

theorem State.entered_deckLeaves : Entered s (s.deckLeaves d new why) .deckPresence (Deck.num d)
    (((s.port d).leaving new).presenceContent why) 1 := by
  have moved : Entered s (s.presenceMove d ((s.port d).leaving new) why) .deckPresence (Deck.num d)
      (((s.port d).leaving new).presenceContent why) 1 :=
    Entered.first (t := s.setPort d ((s.port d).leaving new)) rfl rfl rfl
  exact moved.kept (State.entry_readerSource _ _ _ _ (by decide) _)

theorem State.reader_readerSource (s : State) (d : Deck) (r : Reader) (why : ReaderCause) :
    (s.readerSource d r why).reader d = r := by
  unfold State.readerSource
  dsimp only
  split
  · exact State.reader_setReader s d r
  · rw [State.reader_enter, State.reader_setReader]

theorem State.reader_deckLeaves : ((s.deckLeaves d new why).reader d).src = .none ∧
    ((s.deckLeaves d new why).reader d).chain = none := by
  have reader : (s.deckLeaves d new why).reader d = _ := State.reader_readerSource (s.presenceMove d _ why) d _ _
  rw [reader]
  exact ⟨rfl, rfl⟩

end

end Sys2Proof.Machine

namespace Sys2Proof.Machine

open Sys2Proof.Safety

/-! ### A loss that no edit and no channel hears of -/

/-- The port of a PRESENT deck at its third failure in a row: ABSENT, its record cleared, IDENTIFY waiting, its line
recovering (R52, R55 to R57). -/
def Port.lost (p : Port) (now t : Time) : Port :=
  { p with
    flight := none, rx := none, fails := 3, line := .recovering, late := .reply { bytes := [], bad := false }
    replyFrom := t, presence := .absent, ident := none, flags := none, nak := none, standing := false
    attachAt := some (max now t), poll := some .identify }

/-- Where no abort is taken, a silence check enters SILENCE_STOP at most. -/
theorem State.silenceCheck_untaken_or {s : State} (untaken : s.takesAbort = false) : ∃ stop notices,
    s.silenceCheck = { s with link := { s.link with stopTaken := stop, notices := notices } } ∧
    ∀ k n, k ≠ .silenceStop → s.silenceCheck.entry k n = s.entry k n := by
  by_cases silent : s.Silent
  · refine ⟨true, (s.stopTaking.enter .silenceStop 0 s.silenceContent).link.notices, ?_, fun k n other => ?_⟩
    · rw [State.silenceCheck_untaken silent untaken, State.enter_link, State.enter_eq]
      rfl
    · rw [State.silenceCheck_untaken silent untaken]
      exact State.entry_enter_ne _ _ fun both => other both.1
  · refine ⟨s.link.stopTaken, s.link.notices, ?_⟩
    have same : s.silenceCheck = s := if_neg fun ⟨expired, standing, open', free⟩ => silent
      ⟨expired, standing, by simpa using open', by simpa using free⟩
    rw [same]
    exact ⟨rfl, fun _ _ _ => rfl⟩

/-! ### The record once the deck has left PRESENT -/

/-- s at t, deck d ABSENT after its third failure, before channels and sequencer hear of it. -/
def State.leftAbsent (s : State) (d : Deck) (t : Time) (o : Origin) : State :=
  (s.thirdFailed d t o).deckLeaves d .absent .failures

section
variable (s : State) (d : Deck) (t : Time) (o : Origin)

theorem State.leftAbsent_shown : s.leftAbsent d t o = (s.thirdFailed d t o).shown
    ((s.thirdFailed d t o).setPort d (((s.thirdFailed d t o).port d).leaving .absent)).ports
    (s.leftAbsent d t o).readers (s.leftAbsent d t o).link.notices := State.deckLeaves_shown

theorem State.deckLost_thirdFailed : (s.thirdFailed d t o).deckLost d .absent .failures =
    ((s.leftAbsent d t o).chaseDeckLost d).editDeckLost d := rfl

theorem State.chan_leftAbsent (e : Deck) : (s.leftAbsent d t o).chan e = s.chan e := State.chan_deckLeaves e

theorem State.edit_leftAbsent : (s.leftAbsent d t o).edit = s.edit := State.edit_deckLeaves

theorem State.replies_leftAbsent :
    (s.leftAbsent d t o).link.replies = (passAnswered s o [.u 1 Result.timeout.code]).link.replies :=
  (congrArg (fun u : State => u.link.replies) (s.leftAbsent_shown d t o) :)

theorem State.now_leftAbsent : (s.leftAbsent d t o).now = max s.now t := (congrArg State.now (s.leftAbsent_shown d t o) :)

theorem State.port_leftAbsent :
    (s.leftAbsent d t o).port d = { (s.port d).unanswered with fails := 3 : Port }.leaving .absent := by
  rw [State.leftAbsent, State.port_deckLeaves, State.port_thirdFailed]

theorem State.port_leftAbsent_ne {e : Deck} (other : e ≠ d) : (s.leftAbsent d t o).port e = s.port e :=
  (State.port_deckLeaves_ne other).trans (s.port_thirdFailed_ne d t o other)

theorem State.entry_leftAbsent {k : NoticeKind} (noPresence : k ≠ .deckPresence) (noReader : k ≠ .readerState) (n : Nat) :
    (s.leftAbsent d t o).entry k n = s.entry k n := State.entry_deckLeaves noPresence noReader n

theorem State.entered_leftAbsent : Entered s (s.leftAbsent d t o) .deckPresence (Deck.num d)
    [.u 1 Presence.absent.code, .u 1 PresenceCause.failures.code] 1 := by
  have entered := State.entered_deckLeaves (s := s.thirdFailed d t o) (d := d) (new := .absent) (why := .failures)
  exact entered.since (s := s) rfl rfl rfl

variable {s d t o}

theorem Port.lost_eq (noPoll : (s.port d).poll = none) :
    (((s.leftAbsent d t o).port d).attaching (s.leftAbsent d t o).now).recoversAt t = (s.port d).lost s.now t := by
  have none : ((s.leftAbsent d t o).port d).poll = none := by rw [State.port_leftAbsent]; exact noPoll
  rw [Port.attaching, none, State.now_leftAbsent, State.port_leftAbsent]
  rfl

end

section
variable {s : State} {d : Deck} {x : Flight} {t : Time} (up : s.asserted = false)
  (quiet : x.origin = .poll ∨ x.origin.isPass = true) (present : (s.port d).presence = .present)
  (flight : (s.port d).flight = some x) (third : (s.port d).fails = 2) (awaits : (s.port d).line = .awaiting)
  (noPoll : (s.port d).poll = none) (due : (s.port d).replyFrom + ms 12 ≤ t)
include up quiet present flight third awaits noPoll due

theorem exec_replyTimeout_lost_idle (idle : s.edit.phase = .idle) (noChase : ∀ e, (s.chan e).st = .idle) :
    ∃ u, exec (.replyTimeout d t) s = .next u ∧ u.port d = (s.port d).lost s.now t ∧
      (∀ e, e ≠ d → u.port e = s.port e) ∧ (u.reader d).src = .none ∧ (u.reader d).chain = none ∧
      Told s u .deckPresence (Deck.num d) [.u 1 Presence.absent.code, .u 1 PresenceCause.failures.code] 1 ∧
      u.chase = s.chase ∧ u.edit = s.edit ∧
      u.link.replies = (passAnswered s x.origin [.u 1 Result.timeout.code]).link.replies := by
  have chase : (s.leftAbsent d t x.origin).chase = s.chase := (congrArg State.chase (s.leftAbsent_shown d t x.origin) :)
  have replies := s.replies_leftAbsent d t x.origin
  have edit := s.edit_leftAbsent d t x.origin
  have untaken (m : State) (same : m.edit = s.edit) : m.takesAbort = false := by
    rw [State.takesAbort, same, idle]
    rfl
  have lost : (s.thirdFailed d t x.origin).deckLost d .absent .failures = s.leftAbsent d t x.origin := by
    rw [State.deckLost_thirdFailed, State.chaseDeckLost_none]
    · unfold State.editDeckLost
      rw [State.abort_untaken (untaken _ edit), ite_self]
    · intro e ⟨acts, _⟩
      rw [State.chan_leftAbsent] at acts
      exact ((Channel.active_iff _).mp acts).1 (noChase e)
  have step := exec_replyTimeout_third up quiet present flight third awaits due
  rw [lost, State.putIdentify_eq] at step
  have port := Port.lost_eq (s := s) (d := d) (t := t) (o := x.origin) noPoll
  have entered := s.entered_leftAbsent d t x.origin
  have here := s.port_leftAbsent d t x.origin
  have there (e : Deck) (other : e ≠ d) := s.port_leftAbsent_ne d t x.origin other
  have reader : ((s.leftAbsent d t x.origin).reader d).src = .none ∧ ((s.leftAbsent d t x.origin).reader d).chain = none :=
    State.reader_deckLeaves
  generalize s.leftAbsent d t x.origin = l at step port entered here there reader chase replies edit
  let q := (l.port d).attaching l.now
  let m := l.setPort d q
  have hereM : m.port d = q := State.port_setPort l d q
  obtain ⟨stop, notices, checked, entries⟩ := State.silenceCheck_untaken_or (untaken m edit)
  have waits : m.hand d = m.silenceCheck := congrArg State.silenceCheck (State.handLine_busy (s := m) (by
    rw [hereM]
    change (l.port d).line ≠ .idle
    rw [here]
    exact fun is => LineState.noConfusion (awaits.symm.trans is)))
  rw [← waits] at checked entries
  change exec (.replyTimeout d t) s = .next ((m.hand d).setPort d (((m.hand d).port d).recoversAt t)) at step
  generalize m.hand d = v at step checked entries
  have hereV : v.port d = q := (congrArg (State.port · d) checked).trans hereM
  rw [hereV, port] at step
  refine ⟨_, step, State.port_setPort .., fun e other => ?_, ?_, ?_, ?_, ?_, ?_, ?_⟩
  · refine (State.port_setPort_ne v _ other).trans ((congrArg (State.port · e) checked).trans ?_)
    exact (State.port_setPort_ne l q other).trans (there e other)
  · exact (congrArg (fun u : State => (u.reader d).src) checked).trans reader.1
  · exact (congrArg (fun u : State => (u.reader d).chain) checked).trans reader.2
  · exact (entered.kept (entries .deckPresence (Deck.num d) (by decide))).told
  · exact (congrArg State.chase checked).trans chase
  · exact (congrArg State.edit checked).trans edit
  · exact (congrArg (fun u : State => u.link.replies) checked).trans replies

end

end Sys2Proof.Machine

namespace Sys2Proof.Machine

open Sys2Proof.Safety

/-! ### Who hears of the loss (R56, R88, R128) -/

/-- A port whose open quiet window closes, its hold begun, where it is the recorder's (R66, R129). -/
def Port.windowClosed (p : Port) (recorder : Bool) : Port :=
  { p with quiet := p.quiet && !(p.quiet && recorder), hold := p.hold || (p.quiet && recorder) }

theorem Port.windowClosed_eq {p : Port} (clear : p.standing = false) (recorder : Bool) :
    p.windowClosed recorder = if recorder = true then p.windowShut else p := by
  cases recorder with
  | false => simp [Port.windowClosed]
  | true =>
    rw [if_pos rfl, Port.windowShut]
    split
    · next opened => simp [Port.windowClosed, opened.1]
    · next shut =>
      have closed : false = p.quiet := by simpa [clear] using shut
      simp only [Port.windowClosed, ← closed, Bool.false_and, Bool.or_false]
      rw [closed]

section
variable {s : State} {d : Deck} {x : Flight} {t : Time} (up : s.asserted = false)
  (quiet : x.origin = .poll ∨ x.origin.isPass = true) (present : (s.port d).presence = .present)
  (flight : (s.port d).flight = some x) (third : (s.port d).fails = 2) (awaits : (s.port d).line = .awaiting)
  (noPoll : (s.port d).poll = none) (due : (s.port d).replyFrom + ms 12 ≤ t) (free : s.safeStop = false)
  (running : s.link.expired = false) (first : s.handsFirst)
include up quiet present flight third awaits noPoll due free running first

/-- Channels of the link alone hear of the loss. -/
theorem exec_replyTimeout_lost_link (linked : ∀ e, s.lossHits d e → (s.chan e).owner = some .link)
    (apart : d ∉ s.edit.involved) : ∃ u, exec (.replyTimeout d t) s = .next u ∧
      (∀ e, s.lossHits d e → u.chan e = (s.chan e).faulted (lossReason d e) ∧ ChaseTold s u e (s.chan e).st .fault 1) ∧
      (∀ e, ¬s.lossHits d e → u.chan e = s.chan e) ∧
      (∀ e, e ≠ d → s.lossHits d e → u.port e = (s.port e).chaseStopped s.fmt (s.chan e)) ∧
      (∀ e, e ≠ d → ¬s.lossHits d e → u.port e = s.port e) ∧
      (s.lossHits d d → u.port d = { (s.port d).lost s.now t with
        servo := some { cmd := .stop, gen := (s.chan d).gen, loc := (s.chan d).loc } }) ∧
      (¬s.lossHits d d → u.port d = (s.port d).lost s.now t) ∧ u.edit = s.edit ∧
      u.link.replies = (passAnswered s x.origin [.u 1 Result.timeout.code]).link.replies ∧ u.list = s.list ∧
      u.engine = s.engine ∧ u.gpi = s.gpi := by
  let w := s.thirdFailed d t x.origin
  have touched := State.deckLost_link (s := w) (d := d) (new := .absent) (why := .failures) free running (fun e => ?first)
    linked apart
  case first =>
    by_cases same : e = d
    · rw [same, State.port_thirdFailed]
      exact fun idle => LineState.noConfusion (awaits.symm.trans idle)
    · rw [State.port_thirdFailed_ne _ _ _ _ same]
      exact first e
  have shown := s.leftAbsent_shown d t x.origin
  have list : (s.leftAbsent d t x.origin).list = s.list := (congrArg State.list shown :)
  have engine : (s.leftAbsent d t x.origin).engine = s.engine := (congrArg State.engine shown :)
  have gpi : (s.leftAbsent d t x.origin).gpi = s.gpi := (congrArg State.gpi shown :)
  have expired : (s.leftAbsent d t x.origin).link.expired = false := State.expired_deckLeaves.trans running
  have mask : (s.leftAbsent d t x.origin).link.mask = s.link.mask := (congrArg (fun u : State => u.link.mask) shown :)
  have clock : (s.leftAbsent d t x.origin).clock = s.clock := (congrArg State.clock shown :)
  have here := s.port_leftAbsent d t x.origin
  have there (e : Deck) (other : e ≠ d) := s.port_leftAbsent_ne d t x.origin other
  have entry (n : Nat) := s.entry_leftAbsent d t x.origin (k := .chaseState) (by decide) (by decide) n
  have posted := Port.lost_eq (s := s) (d := d) (t := t) (o := x.origin) noPoll
  have replies := s.replies_leftAbsent d t x.origin
  have edit := s.edit_leftAbsent d t x.origin
  have chan := s.chan_leftAbsent d t x.origin
  have lost := fun running busy => exec_replyTimeout_lost up quiet present flight third awaits due
    (l := w.deckLost d .absent .failures) rfl running busy
  change Touched (fun e => ((s.leftAbsent d t x.origin).port e).chaseStopped s.fmt (s.chan e))
    (fun e => (s.chan e).faulted (lossReason d e))
    (fun e => some (((s.chan e).faulted (lossReason d e)).noticeContent (s.chan e).st .fault)) (s.lossHits d)
    (s.leftAbsent d t x.origin) _ at touched
  clear shown
  generalize s.leftAbsent d t x.origin = l at *
  generalize w.deckLost d .absent .failures = v at touched lost
  have rest := touched.rest
  have now : v.now = l.now := (congrArg State.now rest :)
  have busy : (l.port d).line ≠ .idle := by
    rw [here]
    exact fun is => LineState.noConfusion (awaits.symm.trans is)
  have stops (hit : s.lossHits d d) : v.port d = { l.port d with
      servo := some { cmd := .stop, gen := (s.chan d).gen, loc := (s.chan d).loc } } :=
    (touched.port d hit).trans (Port.chaseStopped_busy (by rw [here]; exact fun is => Presence.noConfusion is) busy _ _)
  have busyV : (v.port d).line ≠ .idle := by
    by_cases hit : s.lossHits d d
    · rw [stops hit]
      exact busy
    · rw [touched.portKept d hit]
      exact busy
  refine ⟨_, lost ((congrArg (fun u : State => u.link.expired) rest).trans expired) busyV,
    fun e hit => ⟨touched.chan e hit, ?_⟩, fun e miss => (touched.chanKept e miss).trans (chan e),
    fun e other hit => ?_, fun e other miss => ?_, fun hit => ?_, fun miss => ?_, (congrArg State.edit rest).trans edit,
    (congrArg (fun u : State => u.link.replies) rest).trans replies,
    (congrArg State.list rest).trans list, (congrArg State.engine rest).trans engine, (congrArg State.gpi rest).trans gpi⟩
  · rw [ChaseTold, State.chan_setPort, touched.chan e hit]
    exact (((touched.told e _ hit rfl).since (entry _) mask clock).kept (u := v.setPort d _) (State.entry_congr rfl _ _)).told
  · rw [State.port_setPort_ne _ _ other, touched.port e hit, there e other]
  · rw [State.port_setPort_ne _ _ other, touched.portKept e miss, there e other]
  · rw [State.port_setPort, now, stops hit]
    exact congrArg (fun p : Port => { p with
      servo := some { cmd := .stop, gen := (s.chan d).gen, loc := (s.chan d).loc } }) posted
  · rw [State.port_setPort, now, touched.portKept d miss]
    exact posted

/-- The edit that involves the deck is aborted. -/
theorem exec_replyTimeout_lost_edit (noItem : (s.port d).emerg = none) (involved : d ∈ s.edit.involved)
    (abortable : s.edit.phase.abortable = true) (noAbort : s.edit.abort = none) (recorder : s.recorder ∈ s.edit.involved) :
    ∃ u, exec (.replyTimeout d t) s = .next u ∧ u.edit.abort = some .deckLost ∧ u.edit.stops = s.edit.involved ∧
      u.gpi = { s.gpi with sched := [] } ∧ u.list = s.list ∧ u.edit.abortStage = s.edit.stage ∧
      (s.edit.involved.Nodup → u.link.replies =
        (passAnswered s x.origin [.u 1 Result.timeout.code]).link.replies ++ passAborted s s.edit.involved) ∧
      u.port d = (itemWaits ((s.port d).lost s.now t) true false).windowClosed (d == s.recorder) ∧
      (d = s.recorder ∨ (s.port s.recorder).standing = false → u.edit.phase = .release) := by
  have shown := s.leftAbsent_shown d t x.origin
  have list : (s.leftAbsent d t x.origin).list = s.list := (congrArg State.list shown :)
  have gpi : (s.leftAbsent d t x.origin).gpi = s.gpi := (congrArg State.gpi shown :)
  have whose : (s.leftAbsent d t x.origin).recorder = s.recorder := (congrArg State.recorder shown :)
  have here := s.port_leftAbsent d t x.origin
  have there (e : Deck) (other : e ≠ d) := s.port_leftAbsent_ne d t x.origin other
  have posted := Port.lost_eq (s := s) (d := d) (t := t) (o := x.origin) noPoll
  have replies := s.replies_leftAbsent d t x.origin
  have edit := s.edit_leftAbsent d t x.origin
  have h := State.editDeckLost_aborts (s := s.leftAbsent d t x.origin) (d := d) (State.safeStop_deckLeaves.trans free)
    (State.expired_deckLeaves.trans running) (fun e idle => ?first) (by rw [edit]; exact abortable)
    (by rw [edit]; exact noAbort)
    (by rw [edit, whose]; exact recorder) (by rw [edit]; exact involved)
    (by rw [here]; exact fun is => LineState.noConfusion (awaits.symm.trans is)) (by rw [here]; exact noItem)
  case first =>
    by_cases same : e = d
    · rw [same, here] at idle
      exact absurd (awaits.symm.trans idle) (by simp)
    · rw [there e same] at idle ⊢
      exact first e idle
  have lost := fun running busy => exec_replyTimeout_lost up quiet present flight third awaits due
    (s.deckLost_thirdFailed d t x.origin) running busy
  clear shown
  generalize s.leftAbsent d t x.origin = l at *
  generalize (l.chaseDeckLost d).editDeckLost d = v at h lost
  have port : v.port d = (itemWaits (l.port d) true false).windowClosed (d == s.recorder) := by
    rw [h.port, whose, Port.windowClosed_eq (by rw [here]; rfl)]
    simp only [beq_iff_eq]
  have busy : (v.port d).line ≠ .idle := by
    rw [port]
    change (l.port d).line ≠ .idle
    rw [here]
    exact fun is => LineState.noConfusion (awaits.symm.trans is)
  refine ⟨_, lost h.expired busy, h.abort, h.stops.trans (by rw [edit]), h.gpi.trans (by rw [gpi]), h.list.trans list,
    h.stage.trans (by rw [edit]), fun once => ?_, ?_, fun clear => h.phase ?_⟩
  · refine (h.replies (by rw [edit]; exact once)).trans ?_
    rw [replies, edit]
    refine congrArg _ (List.flatMap_congr fun e _ => ?_)
    by_cases same : e = d
    · rw [same, here]
      rfl
    · rw [there e same]
  · rw [State.port_setPort, port, h.now]
    exact congrArg (fun p : Port => (itemWaits p true false).windowClosed (d == s.recorder)) posted
  · rw [whose]
    by_cases same : s.recorder = d
    · rw [same, here]
      rfl
    · rw [there _ same]
      exact clear.resolve_left (Ne.symm same)

end

end Sys2Proof.Machine

namespace Sys2Proof.Proofs

open Sys2Proof.Machine Sys2Proof.Safety

/-- Settles O18: a failure is counted and answered (`State.endCommand_timeout`, `State.endCommand_lineError`); the third in a
row loses the deck, of which the link's channels hear (`State.deckLost_link`), and the edit (`State.editDeckLost_aborts`). -/
theorem deckFailuresAreCounted : Obligations.DeckFailuresAreCounted := by
  refine ⟨fun s d x t up => ?_, fun s d c o n bad cs rest t up quiet => ?_, fun s d x t up quiet => ?_,
    fun s d x t up free running quiet => ?_⟩
  · intro p failed flight quiet few
    exact ⟨fun awaits due => exec_replyTimeout_failed up flight quiet few awaits due,
      fun receives _ due => exec_deckGapTimeout_failed up flight quiet few receives due,
      fun u v cs t' awaits due noStray none fails late =>
        exec_lateReply_unanswered up flight quiet few awaits due noStray none fails late⟩
  · intro p bytes count code speeds records sense fits known few flight awaits noStray noBytes damaged
    exact exec_deckReply_damaged up flight quiet few awaits noStray noBytes known rest damaged
  · intro p present flight third awaits noPoll due idle noChase
    exact exec_replyTimeout_lost_idle up quiet present flight third awaits noPoll due idle noChase
  · intro p e hit stopping told present flight third awaits noPoll noItem due first lost
    have hits (y : Deck) : s.lossHits d y ↔ hit y := by
      rw [State.lossHits, Channel.active_iff, and_assoc]
    refine ⟨fun linked apart => ?_, fun involved abortable noAbort recorder => ?_⟩
    · obtain ⟨u, step, faulted, kept, stops, stays, own, alone, edit, replies, list, engine, gpi⟩ :=
        exec_replyTimeout_lost_link up quiet present flight third awaits noPoll due free running first
          (fun y is => linked y ((hits y).mp is)) apart
      refine ⟨u, step, fun y => ⟨fun is => faulted y ((hits y).mpr is), fun miss => kept y (mt (hits y).mp miss),
        fun other is busy enabled => ?_, fun other is idle enabled => ?_, fun other is disabled => ?_,
        fun other miss => stays y other (mt (hits y).mp miss)⟩, ?_, edit, replies, list, engine, gpi⟩
      · exact (stops y other ((hits y).mpr is)).trans (Port.chaseStopped_busy enabled busy _ _)
      · exact (stops y other ((hits y).mpr is)).trans (Port.chaseStopped_idle enabled idle _ _)
      · exact (stops y other ((hits y).mpr is)).trans (Port.chaseStopped_disabled disabled _ _)
      · split
        · next acts => exact own ((hits d).mpr ⟨acts.1, acts.2, .inl rfl⟩)
        · next still => exact alone fun is => still ⟨((hits d).mp is).1, ((hits d).mp is).2.1⟩
    · exact exec_replyTimeout_lost_edit up quiet present flight third awaits noPoll due free running first noItem involved
        abortable noAbort recorder

end Sys2Proof.Proofs
